-- ==== Sys2Proof/Word.lean ====
section
/-! DEFINITION. The word types of the block and the sparse table in which it keeps numbered things.
Bit 0 is the least significant bit (00_scope.md R3) and every word is little-endian in memory (R4). -/
namespace Sys2Proof

/-- One byte. -/
abbrev Byte := BitVec 8
/-- A sixteen-bit word. -/
abbrev W16 := BitVec 16
/-- A thirty-two-bit word. -/
abbrev W32 := BitVec 32
/-- A sixty-four-bit word: a general register, an address, a doubleword. -/
abbrev W64 := BitVec 64
/-- A 256-byte line: byte k is bits 8k + 7 to 8k. -/
abbrev Line := BitVec 2048
/-- One bit for each byte of a 256-byte line. -/
abbrev LineMask := BitVec 256

/-- A table of numbered things, in one canonical form: numbers rise, and no listed thing equals the
default that an unlisted number stands for. -/
abbrev Tab (α : Type) := List (Nat × α)

/-- The thing numbered k, or the default. -/
def Tab.get {α : Type} (d : α) : Tab α → Nat → α
  | [], _ => d
  | (i, v) :: t, k => if i = k then v else Tab.get d t k

/-- The table without number k. -/
def Tab.del {α : Type} : Tab α → Nat → Tab α
  | [], _ => []
  | (i, v) :: t, k => if i = k then Tab.del t k else (i, v) :: Tab.del t k

/-- The table with number k put in at its place. -/
def Tab.ins {α : Type} : Tab α → Nat → α → Tab α
  | [], k, v => [(k, v)]
  | (i, w) :: t, k, v => if k < i then (k, v) :: (i, w) :: t else (i, w) :: Tab.ins t k v

/-- The table in which number k stands for v. -/
def Tab.set {α : Type} [DecidableEq α] (d : α) (t : Tab α) (k : Nat) (v : α) : Tab α :=
  if v = d then Tab.del t k else Tab.ins (Tab.del t k) k v

/-- The numbers of a table rise strictly. -/
def Tab.rising {α : Type} : Tab α → Bool
  | [] => true
  | [_] => true
  | (i, _) :: (j, w) :: t => decide (i < j) && Tab.rising ((j, w) :: t)

end Sys2Proof
end

