-- ==== Sys2Proof/Syntax.lean ====
section
/-! DEFINITION. The commands of the block, one constructor for each row of spec/opcode_table.json, and the operands
they carry. No row gives bits: the operands are what the row's rule makes the command depend on. -/
namespace Sys2Proof

/-- A thread: its block and its number in the block's task (04_blocks_and_threads.md R88). -/
structure Th where
  blk : Fin 100
  thr : Fin 128
  deriving DecidableEq, Repr

/-- The fields of the first word of a Veltur instruction but OPC, which the command's name gives
(05_veltur_instructions.md R123). -/
structure W0 where
  x : BitVec 26
  c : BitVec 6
  b : BitVec 6
  a : BitVec 6
  d : BitVec 6
  pn : Bool
  pe : Bool
  pr : BitVec 3
  l : Bool
  deriving DecidableEq, Repr

/-- A 256-byte line, of device memory (by device offset) or of host memory (by host physical address)
(07_caches_and_coherence.md R176). -/
structure LineId where
  host : Bool
  line : BitVec 56
  deriving DecidableEq, Repr

/-- A base address register window (09_host_port.md R237, R241). -/
inductive Bar where
  | bar0
  | bar2
  deriving DecidableEq, Repr

/-- A place in a window of the device's registers. -/
structure BarOff where
  bar : Bar
  off : W32
  deriving DecidableEq, Repr

/-- Who makes a non-caching read. -/
inductive Agent where
  | block (b : Fin 100)
  | engine (e : Fin 16)
  | queue
  | walker (r : Fin 5)
  deriving DecidableEq, Repr

/-- What a host CXL.mem request asks for in its metadata (07_caches_and_coherence.md R196). -/
inductive HostMeta where
  | invalid
  | shared
  | any
  deriving DecidableEq, Repr

/-- The state a host gives in answer to a back-invalidate snoop. -/
inductive BiState where
  | i
  | s
  deriving DecidableEq, Repr

/-- The state a host grants with a global observation. -/
inductive GoState where
  | i
  | s
  | e
  | m
  | err
  deriving DecidableEq, Repr

/-- An agent that has died (07_caches_and_coherence.md R204). -/
inductive DeadAgent where
  | block (b : Fin 100)
  | region (r : Fin 5)
  | host
  deriving DecidableEq, Repr

/-- What a base die reports with ALERT (08_memory_stacks.md Table 8-2). -/
inductive AlertKind where
  | corrected
  | uncorrectable
  | relayLost
  | stackFatal
  deriving DecidableEq, Repr

/-- A step of link-group training that ran over its time (08_memory_stacks.md Table 8-6): modules that did not train,
the near base die, the relay, or the stack of a position. -/
inductive TrainStep where
  | modules (failed : BitVec 10)
  | baseDie
  | relay
  | dram (far : Bool)
  deriving DecidableEq, Repr

/-- The response code of a page request (10_translation.md Table 10-4). -/
inductive PriCode where
  | success
  | invalid
  | failure
  deriving DecidableEq, Repr

/-- What comes back late to a thread (05_veltur_instructions.md R153, Table 5-15): the instruction's address is ia. -/
inductive Deferred where
  | poison (ia : W64) (addr : W64)
  | cellPoison (ia : W64) (cell : BitVec 4)
  | cellLost (ia : W64) (cell : BitVec 4)
  | deadTarget (ia : W64) (addr : W64)
  | remoteError (ia : W64) (addr : W64)
  | operand (ia : W64) (cell : BitVec 4)
  deriving DecidableEq, Repr

/-- A fault source: one event kind of one unit of one group (15_faults_and_dust_sheets.md R399). -/
structure Src where
  g : BitVec 4
  u : W16
  k : BitVec 3
  deriving DecidableEq, Repr

/-- A unit that takes a dust sheet (16_stolpel_and_events.md R431). -/
inductive DustUnit where
  | cell (b : Fin 100) (p : Fin 17)
  | block (b : Fin 100)
  | region (r : Fin 5)
  | memPort (p : Fin 20)
  | netPort (p : Fin 10)
  | engine (e : Fin 16)
  | collective (r : Fin 5)
  | skim
  deriving DecidableEq, Repr

/-- A UMT packet as it arrives: interface, source, header, multicast extension and payload
(12_umakin_transport.md R311, R314, R317). -/
structure Pkt where
  ifc : Fin 20
  srcDev : W16
  srcIfc : Fin 20
  ce : Bool
  isFirst : Bool
  isLast : Bool
  ackReq : Bool
  notify : Bool
  retx : Bool
  mcast : Option (Byte × BitVec 256)
  path : BitVec 6
  gen : Byte
  dqpn : Fin 262144
  sqpn : Fin 262144
  ceCnt : Byte
  psn : BitVec 24
  addr : W64
  aux : W32
  ts : W32
  payload : List Byte
  deriving DecidableEq, Repr

/-- What an optical module tells of itself (18_identity_and_optical_modules.md R485), each text as its bytes. -/
structure ModuleId where
  name : BitVec 128
  part : BitVec 128
  serial : BitVec 128
  rated : W32
  deriving DecidableEq, Repr

/-- The fuses (18_identity_and_optical_modules.md R480, R481): serial number, key hash, the physical cell that the spare
replaced at wafer test for each block that has one, and the wafer-test calibration values by byte (R471). -/
structure Fuses where
  dsn : W64
  keyHash : BitVec 384
  spare : List (Fin 100 × Fin 16)
  cal : List (Nat × Byte)
  deriving DecidableEq, Repr

/-- The commands of the block, one for each row of spec/opcode_table.json, with the row's operands. -/
inductive Instr where
  /-- REGISTER_WRITE (R12). -/
  | registerWrite (bar : Bar) (off : W32) (size : Nat) (data : W64)
  /-- RC_COUNTER_READ (R10). -/
  | rcCounterRead (off : BarOff) (size : Nat)
  /-- ADD (R127). -/
  | add (t : Th) (w : W0)
  /-- SUB (R127). -/
  | sub (t : Th) (w : W0)
  /-- MUL (R127). -/
  | mul (t : Th) (w : W0)
  /-- MULHS (R127). -/
  | mulhs (t : Th) (w : W0)
  /-- MULHU (R127). -/
  | mulhu (t : Th) (w : W0)
  /-- DIVS (R127). -/
  | divs (t : Th) (w : W0)
  /-- DIVU (R127). -/
  | divu (t : Th) (w : W0)
  /-- REMS (R127). -/
  | rems (t : Th) (w : W0)
  /-- REMU (R127). -/
  | remu (t : Th) (w : W0)
  /-- AND (R127). -/
  | and (t : Th) (w : W0)
  /-- OR (R127). -/
  | or (t : Th) (w : W0)
  /-- XOR (R127). -/
  | xor (t : Th) (w : W0)
  /-- SHL (R127). -/
  | shl (t : Th) (w : W0)
  /-- SHR (R127). -/
  | shr (t : Th) (w : W0)
  /-- SAR (R127). -/
  | sar (t : Th) (w : W0)
  /-- MIN (R127). -/
  | min (t : Th) (w : W0)
  /-- MAX (R127). -/
  | max (t : Th) (w : W0)
  /-- MINU (R127). -/
  | minu (t : Th) (w : W0)
  /-- MAXU (R127). -/
  | maxu (t : Th) (w : W0)
  /-- ICMP (R129). -/
  | icmp (t : Th) (w : W0)
  /-- SEL (R127). -/
  | sel (t : Th) (w : W0)
  /-- MOV (R127). -/
  | mov (t : Th) (w : W0)
  /-- ADDI (R127). -/
  | addi (t : Th) (w : W0)
  /-- MOVI (R127). -/
  | movi (t : Th) (w : W0) (imm : W64)
  /-- POPC (R127). -/
  | popc (t : Th) (w : W0)
  /-- CLZ (R127). -/
  | clz (t : Th) (w : W0)
  /-- MADD (R127). -/
  | madd (t : Th) (w : W0)
  /-- BFX (R127). -/
  | bfx (t : Th) (w : W0)
  /-- FADD (R128). -/
  | fadd (t : Th) (w : W0)
  /-- FSUB (R128). -/
  | fsub (t : Th) (w : W0)
  /-- FMUL (R128). -/
  | fmul (t : Th) (w : W0)
  /-- FFMA (R128). -/
  | ffma (t : Th) (w : W0)
  /-- FDIV (R128). -/
  | fdiv (t : Th) (w : W0)
  /-- FSQRT (R128). -/
  | fsqrt (t : Th) (w : W0)
  /-- FMIN (R45). -/
  | fmin (t : Th) (w : W0)
  /-- FMAX (R45). -/
  | fmax (t : Th) (w : W0)
  /-- FCMP (R129). -/
  | fcmp (t : Th) (w : W0)
  /-- FCVT (R128). -/
  | fcvt (t : Th) (w : W0)
  /-- FABS (R44). -/
  | fabs (t : Th) (w : W0)
  /-- FNEG (R44). -/
  | fneg (t : Th) (w : W0)
  /-- ICVTF (R128). -/
  | icvtf (t : Th) (w : W0)
  /-- FCVTI (R128). -/
  | fcvti (t : Th) (w : W0)
  /-- PAND (R128). -/
  | pand (t : Th) (w : W0)
  /-- POR (R128). -/
  | por (t : Th) (w : W0)
  /-- PXOR (R128). -/
  | pxor (t : Th) (w : W0)
  /-- PNOT (R128). -/
  | pnot (t : Th) (w : W0)
  /-- PMOV (R128). -/
  | pmov (t : Th) (w : W0)
  /-- NOP (R130). -/
  | nop (t : Th) (w : W0) (opc : Byte)
  /-- BRA (R130). -/
  | bra (t : Th) (w : W0)
  /-- BR (R130). -/
  | br (t : Th) (w : W0)
  /-- CALL (R130). -/
  | call (t : Th) (w : W0)
  /-- END (R145). -/
  | endThread (t : Th) (w : W0)
  /-- END_COMPLETE (R145). -/
  | endComplete (t : Th)
  /-- TRAP (R130). -/
  | trap (t : Th) (w : W0)
  /-- ERET (R130). -/
  | eret (t : Th) (w : W0)
  /-- RDSR (R120). -/
  | rdsr (t : Th) (w : W0)
  /-- WRSR (R120). -/
  | wrsr (t : Th) (w : W0)
  /-- LD (R142). -/
  | ld (t : Th) (w : W0)
  /-- ST (R142). -/
  | st (t : Th) (w : W0)
  /-- LDR (R143). -/
  | ldr (t : Th) (w : W0)
  /-- STC (R143). -/
  | stc (t : Th) (w : W0)
  /-- AMO (R144). -/
  | amo (t : Th) (w : W0)
  /-- ZLINE (R198). -/
  | zline (t : Th) (w : W0)
  /-- PREF (R144). -/
  | pref (t : Th) (w : W0)
  /-- TLD (R135). -/
  | tld (t : Th) (w : W0) (ext : W64)
  /-- TST (R113). -/
  | tst (t : Th) (w : W0) (ext : W64)
  /-- TPF (R137). -/
  | tpf (t : Th) (w : W0) (ext : W64)
  /-- TDSET (R132). -/
  | tdset (t : Th) (w : W0)
  /-- TDGET (R132). -/
  | tdget (t : Th) (w : W0)
  /-- TDADD (R132). -/
  | tdadd (t : Th) (w : W0)
  /-- TMMA (R71). -/
  | tmma (t : Th) (w : W0) (ext : W64)
  /-- TATTN (R83). -/
  | tattn (t : Th) (w : W0)
  /-- TSEED (R49). -/
  | tseed (t : Th) (w : W0)
  /-- CWAIT (R132). -/
  | cwait (t : Th) (w : W0)
  /-- VADD (R78). -/
  | vadd (t : Th) (w : W0) (ext : W64)
  /-- VSUB (R78). -/
  | vsub (t : Th) (w : W0) (ext : W64)
  /-- VMUL (R78). -/
  | vmul (t : Th) (w : W0) (ext : W64)
  /-- VFMA (R78). -/
  | vfma (t : Th) (w : W0) (ext : W64)
  /-- VMIN (R78). -/
  | vmin (t : Th) (w : W0) (ext : W64)
  /-- VMAX (R78). -/
  | vmax (t : Th) (w : W0) (ext : W64)
  /-- VCMP (R141). -/
  | vcmp (t : Th) (w : W0) (ext : W64)
  /-- VABS (R78). -/
  | vabs (t : Th) (w : W0) (ext : W64)
  /-- VNEG (R78). -/
  | vneg (t : Th) (w : W0) (ext : W64)
  /-- VSCALE (R141). -/
  | vscale (t : Th) (w : W0) (ext : W64)
  /-- VDIV (R78). -/
  | vdiv (t : Th) (w : W0) (ext : W64)
  /-- VSQRT (R78). -/
  | vsqrt (t : Th) (w : W0) (ext : W64)
  /-- VRCP (R78). -/
  | vrcp (t : Th) (w : W0) (ext : W64)
  /-- VRSQ (R78). -/
  | vrsq (t : Th) (w : W0) (ext : W64)
  /-- VEXP2 (R79). -/
  | vexp2 (t : Th) (w : W0) (ext : W64)
  /-- VEXP (R79). -/
  | vexp (t : Th) (w : W0) (ext : W64)
  /-- VRMAX (R141). -/
  | vrmax (t : Th) (w : W0) (ext : W64)
  /-- VRSUM (R141). -/
  | vrsum (t : Th) (w : W0) (ext : W64)
  /-- VCVT (R141). -/
  | vcvt (t : Th) (w : W0) (ext : W64)
  /-- VMOV (R141). -/
  | vmov (t : Th) (w : W0) (ext : W64)
  /-- FENCE (R146). -/
  | fence (t : Th) (w : W0)
  /-- FENCE_COMPLETE (R146). -/
  | fenceComplete (t : Th)
  /-- FENCE_TIMEOUT_EXPIRY (R165). -/
  | fenceTimeoutExpiry (t : Th)
  /-- BAR (R147). -/
  | bar (t : Th) (w : W0)
  /-- SEMSIG (R148). -/
  | semsig (t : Th) (w : W0)
  /-- SEMWAIT (R149). -/
  | semwait (t : Th) (w : W0)
  /-- SEMWAIT_TIMEOUT (R149). -/
  | semwaitTimeout (t : Th)
  /-- CWLD (R150). -/
  | cwld (t : Th) (w : W0)
  /-- CWST (R150). -/
  | cwst (t : Th) (w : W0)
  /-- DEFERRED_EXCEPTION_REPORT (R153). -/
  | deferredExceptionReport (t : Th) (e : Deferred)
  /-- CELL_INSTRUCTION_COMPLETE (R55). -/
  | cellInstructionComplete (b : Fin 100) (cell : Fin 17)
  /-- LOAD_DATA_RETURN (R158). -/
  | loadDataReturn (t : Th) (k : Nat)
  /-- TILE_LOAD_COMPLETE (R110). -/
  | tileLoadComplete (t : Th) (k : Nat)
  /-- STORE_COMPLETE (R158). -/
  | storeComplete (t : Th) (k : Nat)
  /-- RESERVATION_HOLD_EXPIRY (R170). -/
  | reservationHoldExpiry (b : Fin 100) (l : LineId)
  /-- TASK_PLACE (R101). -/
  | taskPlace (q : Fin 1024) (slot : W16)
  /-- TASK_START (R102). -/
  | taskStart (b : Fin 100)
  /-- TASK_END (R103). -/
  | taskEnd (b : Fin 100)
  /-- KERNEL_ABORT (R116). -/
  | kernelAbort (b : Fin 100)
  /-- KERNEL_ABORT_DONE (R116). -/
  | kernelAbortDone (b : Fin 100)
  /-- KLAUNCH_TLIMIT_EXPIRY (R115). -/
  | klaunchTlimitExpiry (q : Fin 1024) (slot : W16)
  /-- WRITE_COMBINE_DRAIN (R166). -/
  | writeCombineDrain (r : Fin 5) (n : Nat)
  /-- RDSHARED (R188). -/
  | rdshared (b : Fin 100) (l : LineId) (secs : BitVec 4)
  /-- RDOWN (R188). -/
  | rdown (b : Fin 100) (l : LineId) (secs : BitVec 4)
  /-- RDCURR (R188). -/
  | rdcurr (a : Agent) (l : LineId) (secs : BitVec 4)
  /-- WRLINE (R188). -/
  | wrline (b : Fin 100) (l : LineId) (mask : LineMask) (data : Line)
  /-- WRCOND (R188). -/
  | wrcond (t : Th) (l : LineId) (mask : LineMask) (data : Line)
  /-- WRPART (R188). -/
  | wrpart (r : Fin 5) (l : LineId) (mask : LineMask) (data : Line)
  /-- ZERO (R198). -/
  | zero (b : Fin 100) (l : LineId)
  /-- ATOM (R192). -/
  | atom (t : Th) (l : LineId) (off : Byte) (op : BitVec 4) (wide : Bool) (a : W64) (c : W64)
  /-- WBLINE (R188). -/
  | wbline (b : Fin 100) (l : LineId)
  /-- HOST_MEMRD (R196). -/
  | hostMemrd (hpa : W64) (m : HostMeta)
  /-- HOST_MEMWR (R189). -/
  | hostMemwr (hpa : W64) (mask : W64) (data : BitVec 512) (m : HostMeta)
  /-- REMOTE_READ (R27). -/
  | remoteRead (dev : W16) (off : W64) (len : Nat)
  /-- REMOTE_WRITE (R27). -/
  | remoteWrite (dev : W16) (off : W64) (bytes : List Byte)
  /-- REMOTE_ATOMIC (R27). -/
  | remoteAtomic (dev : W16) (off : W64) (op : BitVec 4) (wide : Bool) (a : W64) (c : W64)
  /-- SNPINV (R182). -/
  | snpinv (b : Fin 100) (l : LineId)
  /-- SNPFWD (R182). -/
  | snpfwd (b : Fin 100) (l : LineId) (dst : Fin 100)
  /-- RECALL (R189). -/
  | recall (b : Fin 100) (l : LineId) (toS : Bool)
  /-- SNPCUR (R188). -/
  | snpcur (b : Fin 100) (l : LineId)
  /-- HOST_SNPINV (R195). -/
  | hostSnpinv (hpa : W64)
  /-- HOST_SNPDATA (R195). -/
  | hostSnpdata (hpa : W64)
  /-- HOST_SNPCUR (R195). -/
  | hostSnpcur (hpa : W64)
  /-- INVACK (R187). -/
  | invack (b : Fin 100) (l : LineId)
  /-- RSPMISS (R182). -/
  | rspmiss (b : Fin 100) (l : LineId)
  /-- RSPPOISON (R204). -/
  | rsppoison (b : Fin 100) (l : LineId)
  /-- CMP (R187). -/
  | cmp (b : Fin 100) (l : LineId)
  /-- CMPFAIL (R188). -/
  | cmpfail (t : Th) (l : LineId)
  /-- CMPACK (R187). -/
  | cmpack (b : Fin 100) (l : LineId)
  /-- WBACK (R189). -/
  | wback (b : Fin 100) (l : LineId)
  /-- BIRSP (R196). -/
  | birsp (l : LineId) (st : BiState)
  /-- DATA (R187). -/
  | data (b : Fin 100) (l : LineId)
  /-- FWDDATA (R188). -/
  | fwddata (b : Fin 100) (l : LineId)
  /-- RECALLDATA (R189). -/
  | recalldata (b : Fin 100) (l : LineId)
  /-- HOST_GO (R195). -/
  | hostGo (hpa : W64) (st : GoState) (data : BitVec 512)
  /-- GO_WRITEPULL (R189). -/
  | goWritepull (hpa : W64)
  /-- GO_WRITEPULLDROP (R189). -/
  | goWritepulldrop (hpa : W64)
  /-- BI_SNOOP_TIMEOUT (R197). -/
  | biSnoopTimeout (l : LineId)
  /-- CCH_CTL_WRITE (R201). -/
  | cchCtlWrite (r : Fin 5) (v : W32)
  /-- CCH_WAYDIS_WRITE (R201). -/
  | cchWaydisWrite (r : Fin 5) (v : W32)
  /-- CCH_FLUSH (R201). -/
  | cchFlush (r : Fin 5)
  /-- CCH_FLUSH_INVALIDATE (R201). -/
  | cchFlushInvalidate (r : Fin 5)
  /-- CACHE_WALK_END (R201). -/
  | cacheWalkEnd (r : Fin 5)
  /-- RECLAMATION_WALK (R204). -/
  | reclamationWalk (r : Fin 5) (a : DeadAgent)
  /-- RDAT (R216). -/
  | rdat (mp : Fin 20) (tag : BitVec 10) (bad : BitVec 4)
  /-- WACK (R214). -/
  | wack (mp : Fin 20) (tag : BitVec 10)
  /-- MRSP (R214). -/
  | mrsp (mp : Fin 20) (tag : BitVec 10) (value : W64) (ok : Bool)
  /-- ALERT (R217). -/
  | alert (mp : Fin 20) (kind : AlertKind) (count : W32)
  /-- UCIE_MODULE_FAILURE (R213). -/
  | ucieModuleFailure (lg : Fin 10) (m : Fin 10)
  /-- MEM_RSP_TIMEOUT_EXPIRY (R217). -/
  | memRspTimeoutExpiry (mp : Fin 20) (tag : BitVec 10)
  /-- TRAINING_STEP_TIMEOUT (R227). -/
  | trainingStepTimeout (lg : Fin 10) (step : TrainStep)
  /-- MEMORY_MAP_BUILD (R218). -/
  | memoryMapBuild
  /-- HOST_LINK_TRAINING_COMPLETE (R231). -/
  | hostLinkTrainingComplete (rate : BitVec 3) (width : BitVec 5) (flit : BitVec 2)
  /-- LINK_RECOVERY (R258). -/
  | linkRecovery
  /-- LINK_DOWN (R259). -/
  | linkDown
  /-- HOT_RESET (R253). -/
  | hotReset
  /-- HOST_LOST_CLEAR (R262). -/
  | hostLostClear
  /-- CONFIG_REQUEST (R254). -/
  | configRequest (wr : Bool) (off : BitVec 12) (size : Nat) (data : W32)
  /-- HDM_DECODER_COMMIT (R242). -/
  | hdmDecoderCommit (n : Fin 4) (base : W64) (size : W64) (ways : BitVec 4) (gran : W16) (skip : W64)
  /-- BI_ENABLE_CLEAR (R245). -/
  | biEnableClear
  /-- CACHE_WRITEBACK_INVALIDATE (R247). -/
  | cacheWritebackInvalidate
  /-- CACHE_ENABLE_CLEAR (R247). -/
  | cacheEnableClear
  /-- INITIATE_FLR (R256). -/
  | initiateFlr
  /-- FLR_COMPLETE (R256). -/
  | flrComplete
  /-- D3HOT_ENTRY (R463). -/
  | d3hotEntry
  /-- D0_ENTRY (R463). -/
  | d0Entry
  /-- L0P_WINDOW_EXPIRY (R251). -/
  | l0pWindowExpiry (up : Byte) (down : Byte) (waited : Bool)
  /-- L1_IDLE_EXPIRY (R252). -/
  | l1IdleExpiry (accepted : Bool)
  /-- CXL_IO_COMPLETION (R250). -/
  | cxlIoCompletion (tag : BitVec 14) (ok : Bool) (data : List Byte)
  /-- COMPLETION_TIMEOUT (R232). -/
  | completionTimeout (tag : BitVec 14)
  /-- ATS_TRANSLATION_COMPLETION (R269). -/
  | atsTranslationCompletion (pasid : BitVec 20) (va : W64) (ok : Bool) (u : Bool) (rd : Bool) (wr : Bool) (log2 : Nat) (hpa : W64)
  /-- PAGE_REQUEST_RESPONSE (R273). -/
  | pageRequestResponse (idx : Fin 512) (code : PriCode)
  /-- PRI_TIMEOUT (R273). -/
  | priTimeout (idx : Fin 512)
  /-- ATS_INVALIDATE_REQUEST (R280). -/
  | atsInvalidateRequest (pasid : BitVec 20) (glob : Bool) (start : W64) (len : W64)
  /-- INVALIDATION_COMPLETE (R282). -/
  | invalidationComplete (ats : Bool)
  /-- XLT_INV_RANGE (R281). -/
  | xltInvRange (pasid : BitVec 20)
  /-- XLT_INV_PASID (R281). -/
  | xltInvPasid (pasid : BitVec 20)
  /-- XLT_INV_ALL (R281). -/
  | xltInvAll (pasid : BitVec 20)
  /-- XLT_GCTL_WRITE (R279). -/
  | xltGctlWrite (v : W64)
  /-- QUE_DOORBELL (R293). -/
  | queDoorbell (q : Fin 1024) (pi : W32)
  /-- DESCRIPTOR_FETCH (R294). -/
  | descriptorFetch (q : Fin 1024)
  /-- STALE_REREAD (R294). -/
  | staleReread (q : Fin 1024)
  /-- NOP_COMMAND (R289). -/
  | nopCommand (q : Fin 1024) (slot : W16)
  /-- KLAUNCH (R100). -/
  | klaunch (q : Fin 1024) (slot : W16)
  /-- COPY (R303). -/
  | copy (q : Fin 1024) (slot : W16)
  /-- COLL (R359). -/
  | coll (q : Fin 1024) (slot : W16)
  /-- SIGNAL (R296). -/
  | signal (q : Fin 1024) (slot : W16)
  /-- WAIT (R297). -/
  | wait (q : Fin 1024) (slot : W16)
  /-- WAIT_REREAD (R297). -/
  | waitReread (q : Fin 1024) (slot : W16)
  /-- WAIT_TIMEOUT (R297). -/
  | waitTimeout (q : Fin 1024) (slot : W16)
  /-- FLUSH (R299). -/
  | flush (q : Fin 1024) (slot : W16)
  /-- MODESET (R300). -/
  | modeset (q : Fin 1024) (slot : W16)
  /-- MODESET_ACKNOWLEDGE (R300). -/
  | modesetAcknowledge (b : Fin 100)
  /-- MODESET_COMMIT (R300). -/
  | modesetCommit
  /-- MODESET_ACK_TIMEOUT (R301). -/
  | modesetAckTimeout (b : Fin 100)
  /-- ZERO_RANGE (R303). -/
  | zeroRange (q : Fin 1024) (slot : W16)
  /-- SKIM_ARM (R372). -/
  | skimArm (q : Fin 1024) (slot : W16)
  /-- SKIM_DISARM (R372). -/
  | skimDisarm (q : Fin 1024) (slot : W16)
  /-- SKIM_REPLACE (R392). -/
  | skimReplace (q : Fin 1024) (slot : W16)
  /-- COMMAND_COMPLETION (R291). -/
  | commandCompletion (q : Fin 1024) (slot : W16)
  /-- COPY_PIECE_COMPLETE (R305). -/
  | copyPieceComplete (e : Fin 16)
  /-- QUE_CTL_ENABLE (R302). -/
  | queCtlEnable (q : Fin 1024)
  /-- QUE_CTL_QUIESCE (R302). -/
  | queCtlQuiesce (q : Fin 1024)
  /-- QUE_CTL_ABORT (R302). -/
  | queCtlAbort (q : Fin 1024)
  /-- QUE_CTL_RESET (R302). -/
  | queCtlReset (q : Fin 1024)
  /-- QUIESCE_DRAIN_COMPLETE (R302). -/
  | quiesceDrainComplete (q : Fin 1024)
  /-- FRAME_RECEIVE (R312). -/
  | frameReceive (ifc : Fin 20) (bytes : List Byte) (fcsOk : Bool)
  /-- UMT_WRITE (R327). -/
  | umtWrite (p : Pkt)
  /-- UMT_READ_REQ (R327). -/
  | umtReadReq (p : Pkt)
  /-- UMT_READ_RESP (R327). -/
  | umtReadResp (p : Pkt)
  /-- UMT_SEND (R327). -/
  | umtSend (p : Pkt)
  /-- UMT_ATOMIC (R331). -/
  | umtAtomic (p : Pkt)
  /-- UMT_ATOMIC_RESP (R327). -/
  | umtAtomicResp (p : Pkt)
  /-- UMT_NOTIFY (R330). -/
  | umtNotify (p : Pkt)
  /-- UMT_ACK (R336). -/
  | umtAck (p : Pkt)
  /-- CLAIM (R360). -/
  | claim (p : Pkt)
  /-- CONTRIB (R361). -/
  | contrib (p : Pkt)
  /-- RESULT (R363). -/
  | result (p : Pkt)
  /-- DONE (R361). -/
  | done (p : Pkt)
  /-- STAGE (R362). -/
  | stage (p : Pkt)
  /-- SKIM_FRAME_TRIGGER (R377). -/
  | skimFrameTrigger (lane : Fin 16) (ifc : Fin 20) (bytes : List Byte) (stamp : W64) (fcsOk : Bool)
  /-- FAULT_SOURCE_CLEARED (R405). -/
  | faultSourceCleared (src : Src)
  /-- ACK_DELAY_EXPIRY (R335). -/
  | ackDelayExpiry (qp : Fin 262144)
  /-- RETRANSMIT_TIMER_EXPIRY (R339). -/
  | retransmitTimerExpiry (qp : Fin 262144)
  /-- RNR_RETRY_TIMER (R339). -/
  | rnrRetryTimer (qp : Fin 262144)
  /-- PATH_PENALTY_EXPIRY (R337). -/
  | pathPenaltyExpiry (qp : Fin 262144) (path : BitVec 6)
  /-- PACING_TIMER (R341). -/
  | pacingTimer (qp : Fin 262144)
  /-- SEND_RING_DOORBELL (R321). -/
  | sendRingDoorbell (qp : Fin 262144) (pi : W16)
  /-- RECEIVE_RING_DOORBELL (R323). -/
  | receiveRingDoorbell (qp : Fin 262144) (pi : W16)
  /-- WR_WRITE (R327). -/
  | wrWrite (qp : Fin 262144) (slot : W16)
  /-- WR_WRITE_NOTIFY (R327). -/
  | wrWriteNotify (qp : Fin 262144) (slot : W16)
  /-- WR_READ (R327). -/
  | wrRead (qp : Fin 262144) (slot : W16)
  /-- WR_SEND (R327). -/
  | wrSend (qp : Fin 262144) (slot : W16)
  /-- WR_ATOMIC (R327). -/
  | wrAtomic (qp : Fin 262144) (slot : W16)
  /-- WR_NOTIFY (R327). -/
  | wrNotify (qp : Fin 262144) (slot : W16)
  /-- QP_CONTEXT_FILL (R318). -/
  | qpContextFill (qp : Fin 262144)
  /-- NET_IQP_RESET (R345). -/
  | netIqpReset (dev : W16)
  /-- NET_GCTL_WRITE (R344). -/
  | netGctlWrite (v : W64)
  /-- PORT_MODE_WRITE (R308). -/
  | portModeWrite (p : Fin 10) (mode : BitVec 2)
  /-- WINDOW_WRITE (R326). -/
  | windowWrite (n : Byte) (base : W64) (len : W64) (src : W32)
  /-- WINDOW_DRAIN_COMPLETE (R326). -/
  | windowDrainComplete
  /-- INTERFACE_DOWN (R333). -/
  | interfaceDown (ifc : Fin 20)
  /-- INTERFACE_UP (R308). -/
  | interfaceUp (ifc : Fin 20)
  /-- COLLECTIVE_TIMEOUT (R366). -/
  | collectiveTimeout (r : Fin 5) (group : BitVec 12) (seq : W16)
  /-- RESULT_REPAIR_TIMER (R364). -/
  | resultRepairTimer (r : Fin 5) (group : BitVec 12) (seq : W16) (chunk : Nat)
  /-- SKIM_FCS_CHECK (R375). -/
  | skimFcsCheck (lane : Fin 16) (seq : W64) (ok : Bool)
  /-- SKIM_SCHEDULE_START (R377). -/
  | skimScheduleStart (lane : Fin 16) (seq : W64) (partner : Bool)
  /-- SKIM_SCHEDULE_COMPLETE (R389). -/
  | skimScheduleComplete (lane : Fin 16) (seq : W64) (partner : Bool)
  /-- SKIM_DEADLINE (R386). -/
  | skimDeadline (lane : Fin 16) (seq : W64)
  /-- SKIM_REPLY_SENT (R385). -/
  | skimReplySent (lane : Fin 16) (seq : W64) (stamp : W64)
  /-- SKIM_IMAGE_LOAD_COMPLETE (R372). -/
  | skimImageLoadComplete (lane : Fin 16)
  /-- SKIM_CELL_RELOAD (R381). -/
  | skimCellReload (b : Fin 100)
  /-- TIMESTAMP_CAPTURE (R393). -/
  | timestampCapture
  /-- FAULT_SOURCE_EVENT (R398). -/
  | faultSourceEvent (src : Src) (rails : BitVec 2) (oclk : W64) (detail : W64)
  /-- GRACE_TIMER_EXPIRY (R405). -/
  | graceTimerExpiry (src : Src)
  /-- HEARTBEAT_TIMEOUT (R417). -/
  | heartbeatTimeout
  /-- LOCKUP_TIMEOUT (R417). -/
  | lockupTimeout
  /-- SNAG_RECORD_WRITE (R414). -/
  | snagRecordWrite
  /-- SNAG_ENABLE (R414). -/
  | snagEnable (v : W32)
  /-- SNAG_CI_WRITE (R416). -/
  | snagCiWrite (ci : BitVec 20)
  /-- MAKE_GOOD_TEST_COMPLETE (R413). -/
  | makeGoodTestComplete (u : DustUnit) (passed : Bool) (step : Byte) (bad : List DustUnit)
  /-- MAILBOX_DOORBELL (R425). -/
  | mailboxDoorbell (mb : Bool)
  /-- BACKGROUND_COMMAND_END (R426). -/
  | backgroundCommandEnd
  /-- INFO (R418). -/
  | info (mb : Bool)
  /-- FW_TRANSFER (R437). -/
  | fwTransfer (mb : Bool)
  /-- FW_START (R438). -/
  | fwStart (mb : Bool)
  /-- FW_STATUS (R430). -/
  | fwStatus (mb : Bool)
  /-- QUEUE_CREATE (R430). -/
  | queueCreate (mb : Bool)
  /-- QUEUE_ENABLE (R302). -/
  | queueEnable (mb : Bool)
  /-- QUEUE_QUIESCE (R302). -/
  | queueQuiesce (mb : Bool)
  /-- QUEUE_ABORT (R302). -/
  | queueAbort (mb : Bool)
  /-- QUEUE_RESET (R302). -/
  | queueReset (mb : Bool)
  /-- QUEUE_QUERY (R430). -/
  | queueQuery (mb : Bool)
  /-- POWER_LIMIT_SET (R460). -/
  | powerLimitSet (mb : Bool)
  /-- POWER_QUERY (R478). -/
  | powerQuery (mb : Bool)
  /-- DOMAIN_SET (R450). -/
  | domainSet (mb : Bool)
  /-- WARM_RESET (R430). -/
  | warmReset (mb : Bool)
  /-- MODE_QUERY (R478). -/
  | modeQuery (mb : Bool)
  /-- QP_CREATE (R324). -/
  | qpCreate (mb : Bool)
  /-- QP_MODIFY (R324). -/
  | qpModify (mb : Bool)
  /-- QP_DESTROY (R324). -/
  | qpDestroy (mb : Bool)
  /-- QP_QUERY (R324). -/
  | qpQuery (mb : Bool)
  /-- WINDOW_SET (R326). -/
  | windowSet (mb : Bool)
  /-- PORT_MODE_SET (R488). -/
  | portModeSet (mb : Bool)
  /-- IQP_RESET (R345). -/
  | iqpReset (mb : Bool)
  /-- GROUP_CREATE (R434). -/
  | groupCreate (mb : Bool)
  /-- GROUP_DESTROY (R430). -/
  | groupDestroy (mb : Bool)
  /-- GROUP_QUERY (R430). -/
  | groupQuery (mb : Bool)
  /-- HAWK_QUERY (R430). -/
  | hawkQuery (mb : Bool)
  /-- LANE_QUERY (R395). -/
  | laneQuery (mb : Bool)
  /-- LANE_CHECK (R395). -/
  | laneCheck (mb : Bool)
  /-- DUST_SHEET (R410). -/
  | dustSheet (mb : Bool)
  /-- MAKE_GOOD (R412). -/
  | makeGood (mb : Bool)
  /-- FAULT_SNAPSHOT (R419). -/
  | faultSnapshot (mb : Bool)
  /-- SALVAGE_MODE (R418). -/
  | salvageMode (mb : Bool)
  /-- WARM_RESET_REQUEST (R418). -/
  | warmResetRequest (mb : Bool)
  /-- WARM_RESET_REQUEST_DELAY (R418). -/
  | warmResetRequestDelay
  /-- FAULT_INJECT (R432). -/
  | faultInject (mb : Bool)
  /-- FAULT_INJECT_END (R432). -/
  | faultInjectEnd (src : Src)
  /-- PRIMER_READ (R430). -/
  | primerRead (mb : Bool)
  /-- PRIMER_WRITE (R472). -/
  | primerWrite (mb : Bool)
  /-- CALIBRATION_READ (R430). -/
  | calibrationRead (mb : Bool)
  /-- CALIBRATION_WRITE (R473). -/
  | calibrationWrite (mb : Bool)
  /-- MODULE_INFO (R485). -/
  | moduleInfo (mb : Bool)
  /-- FUSE_READ (R481). -/
  | fuseRead (mb : Bool)
  /-- DEVNUM_SET (R433). -/
  | devnumSet (mb : Bool)
  /-- GLOBAL_MODE_SET (R279). -/
  | globalModeSet (mb : Bool)
  /-- MEMBER_SET (R430). -/
  | memberSet (mb : Bool)
  /-- XLT_QUERY (R430). -/
  | xltQuery (mb : Bool)
  /-- IDENTIFY_MEMORY_DEVICE (R430). -/
  | identifyMemoryDevice (mb : Bool)
  /-- GET_SUPPORTED_LOGS (R430). -/
  | getSupportedLogs (mb : Bool)
  /-- GET_LOG (R430). -/
  | getLog (mb : Bool)
  /-- GET_VERSION (R482). -/
  | getVersion (req : List Byte)
  /-- GET_CAPABILITIES (R482). -/
  | getCapabilities (req : List Byte)
  /-- NEGOTIATE_ALGORITHMS (R482). -/
  | negotiateAlgorithms (req : List Byte)
  /-- GET_DIGESTS (R482). -/
  | getDigests (req : List Byte)
  /-- GET_CERTIFICATE (R482). -/
  | getCertificate (req : List Byte)
  /-- CHALLENGE (R482). -/
  | challenge (req : List Byte)
  /-- GET_MEASUREMENTS (R483). -/
  | getMeasurements (req : List Byte)
  /-- EVENT_ARRIVAL (R441). -/
  | eventArrival (src : Fin 512)
  /-- EVT_ACK_WRITE (R441). -/
  | evtAckWrite (n : BitVec 7) (v : W32)
  /-- EVT_RAISE (R444). -/
  | evtRaise (v : W32)
  /-- EVT_PENDING_WRITE (R443). -/
  | evtPendingWrite (n : BitVec 3) (v : W64)
  /-- EVT_ENABLE_WRITE (R442). -/
  | evtEnableWrite (n : BitVec 3) (v : W64)
  /-- EVT_MASK_WRITE (R442). -/
  | evtMaskWrite (n : BitVec 3) (v : W64)
  /-- EVT_ROUTE_WRITE (R442). -/
  | evtRouteWrite (src : Fin 512) (v : W32)
  /-- DOMAIN_POWER_UP_COMPLETE (R453). -/
  | domainPowerUpComplete (d : Fin 50)
  /-- DOMAIN_DRAIN_COMPLETE (R451). -/
  | domainDrainComplete (d : Fin 50)
  /-- IDLE_GATING (R454). -/
  | idleGating (d : Fin 50)
  /-- POWER_CAP_STEP (R460). -/
  | powerCapStep (currents : List W16) (mv : W16)
  /-- THERMAL_STEP (R461). -/
  | thermalStep (raw : List W16)
  /-- DROOP_CROSSING (R462). -/
  | droopCrossing (d : Fin 50)
  /-- DROOP_RESPONSE_END (R462). -/
  | droopResponseEnd (d : Fin 50)
  /-- PLL_LOSS_OF_LOCK (R466). -/
  | pllLossOfLock (pll : Fin 7)
  /-- POWER_ON_RESET (R474). -/
  | powerOnReset (supply : Bool)
  /-- PD0_START (R467). -/
  | pd0Start (fuses : Fuses)
  /-- CONVENTIONAL_RESET (R476). -/
  | conventionalReset
  /-- CORE_START (R467). -/
  | coreStart
  /-- PRIMER_CHECK (R470). -/
  | primerCheck (answers : Bool)
  /-- DOMAIN_SEQUENCE_STEP (R467). -/
  | domainSequenceStep
  /-- WARM_RST_PIN (R498). -/
  | warmRstPin (low : Nat)
  /-- WARM_RST_PIN_RELEASE (R477). -/
  | warmRstPinRelease
  /-- WARM_RESET_DRAIN_DEADLINE (R475). -/
  | warmResetDrainDeadline
  /-- PWRGD_LOSS (R477). -/
  | pwrgdLoss
  /-- MODULE_PRESENT (R504). -/
  | modulePresent (p : Fin 10) (id : Option ModuleId)
  /-- MODULE_REMOVED (R504). -/
  | moduleRemoved (p : Fin 10)
  /-- MODULE_INTERRUPT (R488). -/
  | moduleInterrupt (p : Fin 10) (lanes : BitVec 4)
  /-- LASER_HOURS_UPDATE (R487). -/
  | laserHoursUpdate (p : Fin 10) (hours : W32)
  /-- LIFE_RECORD_WRITE (R486). -/
  | lifeRecordWrite
  /-- BOARD_BUS_POINTER_WRITE (R502). -/
  | boardBusPointerWrite (addr : BitVec 7) (ptr : W16)
  /-- BOARD_BUS_READ (R502). -/
  | boardBusRead (n : Nat)
  /-- TAP_RESET (R506). -/
  | tapReset
  /-- BYPASS (R506). -/
  | bypass
  /-- IDCODE (R506). -/
  | idcode
  /-- SAMPLE_PRELOAD (R506). -/
  | samplePreload
  /-- EXTEST (R507). -/
  | extest
  /-- CLAMP (R507). -/
  | clamp
  /-- HIGHZ (R507). -/
  | highz
  /-- FIRMWARE_HEARTBEAT (R439). -/
  | firmwareHeartbeat
  /-- WARM_RESET_ABORT_DEADLINE (R430). -/
  | warmResetAbortDeadline
  /-- SKIM_DISARM_COMPLETE (R372). -/
  | skimDisarmComplete (lane : Fin 16)
  /-- HOME_RESERVATION_HOLD_EXPIRY (R199). -/
  | homeReservationHoldExpiry (r : Fin 5) (l : LineId)
  deriving DecidableEq, Repr

end Sys2Proof
end

