-- ==== Sys2Proof/Decode.lean ====
section
/-! DEFINITION. The commands that a word spells by the bits of spec/opcode_table.json: no row of the table gives bits (every row's
field list is empty), so no word spells a command there. Beside it, the thread command that an instruction's words spell by
05_veltur_instructions.md R123, R126 to R134. -/
namespace Sys2Proof

/-- The command that the low nbits bits of w spell by the table: none, for no row gives bits. -/
def decodeTableWord (_nbits _w : Nat) : Option Instr := none

/-! ### The words of a thread's instructions (05_veltur_instructions.md R123, Table 5-4) -/

/-- The fields of the first word of an instruction, but OPC. -/
def firstWord (w : W64) : W0 :=
  { x := w.extractLsb' 38 26, c := w.extractLsb' 32 6, b := w.extractLsb' 26 6, a := w.extractLsb' 20 6, d := w.extractLsb' 14 6,
    pn := w.getLsbD 5, pe := w.getLsbD 4, pr := w.extractLsb' 1 3, l := w.getLsbD 0 }

/-- OPC of the first word; its bits 7 to 5 are the class. -/
def opcOf (w : W64) : Byte := w.extractLsb' 6 8

/-- Integer instructions (class 0; R127, Table 5-6). A reserved opcode spells the row that raises an illegal-instruction exception (R125). -/
def class0Word (t : Th) (opc : Byte) (w : W0) (ext : W64) : Instr :=
  match opc.toNat with
  | 0x00 => .add t w
  | 0x01 => .sub t w
  | 0x02 => .mul t w
  | 0x03 => .mulhs t w
  | 0x04 => .mulhu t w
  | 0x05 => .divs t w
  | 0x06 => .divu t w
  | 0x07 => .rems t w
  | 0x08 => .remu t w
  | 0x09 => .and t w
  | 0x0A => .or t w
  | 0x0B => .xor t w
  | 0x0C => .shl t w
  | 0x0D => .shr t w
  | 0x0E => .sar t w
  | 0x0F => .min t w
  | 0x10 => .max t w
  | 0x11 => .minu t w
  | 0x12 => .maxu t w
  | 0x13 => .icmp t w
  | 0x14 => .sel t w
  | 0x15 => .mov t w
  | 0x16 => .addi t w
  | 0x17 => .movi t w ext
  | 0x18 => .popc t w
  | 0x19 => .clz t w
  | 0x1A => .madd t w
  | 0x1B => .bfx t w
  | _ => .nop t w opc

/-- Scalar floating-point and predicate instructions (class 1; R128, Table 5-7). A reserved opcode spells the row that raises an illegal-instruction exception (R125). -/
def class1Word (t : Th) (opc : Byte) (w : W0) : Instr :=
  match opc.toNat with
  | 0x20 => .fadd t w
  | 0x21 => .fsub t w
  | 0x22 => .fmul t w
  | 0x23 => .ffma t w
  | 0x24 => .fdiv t w
  | 0x25 => .fsqrt t w
  | 0x26 => .fmin t w
  | 0x27 => .fmax t w
  | 0x28 => .fcmp t w
  | 0x29 => .fcvt t w
  | 0x2A => .fabs t w
  | 0x2B => .fneg t w
  | 0x2C => .icvtf t w
  | 0x2D => .fcvti t w
  | 0x30 => .pand t w
  | 0x31 => .por t w
  | 0x32 => .pxor t w
  | 0x33 => .pnot t w
  | 0x34 => .pmov t w
  | _ => .nop t w opc

/-- Control instructions (class 2; R130, Table 5-9). A reserved opcode spells the row that raises an illegal-instruction exception (R125). -/
def class2Word (t : Th) (opc : Byte) (w : W0) : Instr :=
  match opc.toNat with
  | 0x41 => .bra t w
  | 0x42 => .br t w
  | 0x43 => .call t w
  | 0x44 => .endThread t w
  | 0x45 => .trap t w
  | 0x46 => .eret t w
  | 0x47 => .rdsr t w
  | 0x48 => .wrsr t w
  | _ => .nop t w opc

/-- Scalar memory instructions (class 3; R131). A reserved opcode spells the row that raises an illegal-instruction exception (R125). -/
def class3Word (t : Th) (opc : Byte) (w : W0) : Instr :=
  match opc.toNat with
  | 0x60 => .ld t w
  | 0x61 => .st t w
  | 0x62 => .ldr t w
  | 0x63 => .stc t w
  | 0x64 => .amo t w
  | 0x65 => .zline t w
  | 0x66 => .pref t w
  | _ => .nop t w opc

/-- Tile instructions (class 4; R132, Table 5-10). A reserved opcode spells the row that raises an illegal-instruction exception (R125). -/
def class4Word (t : Th) (opc : Byte) (w : W0) (ext : W64) : Instr :=
  match opc.toNat with
  | 0x80 => .tld t w ext
  | 0x81 => .tst t w ext
  | 0x82 => .tpf t w ext
  | 0x83 => .tdset t w
  | 0x84 => .tdget t w
  | 0x85 => .tdadd t w
  | _ => .nop t w opc

/-- Tensor instructions (class 5; R132, Table 5-10). A reserved opcode spells the row that raises an illegal-instruction exception (R125). -/
def class5Word (t : Th) (opc : Byte) (w : W0) (ext : W64) : Instr :=
  match opc.toNat with
  | 0xA0 => .tmma t w ext
  | 0xA1 => .tattn t w
  | 0xA2 => .tseed t w
  | 0xA3 => .cwait t w
  | _ => .nop t w opc

/-- Vector instructions (class 6; R133, Table 5-11). A reserved opcode spells the row that raises an illegal-instruction exception (R125). -/
def class6Word (t : Th) (opc : Byte) (w : W0) (ext : W64) : Instr :=
  match opc.toNat with
  | 0xC0 => .vadd t w ext
  | 0xC1 => .vsub t w ext
  | 0xC2 => .vmul t w ext
  | 0xC3 => .vfma t w ext
  | 0xC4 => .vmin t w ext
  | 0xC5 => .vmax t w ext
  | 0xC6 => .vcmp t w ext
  | 0xC7 => .vabs t w ext
  | 0xC8 => .vneg t w ext
  | 0xC9 => .vscale t w ext
  | 0xCA => .vdiv t w ext
  | 0xCB => .vsqrt t w ext
  | 0xCC => .vrcp t w ext
  | 0xCD => .vrsq t w ext
  | 0xCE => .vexp2 t w ext
  | 0xCF => .vexp t w ext
  | 0xD0 => .vrmax t w ext
  | 0xD1 => .vrsum t w ext
  | 0xD2 => .vcvt t w ext
  | 0xD3 => .vmov t w ext
  | _ => .nop t w opc

/-- Synchronisation and control-window instructions (class 7; R134). A reserved opcode spells the row that raises an illegal-instruction exception (R125). -/
def class7Word (t : Th) (opc : Byte) (w : W0) : Instr :=
  match opc.toNat with
  | 0xE0 => .fence t w
  | 0xE1 => .bar t w
  | 0xE2 => .semsig t w
  | 0xE3 => .semwait t w
  | 0xE4 => .cwld t w
  | 0xE5 => .cwst t w
  | _ => .nop t w opc

/-- The command that an instruction of thread t spells: w is its first word, ext the second of a two-word instruction. -/
def threadWord (t : Th) (w ext : W64) : Instr :=
  let f := firstWord w
  let opc := opcOf w
  match (opc >>> 5).toNat with
  | 0 => class0Word t opc f ext
  | 1 => class1Word t opc f
  | 2 => class2Word t opc f
  | 3 => class3Word t opc f
  | 4 => class4Word t opc f ext
  | 5 => class5Word t opc f ext
  | 6 => class6Word t opc f ext
  | _ => class7Word t opc f

end Sys2Proof
end

