-- ==== Sys2Proof/Config.lean ====
section
/-! DEFINITION. What the spec leaves to one part of hardware: the free values, which have no body, so that nothing can
evaluate them or rest on them (notes/assumptions 4, 5, 9 and 10). -/
namespace Sys2Proof

/-- A free value: one of a sequence that the step takes by number (State.free); nothing constrains it. -/
opaque Config.freeValue : Nat → BitVec 64

/-- A byte of a memory whose contents are not known: a function of the era of the memory and the address. -/
opaque Config.freeByte : Nat → Nat → BitVec 8

/-- The bits of VRCP beyond its exact cases (03_tensor_cells.md R78). -/
opaque Config.vrcp : BitVec 32 → BitVec 32
/-- The bits of VRSQ beyond its exact cases (03_tensor_cells.md R78). -/
opaque Config.vrsq : BitVec 32 → BitVec 32
/-- The steps of VEXP2 beyond its exact cases: the operands, numbered in their order, at which its result's code goes up by one. Every
function of the operand that never decreases is one of these (03_tensor_cells.md R79; notes/assumptions 9). -/
opaque Config.vexp2 : List Nat
/-- The steps of VEXP beyond its exact case, likewise (03_tensor_cells.md R79; notes/assumptions 9). -/
opaque Config.vexp : List Nat

/-- A byte of the device's signature over a message, with its fused key, which nothing reads
(18_identity_and_optical_modules.md R482). -/
opaque Config.signature : List (BitVec 8) → Nat → BitVec 8
/-- The root certificate and the intermediate one of slot 0 (18_identity_and_optical_modules.md R482). -/
opaque Config.rootCert : List (BitVec 8)
opaque Config.midCert : List (BitVec 8)
/-- The certificate of the device with a serial number (18_identity_and_optical_modules.md R482). -/
opaque Config.deviceCert : BitVec 64 → List (BitVec 8)
/-- Bytes of SPDM answers that the manual does not give: timing and buffer sizes, the value types of the two measurements, the
code of the error that answers GET_MEASUREMENTS before the firmware runs (18_identity_and_optical_modules.md R482 to R484). -/
opaque Config.spdmByte : Nat → BitVec 8
/-- Power-management and layout bytes of the configuration space that the manual leaves to the PCI Express
specification (09_host_port.md R234, R235), by offset. -/
opaque Config.configByte : Nat → BitVec 8

/-- Whether a primer's record 2 puts management bus 0 or 1 of the modules at 400 kHz: the manual does not say where the record says so
(19_die_ports_and_integration.md R503; notes/assumptions 68). -/
opaque Config.busSlow : List (BitVec 8) → Nat → Bool

/-- The words of the table access response for an entry of the coherent device attribute table, which the manual does not give (09_host_port.md
R233; notes/assumptions 13). -/
opaque Config.cdat : Nat → List (BitVec 32)

end Sys2Proof
end

