-- ==== Sys2Proof/Machine/State.lean ====
section
/-! DEFINITION. The state of the block: every register, store, buffer, queue, mode and pin that the spec gives it, as plain
data in one record per part of the die, and the state right after reset. Numbered things stand in sparse tables (Tab)
whose unlisted entries hold the reset value; INVENTORY.md gives each with its rule. -/
namespace Sys2Proof.Machine

/-- A memory: its cells in canonical form (addresses rise, and in era 0 no cell holds 0), what an unlisted byte reads as
(0 in era 0, a free value in a later era, notes/assumptions 3 and 4), and which units of it are poisoned. -/
structure Memory where
  era : Nat
  cells : List Host.Cell
  pois : Tab Bool
  deriving DecidableEq, Repr

/-- An empty memory of a known content. -/
def Memory.empty : Memory := { era := 0, cells := [], pois := [] }

/-- Where an access goes once its address is resolved (10_translation.md R266). -/
inductive Target where
  | dev (off : Nat)
  | host (hpa : Nat)
  | remote (dev : W16) (off : Nat)
  | bstore (off : Nat)
  deriving DecidableEq, Repr

/-- A dead target's kind and number (06_memory_ordering.md R172, Table 15-6). -/
inductive DeadTarget where
  | port (mp : Nat)
  | region (r : Nat)
  | device (n : W16)
  deriving DecidableEq, Repr

/-- What an outstanding access of a thread does when it is performed. -/
inductive AccKind where
  | ld (d : BitVec 6) (sx : Bool)
  | ldr (d : BitVec 6) (sx : Bool)
  | st
  | stc (d : BitVec 6)
  | amo (d : BitVec 6) (op : BitVec 4) (wide : Bool) (c : W64)
  | sig (isMax : Bool)
  | zline
  | tld (ext : W64) (boff : W64) (soff : W64) (desc : BitVec 512)
  | tst (ext : W64) (desc : BitVec 512) (first : Nat) (stop : Nat)
  deriving DecidableEq, Repr

/-- An access that a thread has issued and that is not complete (06_memory_ordering.md R158). data is what it
stores, res what it brings back; asked is the request that has gone to a home for it, homed that the home has served it, and
performed that it has taken effect and its answer has come; left counts the answers that another device still
owes it, buf holds the bytes of a tile that have come from there, by device × 2^46 + offset, bad
tells that one of them was refused or lost, and pages holds the targets of the pages of a tile; want names the lines of a tile
that no home has read yet, and got holds those that have been, with their poisoned sectors. -/
structure Acc where
  id : Nat
  ia : W64
  kind : AccKind
  va : W64
  tgt : Target
  size : Nat
  data : W64
  res : W64
  asked : Option Instr
  homed : Bool
  performed : Bool
  refused : Bool
  left : Nat
  buf : Tab Byte
  bad : Bool
  pages : List (Nat × Target)
  want : List LineId
  got : List (LineId × Line × BitVec 4)
  deriving DecidableEq, Repr

/-- The atomic that a SEMSIG performs once its release fence is complete (05_veltur_instructions.md R148). -/
structure SemSig where
  va : W64
  tgt : Target
  isMax : Bool
  value : W64
  deriving DecidableEq, Repr

/-- A fence that waits (05_veltur_instructions.md R146, 06_memory_ordering.md R162): its scope, its kind (0 full, 1 acquire,
2 release), and the accesses that it waits for. -/
structure Fence where
  ia : W64
  scope : BitVec 2
  kind : BitVec 2
  covers : List Nat
  sem : Option SemSig
  deriving DecidableEq, Repr

/-- A semaphore wait (05_veltur_instructions.md R149). -/
structure SemWait where
  ia : W64
  va : W64
  tgt : Target
  cond : BitVec 2
  value : W64
  d : BitVec 6
  scope : BitVec 2
  last : W64
  asked : Bool
  got : Bool
  deriving DecidableEq, Repr

/-- A precise exception that waits with its thread for a snag record slot (04_blocks_and_threads.md R91). -/
structure Ending where
  ecode : Byte
  ia : W64
  sts3 : W64
  deriving DecidableEq, Repr

/-- What a thread is doing (04_blocks_and_threads.md R89). -/
inductive TStat where
  | off
  | ready
  | barrier (n : BitVec 4)
  | semwait
  | pageWait
  | snagWait
  | ending
  | ended
  deriving DecidableEq, Repr

/-- One hardware thread (05_veltur_instructions.md R119 to R121); tries and ftries count the page requests of its instruction's data access and of its
fetch (10_translation.md R273). -/
structure Thread where
  stat : TStat
  pc : W64
  g : Tab W64
  p : Byte
  td : Tab (BitVec 512)
  fflags : BitVec 5
  sts0 : W64
  sts1 : W64
  sts2 : W64
  sts3 : W64
  tha : W64
  cycles : W64
  accs : List Acc
  nextId : Nat
  fences : List Fence
  sem : Option SemWait
  deferred : List Deferred
  resv : Option Target
  recorded : List DeadTarget
  tries : Nat
  ftries : Nat
  ends : Option Ending
  deriving DecidableEq, Repr

/-- A thread before any task (every register 0, 04_blocks_and_threads.md R102). -/
def Thread.init : Thread :=
  { stat := .off, pc := 0, g := [], p := 0, td := [], fflags := 0, sts0 := 0, sts1 := 0, sts2 := 0, sts3 := 0, tha := 0,
    cycles := 0, accs := [], nextId := 0, fences := [], sem := none, deferred := [], resv := none, recorded := [],
    tries := 0, ftries := 0, ends := none }

/-- What an instruction delivered to a cell computes (05_veltur_instructions.md R132, R133). -/
inductive VOp where
  | add | sub | mul | fma | min | max | cmp | abs | neg | scale | div | sqrt | rcp | rsq | exp2 | exp
  | rmax | rsum | cvt | mov
  deriving DecidableEq, Repr

/-- An instruction in a cell's queue. Tile loads and stores stand in it as
markers of the rows that they will write or read: the tile's, and those of its scales. -/
inductive CellOp where
  | tmma (ext : W64)
  | tattn (x : BitVec 26)
  | tseed (seed : W32)
  | vec (v : VOp) (ext : W64)
  | load (id : Nat) (first : Nat) (rows : Nat) (sfirst : Nat) (srows : Nat)
  | store (id : Nat) (first : Nat) (rows : Nat) (sfirst : Nat) (srows : Nat)
  deriving DecidableEq, Repr

/-- A delivered cell instruction: its thread, its address and the logical cell it named. -/
structure CellEntry where
  t : Th
  ia : W64
  logical : BitVec 4
  op : CellOp
  deriving DecidableEq, Repr

/-- One physical cell (03_tensor_cells.md Table 3-1, 04_blocks_and_threads.md Table 4-10). Rows 0 to 511 are the operand
store, 512 to 575 buffer 0 and 576 to 639 buffer 1; good has one bit for each 64-bit word of a row, set when the word is not
poisoned: a cell whose domain has come up holds only poisoned words (17_power_clocks_startup.md R453). seed and gens hold
the lane generators: a lane that is not listed stands where seed put it. -/
structure Cell where
  corrected : W16
  logical : BitVec 5
  state : BitVec 2
  rows : Tab Line
  good : Tab W32
  seed : W32
  gens : Tab W32
  queue : List CellEntry
  deriving DecidableEq, Repr

/-- Physical cell p of a block whose spare is unused (04_blocks_and_threads.md Table 4-10). -/
def Cell.init (p : Nat) : Cell :=
  { corrected := 0, logical := if p < 16 then BitVec.ofNat 5 p else 31, state := if p < 16 then 0 else 1,
    rows := [], good := [], seed := 0, gens := [], queue := [] }

/-- BLK_STATUS.STATE (04_blocks_and_threads.md Table 4-7). -/
inductive BlkState where
  | off | idle | running | aborting | dustsheet | skim
  deriving DecidableEq, Repr

/-- The task that a block runs (04_blocks_and_threads.md R88, R100). -/
structure Task where
  q : Nat
  slot : Nat
  x : W16
  y : W16
  z : W16
  threads : Nat
  pasid : BitVec 20
  prog : W64
  args : W64
  cwmask : Byte
  clear : Bool
  started : Bool
  deriving DecidableEq, Repr

/-- A block barrier's generation (05_veltur_instructions.md R147). -/
structure Barrier where
  count : Nat
  waiting : List Nat
  deriving DecidableEq, Repr

/-- One block (04_blocks_and_threads.md R118). mapSpare and mapLost are the mapping that the running task keeps (R97);
lostNow the logical cells that fail for it; spareHad the cell that the spare covered when it failed; back the cells that MAKE_GOOD returned and that the next task start maps. -/
structure Block where
  state : BlkState
  cellsN : Nat
  spareFused : Bool
  spareUsed : Bool
  spareFor : BitVec 5
  spareHad : BitVec 5
  lost : BitVec 5
  lostStores : W32
  lastPasid : Option (BitVec 20)
  task : Option Task
  mapSpare : BitVec 5
  mapLost : BitVec 5
  lostNow : List Nat
  back : List Nat
  bars : Tab Barrier
  store : Memory
  cells : Tab Cell
  aclk : Nat
  mode : Byte
  reserved : Option Nat
  deriving DecidableEq, Repr

/-- A block at reset (04_blocks_and_threads.md Tables 4-7 to 4-9). -/
def Block.init : Block :=
  { state := .idle, cellsN := 16, spareFused := false, spareUsed := false, spareFor := 31, spareHad := 31, lost := 31, lostStores := 0,
    lastPasid := none, task := none, mapSpare := 31, mapLost := 31, lostNow := [], back := [], bars := [],
    store := Memory.empty, cells := [], aclk := 0, mode := 0x80, reserved := none }

/-- A kernel: the command that launched it, its grid, and how far its tasks have come (04_blocks_and_threads.md R100). -/
structure Kernel where
  q : Nat
  slot : Nat
  prog : W64
  args : W64
  gx : Nat
  gy : Nat
  gz : Nat
  threads : Nat
  rmask : BitVec 5
  cwmask : Byte
  tlimit : W32
  pasid : BitVec 20
  mode : Option Byte
  next : Nat
  blocks : List Nat
  aborted : Bool
  status : Option Byte
  info : W64
  lostBlocks : Nat
  deriving DecidableEq, Repr

/-- The blocks, threads and kernels. ghosts names the dead targets already recorded for threads of ended tasks, by block ×
128 + thread (06_memory_ordering.md R173). -/
structure Blocks where
  blk : Tab Block
  thr : Tab Thread
  kernels : List Kernel
  prevRegion : Nat
  ghosts : List (Nat × DeadTarget)
  deriving DecidableEq, Repr

/-- A line in a block cache (07_caches_and_coherence.md R180): valid sectors, those held in E or M, those in M, whether it is
held in F, its data and way, and the atomics done on it since the grant (R191). -/
structure BLine where
  valid : BitVec 4
  excl : BitVec 4
  modi : BitVec 4
  fwd : Bool
  data : Line
  pois : BitVec 4
  way : Nat
  atoms : Nat
  deriving DecidableEq, Repr

/-- A request of a block cache that is not complete (07_caches_and_coherence.md R185), with the kernel of a task that has ended since
it stored. -/
structure BReq where
  line : Nat
  req : Instr
  kern : Option (Nat × Nat) := none
  deriving DecidableEq, Repr

/-- One block cache (07_caches_and_coherence.md R177, R185, R190, R202). -/
structure BCache where
  lines : Tab (Option BLine)
  tree : Tab Byte
  pred : Tab (BitVec 2)
  out : List BReq
  wb : List (Nat × BLine)
  held : List (Nat × Instr)
  retired : List (Nat × Nat)
  once : List (Nat × Nat)
  ways : Byte
  deriving DecidableEq, Repr

/-- A block cache at reset. -/
def BCache.init : BCache :=
  { lines := [], tree := [], pred := [], out := [], wb := [], held := [], retired := [], once := [], ways := 0 }

/-- A region-cache tag with its directory entry and data (07_caches_and_coherence.md R181). A device-memory line uses the low
100 bits of pres; sector s of a host line uses bits 100s + 99 to 100s. excl is the sectors of a host line held in E
or M; the dirty ones are in M. -/
structure RLine where
  host : Bool
  dirOnly : Bool
  way : Nat
  valid : BitVec 4
  excl : BitVec 4
  dirty : BitVec 4
  pois : BitVec 4
  pres : BitVec 400
  own : Option Nat
  fwdr : Option Nat
  hst : BitVec 2
  data : Line
  deriving DecidableEq, Repr

/-- Who made a store: its block and thread, the queue command of its kernel, and whether the task that made it still runs. -/
structure Storer where
  b : Nat
  t : Nat
  kern : Option (Nat × Nat)
  live : Bool
  deriving DecidableEq, Repr

/-- A packet that a queue pair has sent and that is not acknowledged (12_umakin_transport.md R334, R337): what it carries and
whose it is; a drain names each storer with the first address that it wrote there. -/
inductive Own where
  | acc (b : Nat) (t : Nat) (id : Nat)
  | look (b : Nat) (t : Nat)
  | drain (ths : List (Storer × W64))
  | piece (e : Nat) (q : Nat) (slot : Nat) (off : Nat)
  | wr (slot : Nat)
  | coll (group : Nat) (seq : Nat) (what : Nat)
  | sem (q : Nat) (slot : Nat)
  | reply
  deriving DecidableEq, Repr

/-- What one of the device's own units does at a line's home (01_architecture.md R27): it reads n bytes from byte off, for place at' of
what it collects; adds to a semaphore, or gives it the unsigned maximum (11_queues_and_copy.md R296); or writes. -/
inductive UnitOp where
  | read (at' : Nat) (off : Nat) (n : Nat)
  | sem (off : Nat) (isMax : Bool) (v : W64)
  | write (mask : LineMask) (d : Line) (bad : BitVec 4)
  deriving DecidableEq, Repr

/-- A request at a home: a message of Table 7-4; an access of an engine of the device to sectors of the line, named by the
command that makes it; an access of one of the device's units, which is told of its end; a write that one has posted; sectors that a tile prefetch brings into the region cache;
the home's own eviction of a tag; or its own writing back of a line (07_caches_and_coherence.md R178, R186, R201;
05_veltur_instructions.md R137). -/
inductive HReq where
  | msg (c : Instr)
  | eng (c : Instr) (secs : BitVec 4) (wr : Bool)
  | unit (own : Own) (op : UnitOp)
  | post (mask : LineMask) (d : Line) (bad : BitVec 4)
  | fetch (secs : BitVec 4)
  | evict
  | clean
  deriving DecidableEq, Repr

/-- What a home transaction still waits for (07_caches_and_coherence.md R187): responses of blocks, of the host and of a stack,
the requester's CmpAck, the command of an engine that the line is kept for, a back-invalidate snoop that may be sent (R196),
a way that the line of key k still holds (R178), and the end of a young reservation (R199). -/
inductive Expect where
  | inv (b : Nat)
  | recall (b : Nat)
  | cur (b : Nat)
  | fwd (b : Nat)
  | host
  | go (sector : Nat)
  | stack (mp : Nat) (id : Nat)
  | ack (b : Nat)
  | engine
  | slot
  | room (k : Nat)
  | young
  deriving DecidableEq, Repr

/-- A transaction of a home on a line, and the requests that queue behind it (07_caches_and_coherence.md R187). waits holds the
responses that it waits for: first those that clear its holders, and once asked is true those that bring its data; served tells
that it has had its effect. -/
structure Txn where
  line : Nat
  req : HReq
  waits : List Expect
  asked : Bool
  served : Bool
  fwdData : Option Line
  queued : List HReq
  deriving DecidableEq, Repr

/-- An entry of a home's reservation table, oldest first, with the writes that the home holds while it is young
(07_caches_and_coherence.md R199). -/
structure HomeResv where
  b : Nat
  t : Nat
  sector : Target
  young : Bool
  held : List Instr
  deriving DecidableEq, Repr

/-- One region cache (07_caches_and_coherence.md R199 to R207): hsnp holds the host's snoops that wait for blocks (R195), late
the lines whose back-invalidate snoop waits for one of 64 to end (R196), and reclaims the dead agents whose walk has not come
(R204). -/
structure RCache where
  lines : Tab (Option RLine)
  treeData : Tab W16
  treeDir : Tab Byte
  txns : List Txn
  hsnp : List Txn
  evict : List (Nat × BitVec 512)
  bi : List Nat
  late : List Nat
  resv : List HomeResv
  retired : List (Nat × Nat)
  once : List (Nat × Nat)
  ctl : W32
  latched : Option W32
  waydis : W32
  wayfail : W32
  hlost : W32
  poisoned : W32
  walk : Bool
  reclaims : List DeadAgent
  hostDead : Bool
  deriving DecidableEq, Repr

/-- A region cache at reset (07_caches_and_coherence.md Tables 7-10 to 7-15). -/
def RCache.init : RCache :=
  { lines := [], treeData := [], treeDir := [], txns := [], hsnp := [], evict := [], bi := [], late := [], resv := [], retired := [], once := [],
    ctl := 0x300, latched := none, waydis := 0, wayfail := 0, hlost := 0, poisoned := 0, walk := false,
    reclaims := [], hostDead := false }

/-- A line of a region's write-combining buffers (06_memory_ordering.md R166): where it goes, which bytes are written, and
whose store wrote each; out tells that its drain has started. -/
structure WLine where
  tgt : Target
  mask : LineMask
  data : Line
  pois : BitVec 4
  who : List (Nat × Storer)
  out : Bool
  deriving DecidableEq, Repr

/-- The caches, the homes and the write-combining buffers. -/
structure Coh where
  bc : Tab BCache
  rc : Tab RCache
  wc : Tab (List WLine)
  deriving DecidableEq, Repr

/-- A request to a stack (08_memory_stacks.md Table 8-2): RD64 of a sector or RD256 of a line, WR of the bytes, data and poison of
a line, or a maintenance read or write. -/
inductive StackOp where
  | rd64 (line : Nat) (sector : Nat)
  | rd256 (line : Nat)
  | wr (line : Nat) (mask : LineMask) (pois : BitVec 4) (data : Line)
  | mnt (reg : Nat) (wr : Bool) (value : W64)
  deriving DecidableEq, Repr

/-- An outstanding stack request (08_memory_stacks.md R213, R214, R217): its number in the order of first issue of its link
group, the tag that it carries, and whether any response has come over the link group since it was reissued. -/
structure StackReq where
  id : Nat
  tag : Nat
  op : StackOp
  modl : Nat
  reissued : Bool
  heard : Bool
  deriving DecidableEq, Repr

/-- One memory port (08_memory_stacks.md Tables 8-9, 8-10); ready holds the requests that wait for a tag, oldest first (R214). -/
structure Port where
  cause : BitVec 4
  state : BitVec 3
  corr : W32
  uncorr : W32
  reqs : List StackReq
  ready : List (Nat × StackOp)
  lastMnt : W64
  deriving DecidableEq, Repr

/-- A memory port at reset: in service. -/
def Port.init : Port := { cause := 0, state := 2, corr := 0, uncorr := 0, reqs := [], ready := [], lastMnt := 0 }

/-- One link group (08_memory_stacks.md Tables 8-11, 8-12); serial numbers its requests in the order of first issue (R213). -/
structure LinkGroup where
  retrains : Byte
  modules : BitVec 10
  retry : W32
  training : Bool
  serial : Nat
  deriving DecidableEq, Repr

/-- A link group at reset: ten modules in service. -/
def LinkGroup.init : LinkGroup := { retrains := 0, modules := 0x3FF, retry := 0, training := false, serial := 0 }

/-- The map registers of one region (08_memory_stacks.md Tables 8-7, 8-8). local is the ascending list of local port indices
that the map places data on. -/
structure MapReg where
  gen : Byte
  ports : List Nat
  refused : Bool
  spread : Bool
  rspTimeout : W32
  lostLines : W32
  deriving DecidableEq, Repr

/-- A region's map at reset: four ports, region-local (17_power_clocks_startup.md R471). -/
def MapReg.init : MapReg :=
  { gen := 0, ports := [0, 1, 2, 3], refused := false, spread := false, rspTimeout := 10000, lostLines := 0 }

/-- The stacks as the die sees them, and device memory keyed by device offset. -/
structure Stacks where
  mem : Memory
  port : Tab Port
  lg : Tab LinkGroup
  map : Tab MapReg
  deriving DecidableEq, Repr

/-- Why the device reads host memory over CXL.io (09_host_port.md Table 9-8). -/
inductive ReadWhy where
  | descriptor (q : Nat)
  | copy (e : Nat) (q : Nat) (slot : Nat) (off : Nat) (at' : Nat)
  | other
  deriving DecidableEq, Repr

/-- An outstanding CXL.io read (09_host_port.md R232). -/
structure IoRead where
  tag : Nat
  addr : Nat
  len : Nat
  why : ReadWhy
  poisoned : Bool
  deriving DecidableEq, Repr

/-- An HDM decoder (09_host_port.md R242): dpa is where it starts in device memory; stale tells that BI Enable was cleared since
its commit (R245). -/
structure Hdm where
  base : W64
  size : W64
  ways : BitVec 4
  gran : W16
  skip : W64
  committed : Bool
  err : Bool
  stale : Bool
  dpa : Nat
  deriving DecidableEq, Repr

/-- An HDM decoder at reset: not committed. -/
def Hdm.init : Hdm :=
  { base := 0, size := 0, ways := 0, gran := 0, skip := 0, committed := false, err := false, stale := false, dpa := 0 }

/-- An entry of the MSI-X table: message address and data, and the vector mask (09_host_port.md R236). -/
structure Msix where
  addr : W64
  data : W32
  masked : Bool
  deriving DecidableEq, Repr

/-- An MSI-X entry at reset, masked. -/
def Msix.init : Msix := { addr := 0, data := 0, masked := true }

/-- The registers of the configuration space that change (09_host_port.md R232 to R236). -/
structure Config where
  command : W16
  bar0 : W64
  bar2 : W64
  ssvid : W16
  ssid : W16
  devctl : W16
  devctl2 : W16
  linkctl : W16
  atsctl : W16
  prictl : W16
  pristatus : W16
  priIdxLimit : W32
  pasidctl : W16
  msixctl : W16
  pmcsr : W16
  dev3ctl : W32
  cxlctl : W16
  cxlctl2 : W16
  cxlstatus2 : W16
  aerUnc : W32
  aerCorr : W32
  ready : Bool
  deriving DecidableEq, Repr

/-- The configuration space at reset (PRESUMED PCI Express and CXL defaults, notes/assumptions 13). -/
def Config.init : Config :=
  { command := 0x400, bar0 := 0, bar2 := 0, ssvid := 0xD2A9, ssid := 0x9620, devctl := 0x2810, devctl2 := 0, linkctl := 0,
    atsctl := 0, prictl := 0, pristatus := 0, priIdxLimit := 0, pasidctl := 0, msixctl := 0, pmcsr := 0x8, dev3ctl := 0,
    cxlctl := 0, cxlctl2 := 0, cxlstatus2 := 0, aerUnc := 0, aerCorr := 0, ready := true }

/-- The data object exchange of the configuration space: the words written, the words of the answer that wait to be read, an error, and
interrupts enabled (09_host_port.md R233, R235). -/
structure Doe where
  inp : List W32
  out : List W32
  err : Bool
  irq : Bool
  deriving DecidableEq, Repr

/-- The data object exchange at reset. -/
def Doe.init : Doe := { inp := [], out := [], err := false, irq := false }

/-- The host port (09_host_port.md). mem is host memory as the device last saw it (notes/assumptions 3). -/
structure HostPort where
  cfg : Config
  hdm : Tab Hdm
  hdmCtl : BitVec 2
  biEnable : Bool
  biId : W16
  infoValid : Bool
  memActive : Bool
  range1 : W64
  cacheInvalid : Bool
  doe : Doe
  rasUnc : W32
  rasCorr : W32
  rasLog : List W32
  fatal : Bool
  mbReady : Bool
  msix : Tab Msix
  pba : Tab Bool
  fallback : Bool
  linkUp : Bool
  hostLost : Bool
  link : W32
  lpm : W32
  hlDiscard : W32
  flrLost : W32
  flr : Bool
  d3hot : Bool
  reads : List IoRead
  nextTag : Nat
  mem : Memory
  deriving DecidableEq, Repr

/-- The host port at reset (09_host_port.md Tables 9-12 to 9-15). -/
def HostPort.init : HostPort :=
  { cfg := Config.init, hdm := [], hdmCtl := 0, doe := Doe.init, biEnable := false, biId := 0, infoValid := false, memActive := false, range1 := 0,
    cacheInvalid := false, rasUnc := 0, rasCorr := 0, rasLog := [], fatal := false, mbReady := false, msix := [], pba := [],
    fallback := false, linkUp := false, hostLost := false, link := 0, lpm := 0x00401906, hlDiscard := 0, flrLost := 0,
    flr := false, d3hot := false, reads := [], nextTag := 0,
    mem := { era := 1, cells := [], pois := [] } }

/-- A translation held in a TLB (10_translation.md R268): mirror tells where it came from. -/
structure Tlb where
  pasid : BitVec 20
  page : W64
  log2 : Nat
  tgt : Target
  w : Bool
  mirror : Bool
  way : Nat
  deriving DecidableEq, Repr

/-- Who waits on a page request (10_translation.md R272). -/
inductive Waiter where
  | thread (b : Nat) (t : Nat)
  | piece (e : Nat)
  | queue (q : Nat) (slot : Nat)
  | wr (qp : Nat) (slot : Nat)
  deriving DecidableEq, Repr

/-- A page request that is outstanding (10_translation.md R272). -/
structure PageReq where
  idx : Nat
  pasid : BitVec 20
  page : W64
  wr : Bool
  fetch : Bool
  addr : W64
  waiters : List Waiter
  deriving DecidableEq, Repr

/-- An ATS request in flight (10_translation.md R267); stale tells that an invalidation met it, so that its result is discarded
(R280). -/
structure AtsReq where
  pasid : BitVec 20
  page : W64
  unit : Nat
  waiters : List Waiter
  stale : Bool
  deriving DecidableEq, Repr

/-- An access that used an entry when an invalidation removed it (10_translation.md R282): a thread's access, a buffered line of a
region, a packet of one on its way to another device, a piece of a copy, a semaphore of a queue command, and one that a SEMSIG or
a SEMWAIT of a thread names. -/
inductive XUse where
  | acc (b : Nat) (t : Nat) (id : Nat)
  | line (r : Nat) (tgt : Target)
  | drain (dev : W16) (addr : W64)
  | piece (e : Nat) (q : Nat) (slot : Nat) (off : Nat)
  | sem (q : Nat) (slot : Nat)
  | semsig (b : Nat) (t : Nat) (va : W64)
  | semwait (b : Nat) (t : Nat) (va : W64)
  deriving DecidableEq, Repr

/-- An invalidation that is not complete (10_translation.md R280, R282): its PASID, or all of them, its range, and the accesses that it
waits for. -/
structure Inv where
  pasid : BitVec 20
  glob : Bool
  start : W64
  len : W64
  uses : List XUse
  deriving DecidableEq, Repr

/-- Why a page of an access that waited stays untranslated, until that access has taken note of it. -/
structure AtsNo where
  who : Waiter
  pasid : BitVec 20
  page : W64
  cause : BitVec 4
  deriving DecidableEq, Repr

/-- The translation logic (10_translation.md): once holds the translations to host memory that came for one access while Cache_Enable
is 0, and that stand in no entry (R247, R270). -/
structure Xlt where
  micro : Tab (List Tlb)
  tlb : Tab (List Tlb)
  tree : Tab Byte
  ctx : List (Nat × BitVec 20 × W64)
  ats : List AtsReq
  refusedPages : List AtsNo
  once : List (Waiter × Tlb)
  pri : List PageReq
  burnt : List Nat
  invs : List Inv
  mirrorInv : Option (List XUse)
  gctl : W64
  gctlLow : W32
  devnum : W16
  member : Tab W32
  ctxBase : W64
  ctxLow : W32
  invAddr : W64
  priTimeout : W32
  refusals : BitVec 2
  faults : W32
  deriving DecidableEq, Repr

/-- The translation logic at reset (10_translation.md Tables 10-7 to 10-12). -/
def Xlt.init : Xlt :=
  { micro := [], tlb := [], tree := [], ctx := [], ats := [], refusedPages := [], once := [], pri := [], burnt := [], invs := [],
    mirrorInv := none, gctl := 0, gctlLow := 0, devnum := 0, member := [], ctxBase := 0, ctxLow := 0, invAddr := 0,
    priTimeout := 1000, refusals := 0, faults := 0 }

/-- Where a queue command stands (11_queues_and_copy.md R290, R292): fetched and waiting, running, or ended with a status
and INFO and not yet recorded. -/
inductive CmdStat where
  | waiting
  | running
  | done (status : Byte) (info : W64)
  deriving DecidableEq, Repr

/-- A command of a queue: its ring slot, its 64 bytes and where it stands. left counts what it still waits for (pieces of a
copy, answers of another device), first is the first status that arose, flags the conversion flags of a COPY, val the value
that a WAIT read last, read whether it has read one, asked whether an answer of another device is to be judged, and tries
the page requests of its semaphore's address; recorded tells that its record is written and its CSEM still to be answered, and
near whether the destination of a COPY or ZERO_RANGE lies in this device's memory, once that is known. -/
structure Cmd where
  slot : Nat
  desc : BitVec 512
  stat : CmdStat
  left : Nat
  flags : BitVec 5
  first : Option (Byte × W64)
  val : W64
  read : Bool
  asked : Bool
  tries : Nat
  recorded : Bool
  near : Option Bool
  deriving DecidableEq, Repr

/-- QUE_STATUS.STATE (11_queues_and_copy.md Table 11-12). -/
inductive QState where
  | disabled | running | quiescing | quiesced | stopped
  deriving DecidableEq, Repr

/-- One work queue (11_queues_and_copy.md Tables 11-11, 11-12). bits holds CMD_REFUSED to STALE of QUE_STATUS [11:6]. -/
structure Queue where
  ring : W64
  ringLow : W32
  cpl : W64
  cplLow : W32
  cfg : W64
  cfgLow : W32
  state : QState
  bits : BitVec 6
  pi : W16
  ci : W16
  phase : Bool
  rereads : Nat
  cmds : List Cmd
  deriving DecidableEq, Repr

/-- A queue at reset. -/
def Queue.init : Queue :=
  { ring := 0, ringLow := 0, cpl := 0, cplLow := 0, cfg := 0x04000000, cfgLow := 0, state := .disabled, bits := 0, pi := 0,
    ci := 0, phase := true, rereads := 0, cmds := [] }

/-- The running MODESET (11_queues_and_copy.md R300). -/
structure ModeSet where
  q : Nat
  slot : Nat
  mode : Byte
  scope : BitVec 5
  acked : List Nat
  lost : List Nat
  deriving DecidableEq, Repr

/-- A piece of a copy held by an engine (11_queues_and_copy.md R303): pieces are whole rows' parts inside one 4 KiB of the
destination; zero tells a ZERO_RANGE piece, off is the piece's place among the destination bytes, len its destination bytes,
stage how far it has come (0 its source is not read, 1 its data is here or on its way, 2 its data is written), and spoilt the
source bytes read that were poisoned. -/
structure Piece where
  q : Nat
  slot : Nat
  src : W64
  dst : W64
  len : Nat
  off : Nat
  zero : Bool
  cvt : Option (BitVec 4 × BitVec 4)
  pasid : BitVec 20
  tries : Nat
  stage : Nat
  left : Nat
  buf : Tab Byte
  spoilt : Tab Bool
  bad : Option (Byte × W64)
  deriving DecidableEq, Repr

/-- One copy engine (11_queues_and_copy.md Table 11-13). -/
structure Engine where
  pieces : List Piece
  bytes : W64
  deriving DecidableEq, Repr

/-- The queue front-end and the copy engines; turn holds the queue that each priority served last (R287). -/
structure Queues where
  staleWait : W16
  que : Tab Queue
  modeset : Option ModeSet
  turn : Tab Nat
  eng : Tab Engine
  deriving DecidableEq, Repr

/-- A UMT packet as the device sends it (12_umakin_transport.md Table 12-3). -/
structure TxPkt where
  typ : BitVec 4
  isFirst : Bool
  isLast : Bool
  ackReq : Bool
  notify : Bool
  retx : Bool
  mcast : Option (Byte × BitVec 256)
  dst : W16
  dstIfc : Nat
  path : BitVec 6
  gen : Byte
  dqpn : Nat
  sqpn : Nat
  ceCnt : Byte
  psn : BitVec 24
  addr : W64
  aux : W32
  ts : W32
  payload : List Byte
  deriving DecidableEq, Repr

/-- A sent and unacknowledged packet with its owner and the order in which it went out on its path. -/
structure Sent where
  pkt : TxPkt
  own : Own
  order : Nat
  deriving DecidableEq, Repr

/-- The state of a queue pair (12_umakin_transport.md R320). -/
inductive QpState where
  | unused | reset | ready | error | idle | active | dead
  deriving DecidableEq, Repr

/-- The settings of an explicit queue pair (12_umakin_transport.md Table 12-6). -/
structure QpCfg where
  pasid : BitVec 20
  peer : W16
  rqpn : BitVec 18
  lmask : BitVec 20
  rmask : BitVec 20
  paths : Nat
  slog2 : Nat
  rlog2 : Nat
  sring : W64
  scpl : W64
  rring : W64
  rcpl : W64
  vsel : Bool
  vector : BitVec 11
  deriving DecidableEq, Repr

/-- A work request that has been taken from the send ring (12_umakin_transport.md R321). -/
structure Wr where
  slot : Nat
  desc : BitVec 512
  started : Bool
  left : Nat
  got : Nat
  tries : Nat
  old : W64
  status : Option (Byte × Byte)
  rnr : Nat
  again : Bool
  num : W32
  deriving DecidableEq, Repr

/-- A read or an atomic that waits for its response (12_umakin_transport.md R327). -/
structure WaitResp where
  psn : BitVec 24
  own : Own
  addr : W64
  len : Nat
  got : Nat
  deriving DecidableEq, Repr

/-- A message that a SEND is filling (12_umakin_transport.md R327): the buffer that it claimed, and the page requests of it. -/
structure RecvMsg where
  num : W32
  buf : W64
  len : W32
  tag : W32
  got : List Nat
  total : Nat
  tries : Nat
  deriving DecidableEq, Repr

/-- A notification held back until the packets before it are in place (12_umakin_transport.md R330). -/
structure Held where
  psn : BitVec 24
  kind : Byte
  tag : W32
  len : W32
  imm : W32
  deriving DecidableEq, Repr

/-- The first arrival that an acknowledgement is still owed for (12_umakin_transport.md R335, R336): the interfaces, the path,
its TS and the NCLK count at its arrival. -/
structure AckFor where
  ifc : Nat
  srcIfc : Nat
  path : BitVec 6
  ts : W32
  at' : W64
  deriving DecidableEq, Repr

/-- A queue-pair context (12_umakin_transport.md R318; firsts holds the first packets of the writes that arrive): both directions, path penalties and losses, congestion control
(R338 to R341) and, for an explicit pair, its rings. Times are in ns; alpha is FP32. -/
structure Qp where
  state : QpState
  cfg : Option QpCfg
  gen : Byte
  snext : BitVec 24
  sent : List Sent
  order : Nat
  cum : BitVec 24
  map : BitVec 256
  arrived : Nat
  ceSince : Nat
  penal : List Nat
  losses : List (Nat × Nat)
  dcount : Nat
  ackFor : Option AckFor
  atomics : List (BitVec 24 × W64)
  waits : List WaitResp
  cwnd : Nat
  alpha : W32
  rStart : Nat
  rEnd : BitVec 24
  rAcked : Nat
  rMarked : Nat
  rRtt : Nat
  rLoss : Bool
  srtt : Nat
  rttvar : Nat
  sampled : Bool
  expiries : Nat
  timer : Nat
  paced : Bool
  pace : Nat
  unsent : List Sent
  spi : W16
  sci : W16
  sphase : Bool
  rpi : W16
  rci : W16
  rcplIdx : W16
  rphase : Bool
  wrs : List Wr
  msgs : List RecvMsg
  msgNum : W32
  held : List Held
  firsts : List (BitVec 24 × W64)
  deriving DecidableEq, Repr

/-- A queue pair that has never been used. -/
def Qp.init : Qp :=
  { state := .idle, cfg := none, gen := 0, snext := 0, sent := [], order := 0, cum := 0, map := 0, arrived := 0,
    ceSince := 0, penal := [], losses := [], dcount := 0, ackFor := none, atomics := [], waits := [], cwnd := 0, alpha := 0x3F800000, rStart := 0,
    rEnd := 0, rAcked := 0, rMarked := 0, rRtt := 0, rLoss := false, srtt := 0, rttvar := 0, sampled := false,
    expiries := 0, timer := 0, paced := false, pace := 0, unsent := [], spi := 0, sci := 0, sphase := true, rpi := 0, rci := 0, rcplIdx := 0,
    rphase := true, wrs := [], msgs := [], msgNum := 0, held := [], firsts := [] }

/-- The registers of one interface (12_umakin_transport.md Tables 12-17, 12-18). -/
structure Ifc where
  up : Bool
  mac : W64
  macLow : W32
  nh : W64
  nhLow : W32
  tx : W64
  rx : W64
  ce : W32
  drop : W32
  crcerr : W32
  deriving DecidableEq, Repr

/-- An interface at reset. -/
def Ifc.init : Ifc :=
  { up := false, mac := 0, macLow := 0, nh := 0, nhLow := 0, tx := 0, rx := 0, ce := 0, drop := 0, crcerr := 0 }

/-- The mode registers of one network port (12_umakin_transport.md Table 12-16). -/
structure NPort where
  mode : BitVec 2
  narrowed : Bool
  deriving DecidableEq, Repr

/-- A memory window (12_umakin_transport.md Table 12-15). -/
structure Win where
  base : W64
  baseLow : W32
  len : W64
  lenLow : W32
  src : W32
  deriving DecidableEq, Repr

/-- A window at reset: not valid. -/
def Win.init : Win := { base := 0, baseLow := 0, len := 0, lenLow := 0, src := 0 }

/-- The network engine and the ports (12_umakin_transport.md). -/
structure Net where
  gctl : W64
  gctlLow : W32
  gen0 : Byte
  pfxH : W64
  pfxHLow : W32
  pfxL : W32
  qpcBase : W64
  qpcLow : W32
  cc : W64
  ccLow : W32
  timers : W32
  winBusy : Bool
  cached : List Nat
  win : Tab Win
  port : Tab NPort
  ifc : Tab Ifc
  qp : Tab Qp
  quiet : Bool
  deriving DecidableEq, Repr

/-- The network engine at reset (12_umakin_transport.md Tables 12-11 to 12-18). -/
def Net.init : Net :=
  { gctl := 0xBDEC0003FFFFFFC0, gctlLow := 0, gen0 := 0, pfxH := 0, pfxHLow := 0, pfxL := 0, qpcBase := 0, qpcLow := 0,
    cc := 0x02001F4010428028, ccLow := 0, timers := 0x0840140A, winBusy := false, cached := [], win := [], port := [],
    ifc := [], qp := [], quiet := false }

/-- A part of a contribution as it came: whose it is, its first byte in the chunk and its bytes. -/
structure Contrib where
  child : Nat
  at' : Nat
  bytes : List Byte
  last : Bool
  deriving DecidableEq, Repr

/-- A hawk-store slot (13_collectives_and_hawk_store.md R360, R361): the chunk it holds for a node (role 0 the system node, p the
node of the p-th pod), the contributions in their order of arrival, whether the sum went up to the system node, the bytes of the
result, one entry for each copy of it, or each DONE, that is still owed, and the repair reads that wait for the result: who asks, the
PSN of the READ_REQ, the byte and the length. -/
structure Slot where
  group : Nat
  seq : W16
  role : Nat
  chunk : Nat
  parts : List Contrib
  up : Bool
  bytes : Tab Byte
  result : Bool
  owed : List Nat
  asks : List (W16 × BitVec 24 × Nat × Nat)
  deriving DecidableEq, Repr

/-- A collective at a node (13_collectives_and_hawk_store.md R360): the claims answered and those that wait for their answer, the
node's own decision and the system node's (0 GRANT, 1 BUSY, 2 MISMATCH), and the descriptor of this device's own COLL, from which a
node knows the operation. -/
structure NodeColl where
  group : Nat
  seq : W16
  role : Nat
  digest : W32
  claimed : List Nat
  waiting : List (Nat × W16 × BitVec 24)
  granted : Bool
  answer : Option Nat
  slots : Nat
  chunksDone : Nat
  failed : Bool
  timedOut : Bool
  desc : Option (BitVec 512)
  deriving DecidableEq, Repr

/-- How a member runs a collective. -/
inductive CollWay where
  | claiming | tree | fallback
  deriving DecidableEq, Repr

/-- A collective at a member (13_collectives_and_hawk_store.md R361, R362): the chunks sent, those finished and the parts of
results that have come (chunk, byte, length); the step of the endpoint algorithm, the steps sent, the peers asked and those that granted, the packets not yet
acknowledged, and the elements it works on. -/
structure MemberColl where
  q : Nat
  slot : Nat
  group : Nat
  seq : W16
  digest : W32
  way : CollWay
  sent : Nat
  got : List Nat
  parts : List (Nat × Nat × Nat)
  step : Nat
  asked : List Nat
  peers : List Nat
  owe : Nat
  loaded : Bool
  acc : Tab W32
  poisonAt : Option Nat
  deriving DecidableEq, Repr

/-- Data of an endpoint algorithm that waits in the staging area (13_collectives_and_hawk_store.md R362). -/
structure StageIn where
  group : Nat
  seq : W16
  dev : W16
  step : W16
  bytes : Tab Byte
  have' : Nat
  deriving DecidableEq, Repr

/-- One collective engine (13_collectives_and_hawk_store.md Tables 13-7 to 13-10). -/
structure CollEngine where
  gtab : W64
  gtabLow : W32
  ctl : W32
  busy : W32
  fallback : W32
  retried : W16
  failed : W16
  slots : List Slot
  nodes : List NodeColl
  members : List MemberColl
  stages : List StageIn
  deriving DecidableEq, Repr

/-- A collective engine at reset. -/
def CollEngine.init : CollEngine :=
  { gtab := 0, gtabLow := 0, ctl := 0x00643281, busy := 0, fallback := 0, retried := 0, failed := 0, slots := [],
    nodes := [], members := [], stages := [] }

/-- What has become of a packet of a collective: what it was, the target, and its answer: an atomic's old value, bytes read, a
transport status, or none from a dead peer. -/
structure CollNews where
  group : Nat
  seq : Nat
  what : Nat
  dev : W16
  addr : W64
  old : Option W64
  status : Option Byte
  off : Nat
  bytes : List Byte
  deriving DecidableEq, Repr

/-- A packet from one role of this device to another. -/
structure LocalMsg where
  what : Nat
  group : Nat
  seq : Nat
  pkt : TxPkt
  deriving DecidableEq, Repr

/-- The collective engines, what has become of their packets, the packets that the device sends itself, and the sequence numbers
of the groups (R349, R364). -/
structure Coll where
  eng : Tab CollEngine
  seq : Tab W16
  mseq : Tab (BitVec 24)
  news : List CollNews
  own : List LocalMsg
  deriving DecidableEq, Repr

/-- SKM_LANE_STATUS.STATE (14_skim_lanes.md Table 14-12). -/
inductive LaneState where
  | disarmed | arming | armed | replacing | failed | disarming
  deriving DecidableEq, Repr

/-- One side's run of a frame (14_skim_lanes.md R377, R389). -/
structure SideRun where
  block : Nat
  started : Bool
  done : Bool
  valid : Bool
  deriving DecidableEq, Repr

/-- A frame that a lane has accepted (14_skim_lanes.md R377). -/
structure LaneFrame where
  seq : W64
  result : List Byte
  ifc : Nat
  bytes : List Byte
  stamp : W64
  since : Option W64
  runs : List (Bool × SideRun)
  flags : BitVec 5
  fcs : Option Bool
  status : Byte
  due : Bool
  released : Bool
  used : Option Nat
  deriving DecidableEq, Repr

/-- One skim lane (14_skim_lanes.md Tables 14-12, 14-13). lcb is the lane configuration block in force for the primary side, qlcb for
the partner's (they differ after a replace of one side). -/
structure Lane where
  state : LaneState
  lcb : Tab Byte
  qlcb : Tab Byte
  newLcb : Tab Byte
  side : BitVec 2
  pair : BitVec 2
  inSvc : List (Bool × Nat)
  reload : List Nat
  seq : W64
  prev : Option W64
  frames : List LaneFrame
  pi : W16
  ci : W16
  phase : Bool
  dl : W16
  arm : Option (Nat × Nat)
  cMatch : W64
  cReply : W64
  cNoanswer : W32
  cLate : W32
  cMismatch : W32
  cSingle : W32
  cFcsbad : W32
  cRdrop : W32
  cTxdrop : W32
  deriving DecidableEq, Repr

/-- A lane at reset. -/
def Lane.init : Lane :=
  { state := .disarmed, lcb := [], qlcb := [], newLcb := [], side := 0, pair := 0, inSvc := [], reload := [], seq := 0, prev := none,
    frames := [], pi := 0, ci := 0, phase := true, dl := 0, arm := none, cMatch := 0, cReply := 0, cNoanswer := 0,
    cLate := 0, cMismatch := 0, cSingle := 0, cFcsbad := 0, cRdrop := 0, cTxdrop := 0 }

/-- The skim front-end (14_skim_lanes.md Tables 14-10, 14-11). half tells that a half NCLK cycle is carried. -/
structure Skim where
  nclk : W64
  half : Bool
  tsNclk : W64
  tsOclk : W64
  halted : Bool
  lane : Tab Lane
  deriving DecidableEq, Repr

/-- A fault source's class, counts and timer (15_faults_and_dust_sheets.md R401 to R405). raised is how far the class stands
above FLT_SEV.CLASS. -/
structure SrcState where
  raised : Nat
  winA : W64
  cntA : Nat
  winB : W64
  cntB : Nat
  grace : Bool
  level : Bool
  corrected : W32
  detail : W64
  deriving DecidableEq, Repr

/-- A source that has reported nothing. -/
def SrcState.init : SrcState :=
  { raised := 0, winA := 0, cntA := 0, winB := 0, cntB := 0, grace := false, level := false, corrected := 0, detail := 0 }

/-- The running MAKE_GOOD (15_faults_and_dust_sheets.md R412): its unit, and the units whose sources have shown error during the
test. -/
structure MakeGood where
  u : DustUnit
  seen : List DustUnit
  deriving DecidableEq, Repr

/-- The fault collector and the fallback sequencer (15_faults_and_dust_sheets.md). sev is by group × 16 + kind; noWalk lists the
regions whose last dust sheet came without a completed walk (R413). -/
structure Faults where
  oclk : W64
  chip : W32
  fenceTimeout : W32
  hb : W32
  hbSeen : Bool
  fallback : W64
  promoted : Tab W32
  sev : Tab (Option W64)
  last : List (BitVec 512)
  sticky : Tab W32
  src : Tab SrcState
  inject : List (Nat × W32)
  dust : List DustUnit
  noWalk : List Nat
  makeGood : Option MakeGood
  seqRunning : Bool
  salvage : Bool
  readonly : Bool
  pd1Cut : Bool
  faultT : Bool
  faultC : Bool
  driven : Bool
  thermtripN : Bool
  walked : W64
  deriving DecidableEq, Repr

/-- The fault collector at reset (15_faults_and_dust_sheets.md Tables 15-10 to 15-13; 17_power_clocks_startup.md Table 17-4). -/
def Faults.init : Faults :=
  { oclk := 0, chip := 0, fenceTimeout := 4000, hb := 0, hbSeen := false, fallback := 0, promoted := [], sev := [], last := [],
    sticky := [], src := [], inject := [], dust := [], noWalk := [], makeGood := none, seqRunning := false, salvage := false,
    readonly := false, pd1Cut := false, faultT := false, faultC := true, driven := true, thermtripN := true, walked := 0 }

/-- What waits for a snag slot: a held record, or a thread's record (15_faults_and_dust_sheets.md R416). -/
structure SnagWait where
  record : BitVec 512
  thread : Option (Nat × Nat)
  counted : Bool
  deriving DecidableEq, Repr

/-- The snag queue (15_faults_and_dust_sheets.md Tables 15-14, 15-15); ringBase, ringSize and ringHost are those in force
since EN rose. -/
structure Snag where
  base : W64
  baseLow : W32
  ctl : W32
  overflow : Bool
  pi : BitVec 20
  ci : BitVec 20
  ciLow : W32
  phase : Bool
  ringBase : W64
  ringSize : Nat
  ringHost : Bool
  lost : Tab W32
  waits : List SnagWait
  deriving DecidableEq, Repr

/-- The snag queue at reset. -/
def Snag.init : Snag :=
  { base := 0, baseLow := 0, ctl := 0x50, overflow := false, pi := 0, ci := 0, ciLow := 0, phase := true, ringBase := 0,
    ringSize := 10, ringHost := false, lost := [], waits := [] }

/-- One mailbox (16_stolpel_and_events.md Table 16-1). busy holds while a submitted command has not completed, and late while a command
of the other mailbox is in progress whose doorbell came first (R427). -/
structure Mailbox where
  ctl : BitVec 3
  cmd : W64
  ret : W16
  ext : W16
  bgRet : W16
  bgExt : W16
  bgOpcode : W16
  bgPercent : BitVec 7
  payload : Tab Byte
  busy : Bool
  late : Bool
  deriving DecidableEq, Repr

/-- A mailbox at reset. -/
def Mailbox.init : Mailbox :=
  { ctl := 0, cmd := 0, ret := 0, ext := 0, bgRet := 0, bgExt := 0, bgOpcode := 0, bgPercent := 0, payload := [],
    busy := false, late := false }

/-- What a background command does when it ends. -/
inductive BgKind where
  | fwStart | domainSet (d : Nat) (on : Bool) (force : Bool) | warmReset | makeGood | primerWrite (off : Nat) (data : List Byte)
  | calibration (data : List Byte)
  deriving DecidableEq, Repr

/-- The background command that runs (16_stolpel_and_events.md R426); result is how it ended, once known. -/
structure Background where
  mb : Bool
  opcode : W16
  kind : BgKind
  result : Option (W16 × W16)
  step : W32
  deriving DecidableEq, Repr

/-- The state of the firmware slot (16_stolpel_and_events.md R437). -/
inductive FwState where
  | empty | receiving | verifying | running | failed
  deriving DecidableEq, Repr

/-- The mailboxes and the firmware slot. -/
structure Mail where
  mb : Tab Mailbox
  bg : Option Background
  fw : FwState
  fwBytes : List Byte
  fwHolder : Option Bool
  fwVersion : W64
  fwMeas : BitVec 384
  resetAsked : Bool
  deriving DecidableEq, Repr

/-- The event controller (16_stolpel_and_events.md Tables 16-8 to 16-12). -/
structure Events where
  cnt : Tab Byte
  pending : BitVec 512
  enable : BitVec 512
  mask : BitVec 512
  route : Tab W32
  siteMask : Bool
  siteWakes : Nat
  deriving DecidableEq, Repr

/-- The event controller at reset. -/
def Events.init : Events :=
  { cnt := [], pending := 0, enable := 0, mask := BitVec.allOnes 512, route := [], siteMask := true,
    siteWakes := 0 }

/-- PWR_DOM.STATE (17_power_clocks_startup.md Table 17-13). -/
inductive DomState where
  | off | on | gated | poweringUp | draining | failed
  deriving DecidableEq, Repr

/-- One power domain. -/
structure Dom where
  current : W16
  cause : BitVec 4
  state : DomState
  deriving DecidableEq, Repr

/-- A domain at reset: on. -/
def Dom.init : Dom := { current := 0, cause := 0, state := .on }

/-- The power controller, the calibration record and the flash (17_power_clocks_startup.md). -/
structure Power where
  modes : BitVec 40
  transition : Bool
  scope : BitVec 5
  cap : W32
  power : W16
  sCap : BitVec 5
  sTherm : BitVec 5
  capMiss : Bool
  overSteps : Nat
  therm : Byte
  hot : Byte
  lostStores : W32
  idle : W32
  dom : Tab Dom
  temp : Tab W16
  samples : List Nat
  thermSub : Nat
  droops : List Nat
  waking : List Nat
  cal : Tab Byte
  flash : Tab Byte
  populated : BitVec 20
  askSpread : Bool
  deriving DecidableEq, Repr

/-- The power controller at reset, with the fuse defaults of R471 (notes/assumptions 7). -/
def Power.init : Power :=
  { modes := 0x8080808080, transition := false, scope := 0, cap := 0x05780064, power := 0, sCap := 0, sTherm := 0,
    capMiss := false, overSteps := 0, therm := 95, hot := 0, lostStores := 0, idle := 100, dom := [], temp := [],
    samples := [], thermSub := 0, droops := [], waking := [], cal := [], flash := [],
    populated := BitVec.allOnes 20, askSpread := false }

/-- Which reset sequence runs (17_power_clocks_startup.md R474 to R477): draining before the walk, held at its end, or in the
start that follows. -/
inductive ResetPhase where
  | none
  | porLow
  | pd0Ready
  | drain (conventional : Bool)
  | held (conventional : Bool)
  | start
  deriving DecidableEq, Repr

/-- The resets and the pins. -/
structure Reset where
  phase : ResetPhase
  warmLow : Bool
  perstHigh : Bool
  pwrgd : Bool
  pd0Ready : Bool
  steps : Nat
  plls : BitVec 7
  stopped : Bool
  deriving DecidableEq, Repr

/-- The pins after a start. -/
def Reset.init : Reset :=
  { phase := .none, warmLow := false, perstHigh := true, pwrgd := true, pd0Ready := true, steps := 50,
    plls := 0x7F, stopped := false }

/-- An optical module's life record (18_identity_and_optical_modules.md R486); age orders the entries by how long ago their
module was present. -/
structure Life where
  serial : BitVec 128
  hours : W32
  rated : W32
  warned : Bool
  expired : Bool
  age : Nat
  deriving DecidableEq, Repr

/-- The optical module of one port (18_identity_and_optical_modules.md Table 18-4; 19_die_ports_and_integration.md R504). -/
structure Module where
  id : Option ModuleId
  inserted : Bool
  hours : W32
  rated : W32
  warned : Bool
  expired : Bool
  failedLanes : BitVec 4
  sinceWrite : W32
  lastSerial : BitVec 128
  rstLow : Bool
  lpm : Bool
  deriving DecidableEq, Repr

/-- A port with no module: reset held low, low power asserted. -/
def Module.init : Module :=
  { id := none, inserted := false, hours := 0, rated := 0, warned := false, expired := false, failedLanes := 0,
    sinceWrite := 0, lastSerial := 0, rstLow := true, lpm := true }

/-- How far an SPDM connection has come (18_identity_and_optical_modules.md R482). -/
inductive SpdmState where
  | none | version | capabilities | algorithms
  deriving DecidableEq, Repr

/-- The TAP instruction (19_die_ports_and_integration.md R506). -/
inductive TapInstr where
  | idcode | bypass | sample | extest | clamp | highz
  deriving DecidableEq, Repr

/-- Identity, modules, SPDM, board bus and TAP (chapters 18 and 19). -/
structure Identity where
  fuses : Fuses
  fuseBad : Bool
  measValid : Bool
  primerDefaulted : Bool
  meas1 : BitVec 384
  optCtl : W32
  modl : Tab Module
  modsel : BitVec 10
  maps : List Byte
  life : List Life
  spdm : SpdmState
  spdmLog : List Byte
  spdmAuth : List Byte
  spdmMeas : List Byte
  brdAddr : BitVec 2
  ptr : W16
  latch : List Byte
  tap : TapInstr
  tapHolds : Bool
  tapCoreHeld : Bool
  deriving DecidableEq, Repr

/-- Identity at reset. -/
def Identity.init : Identity :=
  { fuses := { dsn := 0, keyHash := 0, spare := [], cal := [] }, fuseBad := false, measValid := false, primerDefaulted := false,
    meas1 := 0, optCtl := 0xAB180001, modl := [], modsel := 0x3FF, maps := [], life := [], spdm := .none, spdmLog := [], spdmAuth := [], spdmMeas := [], brdAddr := 0, ptr := 0, latch := [],
    tap := .idcode, tapHolds := false, tapCoreHeld := false }

/-- A CXL.cache request or answer of the device (07_caches_and_coherence.md Table 7-7, R195). -/
inductive D2H where
  | rdShared | rdOwn | rdCurr | itoMWr | wOWrInvF | wOWrInv | dirtyEvict | cleanEvict
  | rspIHitI | rspIHitSE | rspIFwdM | rspSHitSE | rspSFwdM | rspVFwdV | rspVHitV | pull
  deriving DecidableEq, Repr

/-- What the device sends at its ports, and the messages it puts on its own mesh and spine, each shown as the command that
its arrival will be (notes/assumptions 6); event n is EVENT_ARRIVAL of source n and fault a FAULT_SOURCE_EVENT. -/
inductive Emit where
  | noc (c : Instr)
  | event (n : Nat)
  | fault (src : Src) (rails : BitVec 2) (oclk : W64) (detail : W64)
  | d2h (k : D2H) (hpa : Nat) (mask : W64) (data : BitVec 512)
  | biSnp (biId : W16) (inval : Bool) (cur : Bool) (line : Nat)
  | memData (hpa : W64) (data : BitVec 512) (pois : Bool)
  | memCmp (hpa : W64)
  | stackReq (mp : Nat) (tag : Nat) (off : Nat) (op : StackOp)
  | mrd (tag : Nat) (addr : Nat) (len : Nat) (ro : Bool)
  | mwr (addr : Nat) (data : List Byte) (ro : Bool)
  | msix (v : Nat)
  | readDone (off : W32) (data : W64)
  | readUr (off : W32)
  | cfgDone (data : W32)
  | cfgRetry
  | atsReq (pasid : BitVec 20) (page : W64)
  | pageReq (idx : Nat) (pasid : BitVec 20) (page : W64) (wr : Bool)
  | invDone
  | l0p (width : Nat)
  | l1
  | frame (ifc : Nat) (bytes : List Byte)
  | umt (ifc : Nat) (p : TxPkt) (bytes : List Byte)
  | neighbour (ifc : Nat) (bytes : List Byte)
  | remoteData (dev : W16) (data : List Byte) (pois : Bool)
  | remoteOk (dev : W16)
  | remoteOld (dev : W16) (old : W64)
  | remoteNo (dev : W16) (status : Byte)
  | spdm (bytes : List Byte)
  | board (bytes : List Byte)
  | boardNak
  | tdo (v : W32)
  | flash (len : Nat)
  | module (bus : Nat) (khz : Nat) (sel : BitVec 10)
  deriving DecidableEq, Repr

/-- The state of the block. -/
structure State where
  pending : List Instr
  sent : List Emit
  free : Nat
  blocks : Blocks
  coh : Coh
  stk : Stacks
  hpt : HostPort
  xlt : Xlt
  que : Queues
  net : Net
  col : Coll
  skm : Skim
  flt : Faults
  snag : Snag
  mail : Mail
  evt : Events
  pwr : Power
  rst : Reset
  idn : Identity
  deriving DecidableEq, Repr

/-- The state right after reset: every register at its reset column, no primer image, no firmware. -/
def State.reset : State :=
  { pending := [], sent := [], free := 0,
    blocks := { blk := [], thr := [], kernels := [], prevRegion := 4, ghosts := [] },
    coh := { bc := [], rc := [], wc := [] },
    stk := { mem := Memory.empty, port := [], lg := [], map := [] },
    hpt := HostPort.init, xlt := Xlt.init,
    que := { staleWait := 200, que := [], modeset := none, turn := [], eng := [] },
    net := Net.init, col := { eng := [], seq := [], mseq := [], news := [], own := [] },
    skm := { nclk := 0, half := false, tsNclk := 0, tsOclk := 0, halted := false, lane := [] },
    flt := Faults.init, snag := Snag.init,
    mail := { mb := [], bg := none, fw := .empty, fwBytes := [], fwHolder := none, fwVersion := 0, fwMeas := 0,
              resetAsked := false },
    evt := Events.init, pwr := Power.init, rst := Reset.init, idn := Identity.init }

/-- Why the block stops with a fault. NO COMMAND OF THIS MODEL RAISES ONE: every command the spec describes has an effect
on every state, so the one name stands for nothing and is safe. -/
inductive Fault where
  | never
  deriving DecidableEq, Repr

/-- Why a command has no meaning. notModelled names a command whose arm of exec is not written yet (safe: the run ends). -/
inductive Refusal where
  | notModelled (mnemonic : String)
  deriving DecidableEq, Repr

end Sys2Proof.Machine
end

