-- ==== Sys2Proof/Machine/Ops.lean ====
section
/-! DEFINITION. The named operations over memory, registers and records that every meaning shares: bytes and lines, memories,
the parts of the state by number, the memory map, and what the device sends. -/
namespace Sys2Proof.Machine

/-! ### Bytes, words and lines -/

/-- The n low bytes of a number, least significant first (00_scope.md R4). -/
def leBytes : Nat → Nat → List Byte
  | 0, _ => []
  | n + 1, v => BitVec.ofNat 8 v :: leBytes n (v / 256)

/-- The number that bytes spell, least significant first (00_scope.md R4). -/
def leVal : List Byte → Nat
  | [] => 0
  | b :: t => b.toNat + 256 * leVal t

/-- Bits hi to lo of a word, as a number. -/
def bits {w : Nat} (v : BitVec w) (hi lo : Nat) : Nat := v.toNat / 2 ^ lo % 2 ^ (hi - lo + 1)

/-- One bit of a word. -/
def bit {w : Nat} (v : BitVec w) (i : Nat) : Bool := v.getLsbD i

/-- A word with bits hi to lo replaced by the low bits of x. -/
def setBits {w : Nat} (v : BitVec w) (hi lo : Nat) (x : Nat) : BitVec w :=
  let m : BitVec w := BitVec.ofNat w ((2 ^ (hi - lo + 1) - 1) * 2 ^ lo)
  (v &&& ~~~m) ||| (BitVec.ofNat w (x % 2 ^ (hi - lo + 1) * 2 ^ lo))

/-- A word with one bit replaced. -/
def setBit {w : Nat} (v : BitVec w) (i : Nat) (x : Bool) : BitVec w := setBits v i i (if x then 1 else 0)

/-- 1 for true, 0 for false. -/
def b2n (x : Bool) : Nat := if x then 1 else 0

/-- A count that stops at a limit (every saturating counter of the register chapters). -/
def satAdd {w : Nat} (c : BitVec w) (n : Nat) : BitVec w := BitVec.ofNat w (Nat.min (c.toNat + n) (2 ^ w - 1))

/-- The signed value of a bit field. -/
def sext (n v : Nat) : Int := if v < 2 ^ (n - 1) then (v : Int) else (v : Int) - 2 ^ n

/-- A 64-bit word from an integer, wrapping. -/
def w64 (i : Int) : W64 := BitVec.ofInt 64 i

/-- Byte k of a line. -/
def lineByte (l : Line) (k : Nat) : Byte := (l >>> (8 * k)).setWidth 8

/-- A line with byte k replaced. -/
def lineSet (l : Line) (k : Nat) (b : Byte) : Line :=
  (l &&& ~~~((255 : Line) <<< (8 * k))) ||| ((b.setWidth 2048) <<< (8 * k))

/-- A line with the bytes of a mask taken from another line. -/
def lineMerge (old new : Line) (mask : LineMask) : Line :=
  (List.range 256).foldl (fun a k => if mask.getLsbD k then lineSet a k (lineByte new k) else a) old

/-- A line with a list of bytes put in from byte k on. -/
def linePut (l : Line) (k : Nat) : List Byte → Line
  | [] => l
  | b :: t => linePut (lineSet l k b) (k + 1) t

/-- A line spelled by its bytes. -/
def lineOf (bs : List Byte) : Line := linePut 0 0 bs

/-- The mask of n bytes from byte k on. -/
def maskOf (k n : Nat) : LineMask := BitVec.ofNat 256 ((2 ^ n - 1) * 2 ^ k)

/-- The sectors of a line in which a mask has a byte. -/
def maskSecs (m : LineMask) : BitVec 4 :=
  BitVec.ofNat 4 ((List.range 4).foldl (fun a s => if bits m (64 * s + 63) (64 * s) = 0 then a else a + 2 ^ s) 0)

/-- The sectors of a line of which a mask has every byte. -/
def maskFull (m : LineMask) : BitVec 4 :=
  BitVec.ofNat 4 ((List.range 4).foldl (fun a s => if bits m (64 * s + 63) (64 * s) = 2 ^ 64 - 1 then a + 2 ^ s else a) 0)

/-- The byte mask of a set of sectors. -/
def secMask (s : BitVec 4) : LineMask :=
  BitVec.ofNat 256 ((List.range 4).foldl (fun a k => if s.getLsbD k then a + (2 ^ 64 - 1) * 2 ^ (64 * k) else a) 0)

/-- The bits that are set, lowest first. -/
def ones {w : Nat} (v : BitVec w) : List Nat := (List.range w).filter (fun k => v.getLsbD k)

/-- How many bits are set. -/
def popc {w : Nat} (v : BitVec w) : Nat := (ones v).length

/-- A list with the elements that meet a test changed. -/
def updWhere {α : Type} (p : α → Bool) (f : α → α) (l : List α) : List α := l.map (fun x => if p x then f x else x)

/-! ### Memories -/

/-- What an unlisted byte of a memory reads as. -/
def Memory.blank (m : Memory) (a : Nat) : Byte := if m.era = 0 then 0 else Config.freeByte m.era a

/-- One byte of a memory. -/
def Memory.get (m : Memory) (a : Nat) : Byte := Tab.get (m.blank a) m.cells a

/-- A memory with one byte written. -/
def Memory.put (m : Memory) (a : Nat) (b : Byte) : Memory :=
  { m with cells := if m.era = 0 ∧ b = 0 then Tab.del m.cells a else Tab.ins (Tab.del m.cells a) a b }

/-- A memory with bytes written from an address on. -/
def Memory.write (m : Memory) : Nat → List Byte → Memory
  | _, [] => m
  | a, b :: t => Memory.write (m.put a b) (a + 1) t

/-- n bytes of a memory from an address on. -/
def Memory.read (m : Memory) (a n : Nat) : List Byte := (List.range n).map (fun k => m.get (a + k))

/-- Whether a unit of a memory is poisoned (sectors of 64 bytes; words of 8 in a block store). -/
def Memory.bad (m : Memory) (u : Nat) : Bool := Tab.get false m.pois u

/-- A memory with a unit's poison set or cleared. -/
def Memory.setBad (m : Memory) (u : Nat) (x : Bool) : Memory := { m with pois := Tab.set false m.pois u x }

/-- The canonical form of a memory: addresses rise, and in era 0 no listed byte is the 0 that an unlisted one reads as. -/
def Memory.wf (m : Memory) : Bool :=
  Tab.rising m.cells && Tab.rising m.pois && (m.era != 0 || m.cells.all (fun c => c.2 != 0)) && m.pois.all (fun c => c.2)

/-- The 256 bytes of a line of a memory. -/
def Memory.line (m : Memory) (l : Nat) : Line := lineOf (m.read (l * 256) 256)

/-- The poison of the four sectors of a line. -/
def Memory.lineBad (m : Memory) (l : Nat) : BitVec 4 :=
  BitVec.ofNat 4 ((List.range 4).foldl (fun a k => if m.bad (4 * l + k) then a + 2 ^ k else a) 0)

/-- A memory with the bytes of a mask written in a line; each sector touched takes its poison bit
(08_memory_stacks.md R216). -/
def Memory.putLine (m : Memory) (l : Nat) (mask : LineMask) (d : Line) (pois : BitVec 4) : Memory :=
  let m1 := (List.range 256).foldl (fun a k => if mask.getLsbD k then a.put (l * 256 + k) (lineByte d k) else a) m
  (ones (maskSecs mask)).foldl
    (fun a k => if pois.getLsbD k then a.setBad (4 * l + k) true
                else if (maskFull mask).getLsbD k then a.setBad (4 * l + k) false else a) m1

/-! ### The numbered parts of the state -/

/-- Block b. -/
def State.blk (s : State) (b : Nat) : Block := Tab.get Block.init s.blocks.blk b
/-- The state with block b replaced. -/
def State.setBlk (s : State) (b : Nat) (x : Block) : State :=
  { s with blocks := { s.blocks with blk := Tab.set Block.init s.blocks.blk b x } }
/-- Thread t of block b. -/
def State.thr (s : State) (b t : Nat) : Thread := Tab.get Thread.init s.blocks.thr (128 * b + t)
/-- The state with thread t of block b replaced. -/
def State.setThr (s : State) (b t : Nat) (x : Thread) : State :=
  { s with blocks := { s.blocks with thr := Tab.set Thread.init s.blocks.thr (128 * b + t) x } }
/-- Physical cell p of a block. -/
def Block.cell (x : Block) (p : Nat) : Cell := Tab.get (Cell.init p) x.cells p
/-- A block with physical cell p replaced. -/
def Block.setCell (x : Block) (p : Nat) (c : Cell) : Block := { x with cells := Tab.set (Cell.init p) x.cells p c }
/-- Block b's cache. -/
def State.bc (s : State) (b : Nat) : BCache := Tab.get BCache.init s.coh.bc b
/-- The state with block b's cache replaced. -/
def State.setBc (s : State) (b : Nat) (x : BCache) : State :=
  { s with coh := { s.coh with bc := Tab.set BCache.init s.coh.bc b x } }
/-- Region r's cache. -/
def State.rc (s : State) (r : Nat) : RCache := Tab.get RCache.init s.coh.rc r
/-- The state with region r's cache replaced. -/
def State.setRc (s : State) (r : Nat) (x : RCache) : State :=
  { s with coh := { s.coh with rc := Tab.set RCache.init s.coh.rc r x } }
/-- Region r's write-combining buffers, oldest line first. -/
def State.wc (s : State) (r : Nat) : List WLine := Tab.get [] s.coh.wc r
/-- The state with region r's write-combining buffers replaced. -/
def State.setWc (s : State) (r : Nat) (x : List WLine) : State :=
  { s with coh := { s.coh with wc := Tab.set [] s.coh.wc r x } }
/-- Memory port p. -/
def State.mport (s : State) (p : Nat) : Port := Tab.get Port.init s.stk.port p
/-- The state with memory port p replaced. -/
def State.setMport (s : State) (p : Nat) (x : Port) : State :=
  { s with stk := { s.stk with port := Tab.set Port.init s.stk.port p x } }
/-- Link group g. -/
def State.lg (s : State) (g : Nat) : LinkGroup := Tab.get LinkGroup.init s.stk.lg g
/-- The state with link group g replaced. -/
def State.setLg (s : State) (g : Nat) (x : LinkGroup) : State :=
  { s with stk := { s.stk with lg := Tab.set LinkGroup.init s.stk.lg g x } }
/-- Region r's map registers. -/
def State.map (s : State) (r : Nat) : MapReg := Tab.get MapReg.init s.stk.map r
/-- The state with region r's map registers replaced. -/
def State.setMap (s : State) (r : Nat) (x : MapReg) : State :=
  { s with stk := { s.stk with map := Tab.set MapReg.init s.stk.map r x } }
/-- Work queue q. -/
def State.q (s : State) (q : Nat) : Queue := Tab.get Queue.init s.que.que q
/-- The state with work queue q replaced. -/
def State.setQ (s : State) (q : Nat) (x : Queue) : State :=
  { s with que := { s.que with que := Tab.set Queue.init s.que.que q x } }
/-- Copy engine e. -/
def State.eng (s : State) (e : Nat) : Engine := Tab.get { pieces := [], bytes := 0 } s.que.eng e
/-- The state with copy engine e replaced. -/
def State.setEng (s : State) (e : Nat) (x : Engine) : State :=
  { s with que := { s.que with eng := Tab.set { pieces := [], bytes := 0 } s.que.eng e x } }
/-- Queue pair n. -/
def State.qp (s : State) (n : Nat) : Qp := Tab.get Qp.init s.net.qp n
/-- The state with queue pair n replaced. -/
def State.setQp (s : State) (n : Nat) (x : Qp) : State :=
  { s with net := { s.net with qp := Tab.set Qp.init s.net.qp n x } }
/-- Interface i. -/
def State.ifc (s : State) (i : Nat) : Ifc := Tab.get Ifc.init s.net.ifc i
/-- The state with interface i replaced. -/
def State.setIfc (s : State) (i : Nat) (x : Ifc) : State :=
  { s with net := { s.net with ifc := Tab.set Ifc.init s.net.ifc i x } }
/-- Collective engine r. -/
def State.ceng (s : State) (r : Nat) : CollEngine := Tab.get CollEngine.init s.col.eng r
/-- The state with collective engine r replaced. -/
def State.setCeng (s : State) (r : Nat) (x : CollEngine) : State :=
  { s with col := { s.col with eng := Tab.set CollEngine.init s.col.eng r x } }
/-- Skim lane l. -/
def State.lane (s : State) (l : Nat) : Lane := Tab.get Lane.init s.skm.lane l
/-- The state with skim lane l replaced. -/
def State.setLane (s : State) (l : Nat) (x : Lane) : State :=
  { s with skm := { s.skm with lane := Tab.set Lane.init s.skm.lane l x } }
/-- Power domain d. -/
def State.dom (s : State) (d : Nat) : Dom := Tab.get Dom.init s.pwr.dom d
/-- The state with power domain d replaced. -/
def State.setDom (s : State) (d : Nat) (x : Dom) : State :=
  { s with pwr := { s.pwr with dom := Tab.set Dom.init s.pwr.dom d x } }
/-- Mailbox 0 (primary) or 1 (secondary). -/
def State.box (s : State) (m : Bool) : Mailbox := Tab.get Mailbox.init s.mail.mb (b2n m)
/-- The state with a mailbox replaced. -/
def State.setBox (s : State) (m : Bool) (x : Mailbox) : State :=
  { s with mail := { s.mail with mb := Tab.set Mailbox.init s.mail.mb (b2n m) x } }
/-- The optical module of port p. -/
def State.modl (s : State) (p : Nat) : Module := Tab.get Module.init s.idn.modl p
/-- The state with the optical module of port p replaced. -/
def State.setModl (s : State) (p : Nat) (x : Module) : State :=
  { s with idn := { s.idn with modl := Tab.set Module.init s.idn.modl p x } }

/-- The state after something is sent. -/
def State.emit (s : State) (e : Emit) : State := { s with sent := s.sent ++ [e] }

/-- The state after a list of things is sent. -/
def State.emits (s : State) (es : List Emit) : State := { s with sent := s.sent ++ es }

/-- The next free value (notes/assumptions 5). -/
def State.freeVal (s : State) : W64 := Config.freeValue s.free

/-- The state after n free values are taken. -/
def State.took (s : State) (n : Nat) : State := { s with free := s.free + n }

/-- A fold of a state over a list. -/
def State.each {α : Type} (s : State) (l : List α) (f : State → α → State) : State := l.foldl f s

/-- The region of a block (01_architecture.md Table 1-1). -/
def regionOf (b : Nat) : Nat := b / 20

/-- The blocks of a region. -/
def blocksOf (r : Nat) : List Nat := (List.range 20).map (fun k => 20 * r + k)

/-- Whether a unit is under a dust sheet of its own. -/
def State.dusted (s : State) (u : DustUnit) : Bool := s.flt.dust.any (fun v => decide (v = u))

/-- Whether region r is under a dust sheet. -/
def State.regionDust (s : State) (r : Nat) : Bool :=
  s.flt.dust.any (fun u => match u with | .region q => q.val == r | _ => false)

/-- Whether block b is under a dust sheet, its own or its region's (15_faults_and_dust_sheets.md R411). -/
def State.blockDust (s : State) (b : Nat) : Bool :=
  s.regionDust (regionOf b) || s.flt.dust.any (fun u => match u with | .block q => q.val == b | _ => false)

/-! ### The memory map -/

/-- 48 GiB: the capacity of one stack (08_memory_stacks.md R210). -/
def stackSize : Nat := 48 * 2 ^ 30

/-- 2 MiB: the page of spread mode. -/
def twoMib : Nat := 2 ^ 21

/-- The capacity of region r (08_memory_stacks.md R219). -/
def State.capacity (s : State) (r : Nat) : Nat := (s.map r).ports.length * stackSize

/-- Where a device offset stands: its region, its region offset, its memory port and its stack offset. -/
structure Place where
  region : Nat
  off : Nat
  port : Nat
  stack : Nat
  deriving DecidableEq, Repr

/-- The slot of a region offset among n ports, and its stack offset (08_memory_stacks.md Table 8-3). -/
def slotOf (n o : Nat) : Nat × Nat :=
  if n = 4 then (Nat.xor (o / 1024 % 4) (o / 4096 % 4), o / 4096 * 1024 + o % 1024)
  else if n = 3 then (o / 1024 % 3, o / 3072 * 1024 + o % 1024)
  else if n = 2 then (Nat.xor (o / 1024 % 2) (o / 2048 % 2), o / 2048 * 1024 + o % 1024)
  else (0, o)

/-- The place of region offset o of region r. -/
def State.placeIn (s : State) (r o : Nat) : Option Place :=
  if o < s.capacity r then
    let ps := (s.map r).ports
    let k := slotOf ps.length o
    some { region := r, off := o, port := 4 * r + ps.getD k.1 0, stack := k.2 }
  else none

/-- The tail of spread mode: the excess of each region over the smallest, in region order (08_memory_stacks.md R221). -/
def State.tail (s : State) (cmin : Nat) : List Nat → Nat → Option (Nat × Nat)
  | [], _ => none
  | r :: rs, t =>
    if t < s.capacity r - cmin then some (r, cmin + t) else s.tail cmin rs (t - (s.capacity r - cmin))

/-- The region and region offset of a device offset (08_memory_stacks.md R220, R221). -/
def State.regionOff (s : State) (a : Nat) : Option (Nat × Nat) :=
  if (s.map 0).spread then
    let cmin := ((List.range 5).map s.capacity).foldl Nat.min (s.capacity 0)
    if a < 5 * cmin then
      let p := a / twoMib
      some ((p + p / 5) % 5, p / 5 * twoMib + a % twoMib)
    else s.tail cmin [0, 1, 2, 3, 4] (a - 5 * cmin)
  else if a < 5 * (4 * stackSize) then some (a / (4 * stackSize), a % (4 * stackSize))
  else none

/-- The place of a device offset, none when it is unpopulated (08_memory_stacks.md R219 to R222). -/
def State.place (s : State) (a : Nat) : Option Place :=
  match s.regionOff a with
  | none => none
  | some (r, o) => s.placeIn r o

/-- The dead target that holds a device offset, if one does (06_memory_ordering.md R172). -/
def State.deadDev (s : State) (a : Nat) : Option DeadTarget :=
  match s.place a with
  | none => none
  | some p =>
    if s.regionDust p.region then some (.region p.region)
    else if (s.mport p.port).state.toNat = 3 then some (.port p.port)
    else none

/-- The dead target that an access meets, if one (06_memory_ordering.md R172). -/
def State.deadAt (s : State) : Target → Option DeadTarget
  | .dev off => s.deadDev off
  | .host _ => none
  | .remote d _ => if (s.qp d.toNat).state = .dead then some (.device d) else none
  | .bstore _ => none

/-! ### Lines and homes -/

/-- A line as a table key. -/
def lkey (l : LineId) : Nat := 2 * l.line.toNat + b2n l.host

/-- The line of a table key. -/
def lineAt (k : Nat) : LineId := { host := k % 2 == 1, line := BitVec.ofNat 56 (k / 2) }

/-- The line that holds a byte of device memory (h false) or host memory. -/
def lineFor (h : Bool) (a : Nat) : LineId := { host := h, line := BitVec.ofNat 56 (a / 256) }

/-- The first region in service from r on, cyclically (07_caches_and_coherence.md R179). -/
def State.nextRegion (s : State) (r : Nat) : Option Nat :=
  ((List.range 5).map (fun k => (r + k) % 5)).find? (fun x => !s.regionDust x)

/-- The region cache that is home for a line, or that holds a host line: none for an unpopulated offset, or a host line
while no region is in service (07_caches_and_coherence.md R179). -/
def State.home (s : State) (l : LineId) : Option Nat :=
  if l.host then s.nextRegion (l.line.toNat % 2 ^ 40 % 5)
  else (s.place (l.line.toNat * 256)).map (fun p => p.region)

/-- A line of a block's cache. -/
def State.bline (s : State) (b : Nat) (l : LineId) : Option BLine := Tab.get none (s.bc b).lines (lkey l)
/-- The state with a line of a block's cache replaced. -/
def State.setBline (s : State) (b : Nat) (l : LineId) (x : Option BLine) : State :=
  s.setBc b { s.bc b with lines := Tab.set none (s.bc b).lines (lkey l) x }
/-- A tag of a region cache. -/
def State.rline (s : State) (r : Nat) (l : LineId) : Option RLine := Tab.get none (s.rc r).lines (lkey l)
/-- The state with a tag of a region cache replaced. -/
def State.setRline (s : State) (r : Nat) (l : LineId) (x : Option RLine) : State :=
  s.setRc r { s.rc r with lines := Tab.set none (s.rc r).lines (lkey l) x }

/-- The memory behind the caches: the stacks, or host memory as the device last saw it. -/
def State.backing (s : State) (host : Bool) : Memory := if host then s.hpt.mem else s.stk.mem
/-- The state with a memory behind the caches replaced. -/
def State.setBacking (s : State) (host : Bool) (m : Memory) : State :=
  if host then { s with hpt := { s.hpt with mem := m } } else { s with stk := { s.stk with mem := m } }

/-- What the home knows of a line without asking an owner: the sectors it holds, and the memory behind it for the
rest. -/
def State.homeLine (s : State) (l : LineId) : Line × BitVec 4 :=
  let m := s.backing l.host
  let base := (m.line l.line.toNat, m.lineBad l.line.toNat)
  match s.home l with
  | none => base
  | some r =>
    match s.rline r l with
    | none => base
    | some e =>
      if e.dirOnly then base
      else (lineMerge base.1 e.data (secMask e.valid), (base.2 &&& ~~~e.valid) ||| (e.pois &&& e.valid))

/-- The blocks whose cache holds sectors of a line in M, of which there is one at most. -/
def State.owners (s : State) (l : LineId) : List Nat :=
  (List.range 100).filter (fun b => match s.bline b l with | some x => x.modi != 0 | none => false)

/-- The value of a line in the coherence order: an owner's written sectors over the home's
(01_architecture.md R22, R23), and which sectors are poisoned: of a dead owner, all of a device line and the written ones of a
host line (07_caches_and_coherence.md Table 7-8). -/
def State.lineNow (s : State) (l : LineId) : Line × BitVec 4 :=
  (s.owners l).foldl (fun v b => match s.bline b l with
    | some x => if s.blockDust b then (v.1, if l.host then v.2 ||| x.modi else 15) else
      (lineMerge v.1 x.data (secMask x.modi), (v.2 &&& ~~~x.modi) ||| (x.pois &&& x.modi))
    | none => v) (s.homeLine l)

/-- Bytes of memory in the coherence order, line by line. -/
def State.cohRead (s : State) (host : Bool) (a n : Nat) : List Byte :=
  (List.range n).map (fun k => lineByte (s.lineNow (lineFor host (a + k))).1 ((a + k) % 256))

/-- Whether a byte range touches a poisoned sector. -/
def State.cohBad (s : State) (host : Bool) (a n : Nat) : Bool :=
  (List.range n).any (fun k => (s.lineNow (lineFor host (a + k))).2.getLsbD ((a + k) % 256 / 64))

/-- Whether a reserved target lies in sectors of a line. -/
def resvHit (l : LineId) (secs : BitVec 4) (g : Target) : Bool :=
  match g with
  | .dev o => !l.host && (o / 256 == l.line.toNat) && secs.getLsbD (o % 256 / 64)
  | .host h => l.host && (h / 256 == l.line.toNat) && secs.getLsbD (h % 256 / 64)
  | _ => false

/-- The reservations of a block's threads on sectors of a line are lost (06_memory_ordering.md R168). -/
def State.loseResv (s : State) (b : Nat) (l : LineId) (secs : BitVec 4) : State :=
  s.each (List.range 128) (fun t k => match (t.thr b k).resv with
    | some g => if resvHit l secs g then t.setThr b k { t.thr b k with resv := none } else t
    | none => t)

/-- Drop blocks' copies of sectors of a line (of all of it for a device line), but that of block keep, with the reservations on
them: what clearing the holders leaves (07_caches_and_coherence.md R188; 06_memory_ordering.md R168). -/
def State.dropCopies (s : State) (l : LineId) (secs : BitVec 4) (keep : Option Nat) : State :=
  s.each (List.range 100) (fun s b =>
    if keep = some b then s
    else match s.bline b l with
      | none => s
      | some x =>
        let gone := if l.host then secs else 15#4
        let v := x.valid &&& ~~~gone
        (s.setBline b l (if v = 0 then none else
          some { x with valid := v, excl := x.excl &&& v, modi := x.modi &&& v, fwd := x.fwd && !(gone == 15#4) })).loseResv b l gone)

/-- Entries of a home's reservation table go, and the writes that it held for them come to it again (07_caches_and_coherence.md
R199). -/
def State.dropHomeResv (s : State) (r : Nat) (p : HomeResv → Bool) : State :=
  let gone := (s.rc r).resv.filter p
  if gone.isEmpty then s
  else (s.setRc r { s.rc r with resv := (s.rc r).resv.filter (fun h => !p h) }).emits (gone.flatMap (fun h => h.held.map .noc))

/-- Reservations of threads, and of the homes' tables, on sectors of a line that a write of another thread meets clear
(06_memory_ordering.md R168; 07_caches_and_coherence.md R199). -/
def State.breakResv (s : State) (l : LineId) (secs : BitVec 4) (by' : Option (Nat × Nat)) : State :=
  let hit : Target → Bool := resvHit l secs
  let s1 := s.each s.blocks.thr (fun s e =>
    if by' = some (e.1 / 128, e.1 % 128) then s
    else match (s.thr (e.1 / 128) (e.1 % 128)).resv with
      | some g => if hit g then s.setThr (e.1 / 128) (e.1 % 128) { s.thr (e.1 / 128) (e.1 % 128) with resv := none } else s
      | none => s)
  s1.each (List.range 5) (fun s r => s.dropHomeResv r (fun h => hit h.sector && !(by' == some (h.b, h.t))))

/-! ### The stack link (08_memory_stacks.md R212 to R216) -/

/-- The module that carries requests to a stack offset: entry L mod m of the modules in service (R212). -/
def LinkGroup.module (g : LinkGroup) (stack : Nat) : Nat :=
  let ms := ones g.modules
  if ms = [] then 0 else ms.getD (stack / 256 % ms.length) 0

/-- The stack offset that a request names. -/
def State.stackOff (s : State) (op : StackOp) : Nat :=
  let at' : Nat → Nat := fun a => match s.place a with | some p => p.stack | none => 0
  match op with
  | .rd64 l k => at' (l * 256 + 64 * k)
  | .rd256 l => at' (l * 256)
  | .wr l _ _ _ => at' (l * 256)
  | .mnt _ _ _ => 0

/-- The lowest tag of a port that no outstanding request carries (R214: 1,024). -/
def Port.freeTag (p : Port) : Option Nat := (List.range 1024).find? (fun t => !p.reqs.any (fun q => q.tag == t))

/-- A numbered request leaves on a port with a free tag, or waits for one (R214). -/
def State.issueStack (s : State) (mp id : Nat) (op : StackOp) : State :=
  let p := s.mport mp
  match p.freeTag with
  | none => s.setMport mp { p with ready := p.ready ++ [(id, op)] }
  | some tag =>
    let m := (s.lg (mp / 2)).module (s.stackOff op)
    let q : StackReq := { id := id, tag := tag, op := op, modl := m, reissued := false, heard := false }
    (s.setMport mp { p with reqs := p.reqs ++ [q] }).emit (.stackReq mp tag (s.stackOff op) op)

/-- A request to a stack: its number in the link group's order of first issue, and the state. -/
def State.stackSend (s : State) (mp : Nat) (op : StackOp) : Nat × State :=
  let g := s.lg (mp / 2)
  (g.serial, (s.setLg (mp / 2) { g with serial := g.serial + 1 }).issueStack mp g.serial op)

/-- Write bytes of a device line to its stack: the write is performed in order (R215), and WACK frees its tag. A line on a
dead port is lost. -/
def State.toStack (s : State) (l : LineId) (mask : LineMask) (d : Line) (pois : BitVec 4) : State :=
  match s.place (l.line.toNat * 256) with
  | none => s
  | some p =>
    if (s.mport p.port).state.toNat = 3 then s
    else
      ((s.setBacking false (s.stk.mem.putLine l.line.toNat mask d pois)).stackSend p.port
        (.wr l.line.toNat mask pois (lineMerge 0 d mask))).2

/-- Bytes of a line go behind the caches: to the stack, or into host memory. -/
def State.putBehind (s : State) (l : LineId) (mask : LineMask) (d : Line) (pois : BitVec 4) : State :=
  if l.host then s.setBacking true (s.hpt.mem.putLine l.line.toNat mask d pois) else s.toStack l mask d pois

/-- Sectors of a line that a block gives back are written at the home: into its data, or behind the caches when it holds none
(07_caches_and_coherence.md R200). -/
def State.putHome (s : State) (l : LineId) (secs : BitVec 4) (d : Line) (pois : BitVec 4) : State :=
  match s.home l with
  | none => s
  | some r => match s.rline r l with
    | some e =>
      if e.dirOnly then s.putBehind l (secMask secs) d pois
      else s.setRline r l (some { e with data := lineMerge e.data d (secMask secs), valid := e.valid ||| secs, dirty := e.dirty ||| secs,
                                         pois := (e.pois &&& ~~~secs) ||| (pois &&& secs) })
    | none => s.putBehind l (secMask secs) d pois

/-! ### Writes at a home -/

/-- Write bytes of a line at its home as one coherent write, once its holders are cleared: the home ends with the new bytes, in
its cache when it holds the line there or else behind the caches (07_caches_and_coherence.md Table 7-5; R216). by' is the
thread that writes, whose block keeps its copy as it was until the completion arrives (R177). -/
def State.cohLine (s : State) (l : LineId) (mask : LineMask) (d : Line) (bad : BitVec 4) (by' : Option (Nat × Nat)) : State :=
  let secs := maskSecs mask
  let now := s.lineNow l
  let whole := maskFull mask
  let nd := lineMerge now.1 d mask
  let np := (now.2 &&& ~~~whole) ||| (bad &&& secs)
  let own : BitVec 4 := if l.host then secs else 15#4
  let s0 := (s.owners l).foldl (fun t b => match t.bline b l with | some x => t.putHome l x.modi x.data x.pois | none => t) s
  let s1 := (s0.dropCopies l secs (by'.map (fun x => x.1))).breakResv l secs by'
  let s2 := match by' with
    | none => s1
    | some (b, _) => match s1.bline b l with
      | none => s1
      | some x => s1.setBline b l (some { x with excl := x.excl &&& ~~~own, modi := x.modi &&& ~~~own })
  match s.home l with
  | none => s2
  | some r =>
    let keep : BitVec 400 := match by' with
      | some (b, _) => if l.host then BitVec.ofNat 400 ((List.range 4).foldl (fun a k => a + 2 ^ (100 * k + b)) 0)
                       else BitVec.ofNat 400 (2 ^ b)
      | none => 0
    let gone : BitVec 400 := if l.host
      then BitVec.ofNat 400 ((ones secs).foldl (fun a k => a + (2 ^ 100 - 1) * 2 ^ (100 * k)) 0) else BitVec.allOnes 400
    match s2.rline r l with
    | some e =>
      let e1 : RLine := { e with pres := (e.pres &&& ~~~gone) ||| (e.pres &&& keep), own := none, fwdr := none }
      if e.dirOnly then (s2.setRline r l (some e1)).putBehind l (secMask secs) nd np
      else
        s2.setRline r l (some { e1 with data := lineMerge e.data nd (secMask secs), valid := e.valid ||| secs,
                                        dirty := e.dirty ||| secs, pois := (e.pois &&& ~~~secs) ||| (np &&& secs),
                                        excl := if l.host then e.excl ||| secs else e.excl })
    | none => s2.putBehind l (secMask secs) nd np

/-- The transaction that blocks a line (07_caches_and_coherence.md R187). -/
def State.txn (s : State) (r : Nat) (l : LineId) : Option Txn := (s.rc r).txns.find? (fun x => x.line == lkey l)

/-- The state with a line's transaction replaced. -/
def State.setTxn (s : State) (r : Nat) (l : LineId) (x : Txn) : State :=
  s.setRc r { s.rc r with txns := updWhere (fun y => y.line == lkey l) (fun _ => x) (s.rc r).txns }

/-- Whether the host is a dead agent for a home (07_caches_and_coherence.md R204, R206). -/
def State.hostGone (s : State) : Bool := s.hpt.hostLost

/-- A back-invalidate snoop goes to the host for a device line, with the device's BI ID (07_caches_and_coherence.md R196;
09_host_port.md R245). -/
def State.biSnoop (s : State) (r : Nat) (inval cur : Bool) (l : LineId) : State :=
  (s.setRc r { s.rc r with bi := (s.rc r).bi ++ [lkey l] }).emit (.biSnp s.hpt.biId inval cur l.line.toNat)

/-- Clear the holders of sectors of a line but a block's own copy: the responses to wait for, and the messages; the host's hold
is cleared too when host is true (07_caches_and_coherence.md R188). -/
def clearWaits (e : RLine) (l : LineId) (secs : BitVec 4) (keep : Option Nat) (host : Bool) : List Expect × List Emit :=
  let has : Nat → Bool := fun b => if l.host then (ones secs).any (fun k => e.pres.getLsbD (100 * k + b)) else e.pres.getLsbD b
  let invs := (List.range 100).filter (fun b => has b && keep != some b && e.own != some b)
  let rec' := match e.own with | some o => if keep = some o then [] else [o] | none => []
  let hostW : List Expect := if host && !l.host && e.hst != 0 then [.host] else []
  (invs.map .inv ++ rec'.map .recall ++ hostW,
   invs.map (fun b => .noc (.snpinv (Fin.ofNat 100 b) l)) ++ rec'.map (fun b => .noc (.recall (Fin.ofNat 100 b) l false)))

/-- A line that a region cache loses, or that a dead agent held, is poisoned at its home: every sector of a device line, the
written ones of a host line; the poison of a line that the home holds no data of goes to the stack. count counts it in CCH_POISONED
(07_caches_and_coherence.md R202, Table 7-8). -/
def State.poisonLine (s : State) (r : Nat) (l : LineId) (secs : BitVec 4) (count : Bool) : State :=
  let s1 := match s.rline r l with
    | some e => if e.dirOnly then s.putBehind l (secMask secs) (s.homeLine l).1 secs
                else s.setRline r l (some { e with valid := e.valid ||| secs, pois := e.pois ||| secs, dirty := e.dirty ||| secs })
    | none => s.putBehind l (secMask secs) (s.homeLine l).1 secs
  if count then s1.setRc r { s1.rc r with poisoned := satAdd (s1.rc r).poisoned 1 } else s1

/-- The host's hold on a device line is recorded (Table 7-3). -/
def State.setHold (s : State) (r : Nat) (l : LineId) (h : BitVec 2) : State :=
  match s.rline r l with
  | some e => s.setRline r l (some { e with hst := h })
  | none => s

/-- A lost host's hold on a line ends: a line that it may have written is poisoned and counted (Table 7-8). -/
def State.freeHold (s : State) (r : Nat) (l : LineId) : State :=
  match s.rline r l with
  | some e => if e.hst = 0 then s else (if e.hst.toNat = 2 then s.poisonLine r l 15 true else s).setHold r l 0
  | none => s

/-- What a home asks of the holders of a line for a request: the messages go out, and the responses to wait for come back. At 64
outstanding back-invalidate snoops the request waits for one of them to end first (R196); a lost host is answered for at
once (R204). -/
def State.askHolders (s : State) (r : Nat) (l : LineId) (inval cur : Bool) (w : List Expect × List Emit) : List Expect × State :=
  if !(w.1.any (fun x => x == .host)) then (w.1, s.emits w.2)
  else if s.hostGone then (w.1.filter (fun x => x != .host), (s.freeHold r l).emits w.2)
  else if (s.rc r).bi.length ≥ 64 then ([.slot], s)
  else (w.1, (s.emits w.2).biSnoop r inval cur l)

/-- A write of one of the device's own units arrives at a line's home: it is performed at once when the line is not blocked and
nobody else holds it, and else it waits there in its turn until its holders are cleared (01_architecture.md R27;
07_caches_and_coherence.md R187, R188). -/
def State.postLine (s : State) (l : LineId) (mask : LineMask) (d : Line) (bad : BitVec 4) : State :=
  match s.home l with
  | none => s.cohLine l mask d bad none
  | some r =>
    let req : HReq := .post mask d bad
    match s.txn r l with
    | some x => s.setTxn r l { x with queued := x.queued ++ [req] }
    | none =>
      let w := match s.rline r l with | some e => clearWaits e l (maskSecs mask) none true | none => ([], [])
      let a := s.askHolders r l true false w
      if a.1 = [] then a.2.cohLine l mask d bad none
      else
        let x : Txn := { line := lkey l, req := req, waits := a.1, asked := false, served := false, fwdData := none, queued := [] }
        a.2.setRc r { a.2.rc r with txns := (a.2.rc r).txns ++ [x] }

/-- Write bytes of host memory over CXL.io: the host's own snoops that its write makes are performed with it, so that no copy in
the device keeps the sectors (notes/assumptions 58). -/
def State.ioLine (s : State) (l : LineId) (mask : LineMask) (d : Line) (bad : BitVec 4) : State :=
  let secs := maskSecs mask
  let now := s.lineNow l
  let np := (now.2 &&& ~~~(maskFull mask)) ||| (bad &&& secs)
  let s1 := ((s.dropCopies l secs none).breakResv l secs none).setBacking true
    (s.hpt.mem.putLine l.line.toNat (secMask secs) (lineMerge now.1 d mask) np)
  match s.home l with
  | none => s1
  | some r => match s1.rline r l with
    | some e => s1.setRline r l (some { e with
        valid := e.valid &&& ~~~secs, excl := e.excl &&& ~~~secs, dirty := e.dirty &&& ~~~secs, pois := e.pois &&& ~~~secs,
        pres := e.pres &&& ~~~(BitVec.ofNat 400 ((ones secs).foldl (fun a k => a + (2 ^ 100 - 1) * 2 ^ (100 * k)) 0)), own := none })
    | none => s1

/-- A range of bytes, line by line: each line, the first byte in it and the bytes that it takes. -/
def linesOf (a : Nat) (bs : List Byte) : List (Nat × Nat × List Byte) :=
  let n := bs.length
  if n = 0 then [] else
  (List.range ((a % 256 + n + 255) / 256)).map (fun k =>
    let lo := if k = 0 then a % 256 else 0
    (a / 256 + k, lo, (bs.drop (if k = 0 then 0 else 256 * k - a % 256)).take (256 - lo)))

/-- Write bytes of one of the device's own units: at the homes of the device lines that they lie in, each line as one coherent
write, or in host memory. bad gives the poisoned sectors of each line. -/
def State.unitWrite (s : State) (host : Bool) (a : Nat) (bs : List Byte) (bad : Nat → BitVec 4) : State :=
  s.each (linesOf a bs) (fun s p =>
    let m := maskOf p.2.1 p.2.2.length
    let d := linePut 0 p.2.1 p.2.2
    let l := lineFor host (p.1 * 256)
    if host then s.ioLine l m d (bad p.1) else s.postLine l m d (bad p.1))

/-- Write bytes that are not poisoned. -/
def State.cohWrite (s : State) (host : Bool) (a : Nat) (bs : List Byte) : State := s.unitWrite host a bs (fun _ => 0)

/-! ### Events and faults -/

/-- An arrival at an event source goes to the event controller (16_stolpel_and_events.md R440). -/
def State.event (s : State) (src : Nat) : State := s.emit (.event src)

/-- A unit reports an event of one of its sources to the fault collector (15_faults_and_dust_sheets.md R397, R398). -/
def State.report (s : State) (g u k : Nat) (detail : W64) : State :=
  s.emit (.fault { g := BitVec.ofNat 4 g, u := BitVec.ofNat 16 u, k := BitVec.ofNat 3 k } 2 s.flt.oclk detail)

/-- A host access that meets no register is logged: code 1 a narrow or misaligned write, 2 a write to a domain that is off
(R12; 09_host_port.md R240). -/
def State.hostLog (s : State) (code : Nat) (addr : Nat) : State := s.report 5 0 0 (BitVec.ofNat 64 (code * 2 ^ 56 + addr))

/-! ### The snag queue (15_faults_and_dust_sheets.md R414 to R416) -/

/-- A snag record before its PHASE is known. -/
structure Rec where
  cls : Nat
  grp : Nat
  kind : Nat
  sev : Nat
  unit : Nat
  rail : Bool
  promoted : Bool
  dust : Bool
  oclk : W64
  addr : W64
  code : Nat
  count : Nat
  aux : List Byte
  deriving DecidableEq, Repr

/-- A record that no fault source raised: GROUP and KIND read 0xF, SEV 0. -/
def State.plainRec (s : State) (cls unit : Nat) (addr : W64) (code count : Nat) (aux : List Byte) : Rec :=
  { cls := cls, grp := 15, kind := 15, sev := 0, unit := unit, rail := false, promoted := false, dust := false,
    oclk := s.flt.oclk, addr := addr, code := code, count := count, aux := aux }

/-- The 64 bytes of a record (Table 15-5). -/
def Rec.bytes (r : Rec) : List Byte :=
  leBytes 1 (r.sev * 16 + r.cls) ++ leBytes 1 (r.grp * 16 + r.kind) ++ leBytes 2 r.unit
    ++ leBytes 1 (b2n r.rail * 128 + b2n r.promoted * 64 + b2n r.dust * 32) ++ leBytes 3 0 ++ leBytes 8 r.oclk.toNat
    ++ leBytes 8 r.addr.toNat ++ leBytes 4 r.code ++ leBytes 4 r.count
    ++ (r.aux ++ List.replicate 32 0).take 32

/-- A record as one number. -/
def Rec.word (r : Rec) : BitVec 512 := BitVec.ofNat 512 (leVal r.bytes)

/-- A record's class, source group and kind, and unit. -/
def recKey (w : BitVec 512) : Nat × Nat × Nat := (bits w 3 0, bits w 15 8, bits w 31 16)

/-- A record with its PHASE. -/
def withPhase (w : BitVec 512) (p : Bool) : BitVec 512 := setBit w 7 p

/-- Whether the ring's home is dead or lost, or closed by a function-level reset, or part of it unpopulated (R414; 09_host_port.md R256). -/
def State.ringDown (s : State) : Bool :=
  if s.snag.ringHost then s.hpt.hostLost || s.hpt.flr
  else
    let b := s.snag.ringBase.toNat
    let n := 64 * 2 ^ s.snag.ringSize
    (List.range (n / 1024 + 1)).any (fun k => (s.place (b + Nat.min (1024 * k) (n - 1))).isNone) ||
      (s.deadDev (b + 64 * s.snag.pi.toNat)).isSome

/-- Whether the ring is full or counts as full (R414). -/
def State.ringFull (s : State) : Bool :=
  !(bit s.snag.ctl 0) || s.ringDown || ((s.snag.pi.toNat + 1) % 2 ^ s.snag.ringSize == s.snag.ci.toNat)

/-- Write a record at slot PI and move PI on (R414). -/
def State.ringWrite (s : State) (w : BitVec 512) : State :=
  let bs := leBytes 64 (withPhase w s.snag.phase).toNat
  let a := s.snag.ringBase.toNat + 64 * s.snag.pi.toNat
  let s1 := if s.snag.ringHost
    then (s.cohWrite true a bs).emit (.mwr a bs false)
    else s.cohWrite false a bs
  let nxt := s.snag.pi.toNat + 1
  let wrap := nxt == 2 ^ s.snag.ringSize
  ({ s1 with snag := { s1.snag with pi := if wrap then 0 else BitVec.ofNat 20 nxt,
                                    phase := if wrap then !s1.snag.phase else s1.snag.phase } }).event 404

/-- A record joins FLT_LAST (Table 15-13). -/
def State.offered (s : State) (w : BitVec 512) : State :=
  { s with flt := { s.flt with last := (w :: s.flt.last).take 16 } }

/-- A record of class c is lost and counted. -/
def State.snagLost (s : State) (c : Nat) : State :=
  { s with snag := { s.snag with lost := Tab.set 0 s.snag.lost c (satAdd (Tab.get 0 s.snag.lost c) 1) } }

/-- Whether a record waits with its thread when it meets a full ring. -/
def threadWaits (w : BitVec 512) (th : Option (Nat × Nat)) : Bool := decide (bits w 3 0 ≤ 3) && th.isSome

/-- A kernel command ends its kernel's work: its tasks that are not placed never start, and an abort goes to each block
that runs one (04_blocks_and_threads.md R115). The first status stays. -/
def State.abortKernel (s : State) (q slot : Nat) (status : Byte) (info : W64) : State :=
  let mine := s.blocks.kernels.filter (fun k => k.q == q && k.slot == slot)
  let s1 := { s with blocks := { s.blocks with kernels := s.blocks.kernels.map (fun (k : Kernel) =>
    if k.q == q && k.slot == slot
    then { k with aborted := true, status := some (k.status.getD status),
                  info := if k.status.isNone then info else k.info }
    else k) } }
  s1.emits ((mine.filter (fun k => !k.aborted)).flatMap (fun (k : Kernel) => k.blocks.map (fun b => .noc (.kernelAbort (Fin.ofNat 100 b)))))

/-- A thread's ending goes on once its record is written: the kernel is aborted (R154, R416). -/
def State.endKernelBy (s : State) (b t : Nat) : State :=
  let th := s.thr b t
  match th.ends, (s.blk b).task with
  | some e, some k =>
    let s1 := s.setThr b t { th with stat := .ended, ends := none }
    s1.abortKernel k.q k.slot 3 (BitVec.ofNat 64 (t * 65536 + b * 256 + e.ecode.toNat))
  | _, _ => s

/-- What follows when a waiting record is written: its thread goes on, when no other record of it waits. -/
def State.recordFreed (s : State) (th : Option (Nat × Nat)) : State :=
  match th with
  | none => s
  | some (b, t) =>
    if s.snag.waits.any (fun x => x.thread == some (b, t)) then s
    else if (s.thr b t).ends.isSome then s.endKernelBy b t
    else if (s.thr b t).stat = .snagWait then s.setThr b t { s.thr b t with stat := .ready }
    else s

/-- Write held and waiting records, oldest first, while the ring has room, at most n of them (R416). -/
def State.snagDrain : Nat → State → State
  | 0, s => s
  | n + 1, s =>
    match s.snag.waits with
    | [] => s
    | w :: rest =>
      if s.ringFull then s
      else
        let s1 := ({ s with snag := { s.snag with waits := rest } }).ringWrite w.record
        State.snagDrain n (s1.recordFreed w.thread)

/-- Offer a record: write it, or let it wait, hold it or count it when the ring is full (R414, R416). th is the thread
that waits with it. -/
def State.offer (s0 : State) (r : Rec) (th : Option (Nat × Nat)) : State :=
  if r.cls = 15 ∧ bit s0.snag.ctl 2 = false then s0
  else
    let s1 := if r.cls = 13 then s0.event 409
              else if r.cls = 14 ∧ (r.code = 2 ∨ r.code = 3 ∨ r.code = 4) then s0.event 410 else s0
    let s := s1.snagDrain s1.snag.waits.length
    let w := r.word
    if s.ringFull = false ∧ s.snag.waits = [] then (s.offered (withPhase w s.snag.phase)).ringWrite w
    else
      let s2 := ((s.offered w).event 405)
      let s3 := { s2 with snag := { s2.snag with overflow := true } }
      if r.cls = 9 ∨ r.cls = 15 then s3.snagLost r.cls
      else if threadWaits w th then
        { s3 with snag := { s3.snag with waits := s3.snag.waits ++ [{ record := w, thread := th, counted := true }] } }
      else if s3.snag.waits.any (fun x => x.thread.isNone && x.counted && recKey x.record == recKey w) then s3.snagLost r.cls
      else
        { s3 with snag := { s3.snag with waits := s3.snag.waits ++ [{ record := w, thread := none, counted := true }] } }

/-! ### Words of a thread -/

/-- General register n of a thread. -/
def Thread.reg (t : Thread) (n : BitVec 6) : W64 := Tab.get 0 t.g n.toNat
/-- A thread with general register n written. -/
def Thread.setReg (t : Thread) (n : BitVec 6) (v : W64) : Thread := { t with g := Tab.set 0 t.g n.toNat v }
/-- Predicate n of a thread. -/
def Thread.pred (t : Thread) (n : BitVec 3) : Bool := t.p.getLsbD n.toNat
/-- A thread with predicate n written. -/
def Thread.setPred (t : Thread) (n : BitVec 3) (v : Bool) : Thread := { t with p := setBit t.p n.toNat v }
/-- Tile descriptor n of a thread. -/
def Thread.desc (t : Thread) (n : BitVec 4) : BitVec 512 := Tab.get 0 t.td n.toNat
/-- A thread with tile descriptor n written. -/
def Thread.setDesc (t : Thread) (n : BitVec 4) (v : BitVec 512) : Thread := { t with td := Tab.set 0 t.td n.toNat v }

/-- A thread with a field of STS0 written (05_veltur_instructions.md Table 5-3). -/
def Thread.sts (t : Thread) (hi lo : Nat) (v : Nat) : Thread := { t with sts0 := setBits t.sts0 hi lo v }

/-- A thread that merges floating-point flags: NV, DZ, OF, UF, NX from bit 4 down (05_veltur_instructions.md Table 5-2). -/
def Thread.flags (t : Thread) (f : BitVec 5) : Thread := { t with fflags := t.fflags ||| f }

/-! ### Exceptions (05_veltur_instructions.md R153 to R155) -/

/-- The exception codes of Table 5-15. -/
inductive Ex where
  | illegalInstruction | illegalOperand | descriptorFault | illegalAddress | misaligned | pageFault | protection
  | dataPoison | cellLost | deadTarget | remoteError | cwDenied | cwUnfenced | trap
  deriving DecidableEq, Repr

/-- The ECODE of an exception. -/
def Ex.code : Ex → Nat
  | .illegalInstruction => 1 | .illegalOperand => 2 | .descriptorFault => 3 | .illegalAddress => 4 | .misaligned => 5
  | .pageFault => 6 | .protection => 7 | .dataPoison => 8 | .cellLost => 9 | .deadTarget => 10 | .remoteError => 11
  | .cwDenied => 12 | .cwUnfenced => 13 | .trap => 14

/-- Whether an exception may be handled in the thread. -/
def Ex.handled : Ex → Bool
  | .dataPoison | .cellLost | .deadTarget | .remoteError | .trap => true
  | _ => false

/-- An exception on its way to a thread: the instruction that raised it, its STS3 value and its logical cell. -/
structure Raised where
  ex : Ex
  ia : W64
  sts3 : W64
  cell : Option (BitVec 4)
  deriving DecidableEq, Repr

/-- The queue command's TAG (11_queues_and_copy.md: word 0 [63:32] of the descriptor). -/
def State.tagOf (s : State) (q slot : Nat) : Nat :=
  match (s.q q).cmds.find? (fun c => c.slot == slot) with
  | some c => bits c.desc 63 32
  | none => 0

/-- The AUX of a thread's record: program address, PASID, queue and TAG (15_faults_and_dust_sheets.md Table 15-6). -/
def State.threadAux (s : State) (b : Nat) (ia : W64) : List Byte :=
  match (s.blk b).task with
  | none => leBytes 8 ia.toNat
  | some k => leBytes 8 ia.toNat ++ leBytes 4 k.pasid.toNat ++ leBytes 4 k.q ++ leBytes 4 (s.tagOf k.q k.slot)

/-- The exception that a late report raises (Table 5-15). -/
def raisedBy : Deferred → Raised
  | .poison ia a => { ex := .dataPoison, ia := ia, sts3 := a, cell := none }
  | .cellPoison ia c => { ex := .dataPoison, ia := ia, sts3 := 0, cell := some c }
  | .cellLost ia c => { ex := .cellLost, ia := ia, sts3 := 0, cell := some c }
  | .deadTarget ia a => { ex := .deadTarget, ia := ia, sts3 := a, cell := none }
  | .remoteError ia a => { ex := .remoteError, ia := ia, sts3 := a, cell := none }
  | .operand ia c => { ex := .illegalOperand, ia := ia, sts3 := 0, cell := some c }

/-- A late report reaches a thread; a wait at a barrier or a semaphore is abandoned (R155), and an END is not complete until
it is delivered (R145). A thread of no task takes none. -/
def State.defer (s : State) (b t : Nat) (e : Deferred) : State :=
  let th := s.thr b t
  let add := fun (x : Thread) => { x with deferred := x.deferred ++ [e] }
  match th.stat with
  | .off => s
  | .ended => s
  | .ending => if th.ends.isSome then s else s.setThr b t (add { th with stat := .ready })
  | .semwait => s.setThr b t (add { th with stat := .ready, sem := none })
  | .barrier n =>
    let bk := s.blk b
    let bar := Tab.get { count := 0, waiting := [] } bk.bars n.toNat
    let left := bar.waiting.filter (fun x => x != t)
    let nb : Barrier := if left = [] then { count := 0, waiting := [] } else { bar with waiting := left }
    (s.setBlk b { bk with bars := Tab.set { count := 0, waiting := [] } bk.bars n.toNat nb }).setThr b t
      (add { th with stat := .ready })
  | _ => s.setThr b t (add th)

/-! ### Stores to dead targets (06_memory_ordering.md R173) -/

/-- The kind and number of a dead target in a record. -/
def DeadTarget.code : DeadTarget → Nat
  | .port p => p * 256
  | .region r => 2 ^ 24 + r * 256
  | .device d => 2 * 2 ^ 24 + d.toNat * 256

/-- A store of a thread to a dead target is discarded: DTP is set, and one record is written at the first discard since the
thread's last fence that reported status; its kernel command learns of it (R167). -/
def State.discard (s : State) (b t : Nat) (d : DeadTarget) (addr : W64) (sectors : Nat) : State :=
  let th := (s.thr b t).sts 40 40 1
  let known := th.recorded.any (fun x => decide (x = d))
  let s1 := s.setThr b t { th with recorded := if known then th.recorded else th.recorded ++ [d] }
  let s2 := match (s1.blk b).task with
    | none => s1
    | some k => { s1 with blocks := { s1.blocks with kernels := s1.blocks.kernels.map (fun x =>
        if x.q == k.q && x.slot == k.slot && x.status.isNone then { x with status := some 1, info := addr } else x) } }
  if known then s2
  else
    let s3 := s2.offer (s2.plainRec 2 b addr (d.code + t) sectors []) (some (b, t))
    if s3.snag.waits.any (fun x => x.thread == some (b, t)) ∧ (s3.thr b t).stat = .ready
    then s3.setThr b t { s3.thr b t with stat := .snagWait } else s3

/-- A kernel command takes a status, if it has none (R167; 11_queues_and_copy.md R292). -/
def State.kernelStatus (s : State) (k : Option (Nat × Nat)) (status : Byte) (info : W64) : State :=
  { s with blocks := { s.blocks with kernels := s.blocks.kernels.map (fun (x : Kernel) =>
      if some (x.q, x.slot) = k ∧ x.status.isNone then { x with status := some status, info := info } else x) } }

/-- A buffered store to a dead target is discarded, its thread's task running or ended (R173). -/
def State.discardOf (s : State) (k : Storer) (d : DeadTarget) (addr : W64) (sectors : Nat) : State :=
  if k.live then s.discard k.b k.t d addr sectors
  else
    let s1 := s.kernelStatus k.kern 1 addr
    if s1.blocks.ghosts.any (fun x => x.1 == 128 * k.b + k.t && decide (x.2 = d)) then s1
    else
      let s2 := { s1 with blocks := { s1.blocks with ghosts := s1.blocks.ghosts ++ [(128 * k.b + k.t, d)] } }
      s2.offer (s2.plainRec 2 k.b addr (d.code + k.t) sectors []) none

/-! ### Commands of a queue (11_queues_and_copy.md R290 to R292, R302) -/

/-- A command of queue q by its ring slot. -/
def State.cmd (s : State) (q slot : Nat) : Option Cmd := (s.q q).cmds.find? (fun c => c.slot == slot)

/-- The state with a command changed. -/
def State.updCmd (s : State) (q slot : Nat) (f : Cmd → Cmd) : State :=
  s.setQ q { s.q q with cmds := updWhere (fun c : Cmd => c.slot == slot) f (s.q q).cmds }

/-- The OPCODE of a command. -/
def Cmd.op (c : Cmd) : Nat := bits c.desc 6 0

/-- A command takes a status, if it has none (R292). -/
def Cmd.fail (st : Byte) (info : W64) (c : Cmd) : Cmd := { c with first := some (c.first.getD (st, info)) }

/-- A command has ended, with the first status that arose. -/
def Cmd.ended (st : Byte) (info : W64) (c : Cmd) : Cmd :=
  { c with stat := .done (c.first.getD (st, info)).1 (c.first.getD (st, info)).2 }

/-- A queue stops, with one of the bits STALE, HOST_LOST, ERROR and DB_ERR (0 to 3) of QUE_STATUS set. -/
def State.stopQ (s : State) (q i : Nat) : State :=
  s.setQ q { s.q q with state := .stopped, bits := setBit (s.q q).bits i true }

/-- A lane that was being armed goes back to DISARMED, and its blocks to the front-end; one that was replacing keeps what it
had. -/
def State.abandonArm (s : State) (q slot : Nat) : State :=
  s.each (List.range 16) (fun t l =>
    let x := t.lane l
    if x.arm ≠ some (q, slot) then t
    else match x.state with
      | .arming =>
        let t1 := t.each (List.range 100) (fun u b => if (u.blk b).reserved = some l then
          u.setBlk b { u.blk b with reserved := none, state := if (u.blk b).state = .skim then .idle else (u.blk b).state } else u)
        t1.setLane l { x with state := .disarmed, lcb := [], qlcb := [], newLcb := [], inSvc := [], reload := [], arm := none }
      | .replacing => t.setLane l { x with state := .armed, newLcb := [], side := 0, arm := none }
      | _ => t.setLane l { x with arm := none })

/-- Whether a packet is one that a member sends for its collective: not a node's RESULT, CLAIM or CONTRIB. -/
def memberPacket (g seq g' seq' what : Nat) : Bool :=
  g == g' && seq == seq' && what % 16 != 2 && what % 16 != 7 && what % 16 != 8

/-- A member sends nothing further for a collective: its packets that have not left are dropped (13_collectives_and_hawk_store.md
R357, R367). -/
def State.hush (s : State) (g seq : Nat) : State :=
  { s with
    net := { s.net with qp := s.net.qp.map (fun e => (e.1, { e.2 with unsent := e.2.unsent.filter (fun x => match x.own with
      | .coll g' seq' w => !memberPacket g seq g' seq' w
      | _ => true) })) },
    col := { s.col with own := s.col.own.filter (fun x => !memberPacket g seq x.group x.seq x.what) } }

/-- A running command is aborted with a status: kernels under R115, copies at their next 4 KiB boundary, WAIT and COLL at once
(Table 11-8; 13_collectives_and_hawk_store.md R367); the others end with that status. -/
def State.abortCmd (s : State) (q : Nat) (st : Byte) (c : Cmd) : State :=
  if c.op = 1 then s.abortKernel q c.slot st 0
  else if c.op = 3 then
    (s.each (List.range 5) (fun t r => ((t.ceng r).members.filter (fun m => m.q == q && m.slot == c.slot)).foldl
      (fun u m => u.hush m.group m.seq.toNat) (t.setCeng r { t.ceng r with
        members := (t.ceng r).members.filter (fun m => !(m.q == q && m.slot == c.slot)) }))).updCmd q c.slot (Cmd.ended st 0)
  else if c.op = 5 then s.updCmd q c.slot (Cmd.ended st 0)
  else if c.op = 10 then (s.abandonArm q c.slot).updCmd q c.slot (Cmd.ended st 0)
  else s.updCmd q c.slot (Cmd.fail st 0)

/-- The address of the semaphore that a command waits for, or acts on: CSEM once its record is written, else ADDR (Tables 11-1, 11-2). -/
def Cmd.semVa (c : Cmd) : W64 := BitVec.ofNat 64 (if c.recorded then bits c.desc 127 64 else bits c.desc 191 128)

/-- Every running command of a queue is aborted. -/
def State.abortCmds (s : State) (q : Nat) (st : Byte) : State :=
  s.each ((s.q q).cmds.filter (fun c => decide (c.stat = .running))) (fun t c => t.abortCmd q st c)

/-- A queue stops with HOST_LOST, and its running commands are aborted (09_host_port.md R261). -/
def State.hostStop (s : State) (q : Nat) : State :=
  if bit (s.q q).bits 1 then s else (s.stopQ q 1).abortCmds q 5

/-! ### The device's own units at a home (01_architecture.md R27) -/

/-- Bytes that a piece has read join its data, the poisoned ones among them marked. -/
def Piece.take (at' : Nat) (bs : List Byte) (bad : List Bool) (p : Piece) : Piece :=
  { p with buf := bs.zipIdx.foldl (fun a x => Tab.set 0 a (at' + x.2) x.1) p.buf,
           spoilt := bad.zipIdx.foldl (fun a x => Tab.set false a (at' + x.2) x.1) p.spoilt }

/-- The state with a piece of an engine changed. -/
def State.editPiece (s : State) (e q slot off : Nat) (f : Piece → Piece) : State :=
  s.setEng e { s.eng e with pieces := updWhere (fun (x : Piece) => x.q == q && x.slot == slot && x.off == off) f (s.eng e).pieces }

/-- A unit's access has had its effect at the home: the bytes that it read, with the poison of each, for place at' of what the unit
collects. -/
def State.unitGot (s : State) (own : Own) (at' : Nat) (bs : List Byte) (bad : List Bool) : State :=
  match own with
  | .piece e q slot off => s.editPiece e q slot off (fun p => { Piece.take at' bs bad p with left := p.left - 1 })
  | .sem q slot => s.updCmd q slot (fun c =>
      if bad.any id then { c with left := 0, first := some (c.first.getD (9, 0)) } else { c with left := 0, val := BitVec.ofNat 64 (leVal bs) })
  | _ => s

/-- A unit's access ends without effect, with a status of Table 11-4. -/
def State.unitFail (s : State) (own : Own) (op : UnitOp) (st : Byte) : State :=
  match own with
  | .piece e q slot off => s.editPiece e q slot off (fun p =>
      { p with left := p.left - 1, bad := some (p.bad.getD (st, match op with | .read _ _ _ => p.src | _ => p.dst)) })
  | .sem q slot =>
    let t := if st = 5 then s.hostStop q else s
    t.updCmd q slot (fun c => { c with left := 0, first := some (c.first.getD (st, if st = 1 then c.semVa else 0)) })
  | _ => s

/-! ### Times -/

/-- Microseconds in OCLK cycles (OCLK runs at 100 MHz, 17_power_clocks_startup.md Table 17-3). -/
def usOclk (n : Nat) : Nat := 100 * n

end Sys2Proof.Machine
end

