-- ==== Sys2Proof/Machine/Crypto.lean ====
section
/-! DEFINITION. The standard functions that the manual names for the fuses, the primer, the firmware and its measurement: CRC-8 (R480),
SHA-384 and ECDSA P-384 (16_stolpel_and_events.md R438; 18_identity_and_optical_modules.md R482). Their definitions are PRESUMED from their
standards (notes/assumptions 10). -/
namespace Sys2Proof.Machine

/-! ### CRC-8 (18_identity_and_optical_modules.md R480) -/

/-- One bit of CRC-8 with polynomial 0x07. -/
def crc8Bit (c : Byte) : Byte := if c.getLsbD 7 then (c <<< 1) ^^^ 0x07 else c <<< 1

/-- CRC-8 of bytes, initial value 0. -/
def crc8 (bs : List Byte) : Byte := bs.foldl (fun c b => (List.range 8).foldl (fun x _ => crc8Bit x) (c ^^^ b)) 0

/-- Whether a serial number's check byte is that of its other bytes, most significant first (R480). -/
def dsnOk (dsn : W64) : Bool := crc8 (((leBytes 8 dsn.toNat).drop 1).reverse) == dsn.setWidth 8

/-! ### SHA-384 -/

/-- The round constants, first half. -/
def shaK1 : List W64 :=
  [0x428A2F98D728AE22, 0x7137449123EF65CD, 0xB5C0FBCFEC4D3B2F, 0xE9B5DBA58189DBBC, 0x3956C25BF348B538,
   0x59F111F1B605D019, 0x923F82A4AF194F9B, 0xAB1C5ED5DA6D8118, 0xD807AA98A3030242, 0x12835B0145706FBE,
   0x243185BE4EE4B28C, 0x550C7DC3D5FFB4E2, 0x72BE5D74F27B896F, 0x80DEB1FE3B1696B1, 0x9BDC06A725C71235,
   0xC19BF174CF692694, 0xE49B69C19EF14AD2, 0xEFBE4786384F25E3, 0x0FC19DC68B8CD5B5, 0x240CA1CC77AC9C65,
   0x2DE92C6F592B0275, 0x4A7484AA6EA6E483, 0x5CB0A9DCBD41FBD4, 0x76F988DA831153B5, 0x983E5152EE66DFAB,
   0xA831C66D2DB43210, 0xB00327C898FB213F, 0xBF597FC7BEEF0EE4, 0xC6E00BF33DA88FC2, 0xD5A79147930AA725,
   0x06CA6351E003826F, 0x142929670A0E6E70, 0x27B70A8546D22FFC, 0x2E1B21385C26C926, 0x4D2C6DFC5AC42AED,
   0x53380D139D95B3DF, 0x650A73548BAF63DE, 0x766A0ABB3C77B2A8, 0x81C2C92E47EDAEE6, 0x92722C851482353B]

/-- The round constants, second half. -/
def shaK2 : List W64 :=
  [0xA2BFE8A14CF10364, 0xA81A664BBC423001, 0xC24B8B70D0F89791, 0xC76C51A30654BE30, 0xD192E819D6EF5218,
   0xD69906245565A910, 0xF40E35855771202A, 0x106AA07032BBD1B8, 0x19A4C116B8D2D0C8, 0x1E376C085141AB53,
   0x2748774CDF8EEB99, 0x34B0BCB5E19B48A8, 0x391C0CB3C5C95A63, 0x4ED8AA4AE3418ACB, 0x5B9CCA4F7763E373,
   0x682E6FF3D6B2B8A3, 0x748F82EE5DEFB2FC, 0x78A5636F43172F60, 0x84C87814A1F0AB72, 0x8CC702081A6439EC,
   0x90BEFFFA23631E28, 0xA4506CEBDE82BDE9, 0xBEF9A3F7B2C67915, 0xC67178F2E372532B, 0xCA273ECEEA26619C,
   0xD186B8C721C0C207, 0xEADA7DD6CDE0EB1E, 0xF57D4F7FEE6ED178, 0x06F067AA72176FBA, 0x0A637DC5A2C898A6,
   0x113F9804BEF90DAE, 0x1B710B35131C471B, 0x28DB77F523047D84, 0x32CAAB7B40C72493, 0x3C9EBE0A15C9BEBC,
   0x431D67C49C100D4C, 0x4CC5D4BECB3E42B6, 0x597F299CFC657E2A, 0x5FCB6FAB3AD6FAEC, 0x6C44198C4A475817]

/-- The initial hash value of SHA-384. -/
def shaInit : List W64 :=
  [0xCBBB9D5DC1059ED8, 0x629A292A367CD507, 0x9159015A3070DD17, 0x152FECD8F70E5939, 0x67332667FFC00B31,
   0x8EB44A8768581511, 0xDB0C2E0D64F98FA7, 0x47B5481DBEFA4FA4]

/-- The number that bytes spell, most significant first. -/
def beVal (bs : List Byte) : Nat := bs.foldl (fun a b => 256 * a + b.toNat) 0

/-- The bytes of a number, most significant first. -/
def beOf (n v : Nat) : List Byte := (leBytes n v).reverse

/-- The message schedule from its last sixteen words, newest first. -/
def shaMore : Nat → List W64 → List W64
  | 0, ws => ws
  | n + 1, ws =>
    let a := ws.getD 14 0
    let b := ws.getD 1 0
    let s0 := a.rotateRight 1 ^^^ a.rotateRight 8 ^^^ (a >>> 7)
    let s1 := b.rotateRight 19 ^^^ b.rotateRight 61 ^^^ (b >>> 6)
    shaMore n ((ws.getD 15 0 + s0 + ws.getD 6 0 + s1) :: ws)

/-- The eighty schedule words of a block. -/
def shaSchedule (block : List Byte) : List W64 :=
  (shaMore 64 (((List.range 16).map (fun k => BitVec.ofNat 64 (beVal ((block.drop (8 * k)).take 8)))).reverse)).reverse

/-- One round. -/
def shaRound (h : List W64) (x : W64 × W64) : List W64 :=
  let v : Nat → W64 := fun k => h.getD k 0
  let s1 := (v 4).rotateRight 14 ^^^ (v 4).rotateRight 18 ^^^ (v 4).rotateRight 41
  let ch := (v 4 &&& v 5) ^^^ (~~~(v 4) &&& v 6)
  let t1 := v 7 + s1 + ch + x.1 + x.2
  let s0 := (v 0).rotateRight 28 ^^^ (v 0).rotateRight 34 ^^^ (v 0).rotateRight 39
  let mj := (v 0 &&& v 1) ^^^ (v 0 &&& v 2) ^^^ (v 1 &&& v 2)
  [t1 + s0 + mj, v 0, v 1, v 2, v 3 + t1, v 4, v 5, v 6]

/-- One block of 128 bytes. -/
def shaBlock (h : List W64) (block : List Byte) : List W64 :=
  List.zipWith (fun a b => a + b) h (((shaK1 ++ shaK2).zip (shaSchedule block)).foldl shaRound h)

/-- The blocks of a padded message, at most n of them. -/
def shaBlocks : Nat → List W64 → List Byte → List W64
  | 0, h, _ => h
  | n + 1, h, bs => if bs.isEmpty then h else shaBlocks n (shaBlock h (bs.take 128)) (bs.drop 128)

/-- A message with its padding. -/
def shaPad (bs : List Byte) : List Byte :=
  bs ++ [0x80] ++ List.replicate ((239 - bs.length % 128) % 128) 0 ++ beOf 16 (8 * bs.length)

/-- The SHA-384 digest of a message: 48 bytes. -/
def sha384 (bs : List Byte) : List Byte :=
  let p := shaPad bs
  ((shaBlocks (p.length / 128) shaInit p).take 6).flatMap (fun w => beOf 8 w.toNat)

/-- A digest as one number, its first byte the least significant. -/
def digestWord (bs : List Byte) : BitVec 384 := BitVec.ofNat 384 (leVal bs)

/-! ### ECDSA P-384 -/

/-- The prime of P-384. -/
def ecP : Nat := 2 ^ 384 - 2 ^ 128 - 2 ^ 96 + 2 ^ 32 - 1
/-- The order of P-384. -/
def ecN : Nat := 0xffffffffffffffffffffffffffffffffffffffffffffffffc7634d81f4372ddf581a0db248b0a77aecec196accc52973
/-- The constant b of P-384. -/
def ecB : Nat := 0xb3312fa7e23ee7e4988e056be3f82d19181d9c6efe8141120314088f5013875ac656398d8a2ed19d2a85c8edd3ec2aef
/-- The base point of P-384. -/
def ecG : Nat × Nat :=
  (0xaa87ca22be8b05378eb1c71ef320ad746e1d3b628ba79b9859f741e082542a385502f25dbf55296c3a545e3872760ab7,
   0x3617de4a96262c6f5d9e98bf9292dc29f8f41dbd289a147ce9da3113b5f0b8c00a60b1ce1d7e819d7a431d7c90ea0e5f)

/-- A power modulo m, over n bits of the exponent. -/
def powMod (m x e n : Nat) : Nat :=
  (List.range n).foldl (fun a k => let s := a * a % m; if e.testBit (n - 1 - k) then s * x % m else s) 1

/-- The inverse modulo a prime. -/
def invMod (m x : Nat) : Nat := powMod m (x % m) (m - 2) 384

/-- The sum of two points; none is the point at infinity. -/
def ecAdd (a b : Option (Nat × Nat)) : Option (Nat × Nat) :=
  match a, b with
  | none, q => q
  | p, none => p
  | some (x1, y1), some (x2, y2) =>
    if x1 = x2 ∧ (y1 + y2) % ecP = 0 then none
    else
      let l := if x1 = x2 then (3 * x1 * x1 + (ecP - 3)) * invMod ecP (2 * y1) % ecP
        else (y2 + (ecP - y1)) * invMod ecP (x2 + (ecP - x1)) % ecP
      let x := (l * l + (ecP - x1) + (ecP - x2)) % ecP
      some (x, (l * (x1 + (ecP - x)) + (ecP - y1)) % ecP)

/-- A multiple of a point. -/
def ecMul (k : Nat) (p : Option (Nat × Nat)) : Option (Nat × Nat) :=
  (List.range 384).foldl (fun a i => let d := ecAdd a a; if k.testBit (383 - i) then ecAdd d p else d) none

/-- Whether (r, s) is the signature of a digest under a public key. -/
def ecdsaOk (x y r s : Nat) (digest : List Byte) : Bool :=
  let onCurve := decide (x < ecP) && decide (y < ecP) && decide (y * y % ecP = (x * x * x + (ecP - 3) * x + ecB) % ecP)
  if !onCurve || r = 0 || s = 0 || decide (r ≥ ecN) || decide (s ≥ ecN) then false
  else
    let w := invMod ecN s
    match ecAdd (ecMul (beVal digest * w % ecN) (some ecG)) (ecMul (r * w % ecN) (some (x, y))) with
    | none => false
    | some q => q.1 % ecN == r

end Sys2Proof.Machine
end

