-- ==== Sys2Proof/Machine/Flags.lean ====
section
/-! DEFINITION. The floating-point flags and the completion codes (02_formats_and_coats.md Table 2-6; 05_veltur_instructions.md
Table 5-16). -/
namespace Sys2Proof.Machine

/-- NV: invalid. -/
def fNV : BitVec 5 := 16
/-- DZ: division by zero. -/
def fDZ : BitVec 5 := 8
/-- OF: overflow. -/
def fOF : BitVec 5 := 4
/-- UF: underflow. -/
def fUF : BitVec 5 := 2
/-- NX: inexact. -/
def fNX : BitVec 5 := 1

/-- A flag that is set when a condition holds. -/
def flagIf (c : Bool) (f : BitVec 5) : BitVec 5 := if c then f else 0

/-- The completion code of a fence or semaphore instruction: the higher row of Table 5-16 wins. dead is DTP or the
instruction's own dead target, refused is REP. -/
def codeOf (dead refused late : Bool) : Nat := if dead then 1 else if refused then 2 else if late then 3 else 0

/-- A fence that reports status writes CODE and clears DTP and REP, and the dead targets that it has reported are new again
(05_veltur_instructions.md R146; 06_memory_ordering.md R173). -/
def Thread.report (t : Thread) (late dead : Bool) : Thread :=
  let code := codeOf (bit t.sts0 40 || dead) (bit t.sts0 39) late
  { ((t.sts 7 0 code).sts 40 40 0).sts 39 39 0 with recorded := [] }

end Sys2Proof.Machine
end

