-- ==== Sys2Proof/Machine/Float.lean ====
section
/-! DEFINITION. The number formats, and exact arithmetic rounded once (02_formats_and_coats.md R35 to R53). Every finite value is a
dyadic number, so one rounding function serves every unit. -/
namespace Sys2Proof.Machine

/-- A finite value: (−1)^neg × m × 2^e. A zero keeps its sign. -/
structure Dy where
  neg : Bool
  m : Nat
  e : Int
  deriving DecidableEq, Repr

/-- A value of a format. -/
inductive Val where
  | nan (signalling : Bool)
  | inf (neg : Bool)
  | num (d : Dy)
  deriving DecidableEq, Repr

/-- A number format (Table 2-1): its width, exponent bits, significand bits and bias; whether it has infinities and NaNs; the
significand of its largest finite value at its top exponent; whether it is an integer format. -/
structure Fmt where
  w : Nat
  eb : Nat
  mb : Nat
  bias : Int
  hasInf : Bool
  hasNan : Bool
  int : Bool
  deriving DecidableEq, Repr

/-- FP32. -/
def fp32 : Fmt := { w := 32, eb := 8, mb := 23, bias := 127, hasInf := true, hasNan := true, int := false }
/-- FP16. -/
def fp16 : Fmt := { w := 16, eb := 5, mb := 10, bias := 15, hasInf := true, hasNan := true, int := false }
/-- BF16. -/
def bf16 : Fmt := { w := 16, eb := 8, mb := 7, bias := 127, hasInf := true, hasNan := true, int := false }
/-- FP8 E4M3. -/
def e4m3 : Fmt := { w := 8, eb := 4, mb := 3, bias := 7, hasInf := false, hasNan := true, int := false }
/-- FP8 E5M2. -/
def e5m2 : Fmt := { w := 8, eb := 5, mb := 2, bias := 15, hasInf := true, hasNan := true, int := false }
/-- FP6 E3M2. -/
def e3m2 : Fmt := { w := 6, eb := 3, mb := 2, bias := 3, hasInf := false, hasNan := false, int := false }
/-- FP6 E2M3. -/
def e2m3 : Fmt := { w := 6, eb := 2, mb := 3, bias := 1, hasInf := false, hasNan := false, int := false }
/-- FP4 E2M1. -/
def e2m1 : Fmt := { w := 4, eb := 2, mb := 1, bias := 1, hasInf := false, hasNan := false, int := false }
/-- INT8. -/
def int8 : Fmt := { w := 8, eb := 0, mb := 0, bias := 0, hasInf := false, hasNan := false, int := true }
/-- INT4. -/
def int4 : Fmt := { w := 4, eb := 0, mb := 0, bias := 0, hasInf := false, hasNan := false, int := true }

/-- The format of a code (03_tensor_cells.md Table 3-2); none for a reserved code. -/
def fmtOf : Nat → Option Fmt
  | 0 => some fp32 | 1 => some fp16 | 2 => some bf16 | 3 => some e4m3 | 4 => some e5m2 | 5 => some e3m2 | 6 => some e2m3
  | 7 => some e2m1 | 8 => some int8 | 9 => some int4 | _ => none

/-- The element formats of MX blocks (R40). -/
def isMx (code : Nat) : Bool := decide (3 ≤ code ∧ code ≤ 7)

/-- The value of a code (R35 to R39). -/
def decodeVal (f : Fmt) (c : Nat) : Val :=
  if f.int then
    let v := sext f.w (c % 2 ^ f.w)
    .num { neg := decide (v < 0), m := v.natAbs, e := 0 }
  else
    let s := c / 2 ^ (f.w - 1) % 2 == 1
    let e := c / 2 ^ f.mb % 2 ^ f.eb
    let m := c % 2 ^ f.mb
    let top := e == 2 ^ f.eb - 1
    if top && f.hasInf && m == 0 then .inf s
    else if top && f.hasInf then .nan (f.w ≥ 16 && m / 2 ^ (f.mb - 1) == 0)
    else if top && f.hasNan && m == 2 ^ f.mb - 1 then .nan false
    else if e == 0 then .num { neg := s, m := m, e := 1 - f.bias - f.mb }
    else .num { neg := s, m := 2 ^ f.mb + m, e := (e : Int) - f.bias - f.mb }

/-- The canonical NaN of a format (Table 2-2). -/
def canonNan (f : Fmt) : Nat :=
  if f.hasInf then (2 ^ f.eb - 1) * 2 ^ f.mb + 2 ^ (f.mb - 1) else 2 ^ (f.w - 1) - 1
/-- The infinity of a format. -/
def infCode (f : Fmt) (neg : Bool) : Nat := b2n neg * 2 ^ (f.w - 1) + (2 ^ f.eb - 1) * 2 ^ f.mb
/-- The largest finite value of a format, by its code (Table 2-2). -/
def maxCode (f : Fmt) (neg : Bool) : Nat :=
  if f.int then (if neg then 2 ^ (f.w - 1) else 2 ^ (f.w - 1) - 1)
  else b2n neg * 2 ^ (f.w - 1) +
    (if f.hasInf then (2 ^ f.eb - 1) * 2 ^ f.mb - 1 else if f.hasNan then 2 ^ (f.w - 1) - 2 else 2 ^ (f.w - 1) - 1)

/-- The exponent of a non-zero magnitude: floor(log2). -/
def topExp (m : Nat) (e : Int) : Int := e + Nat.log2 m

/-- A magnitude on the grid of steps 2^q: the count of steps, and whether it is inexact. Mode 0 rounds to nearest even, 1
toward zero, 2 by the random number u (R46, R48). -/
def onGrid (mode u : Nat) (m : Nat) (e q : Int) : Nat × Bool :=
  if q ≤ e then (m * 2 ^ (e - q).toNat, false)
  else
    let s := (q - e).toNat
    let lo := m / 2 ^ s
    let r := m % 2 ^ s
    let up : Bool :=
      if mode = 0 then decide (2 * r > 2 ^ s) || (2 * r == 2 ^ s && lo % 2 == 1)
      else if mode = 2 then decide (2 ^ 16 * r / 2 ^ s > u)
      else false
    (if up then lo + 1 else lo, r != 0)

/-- Whether n × 2^q is larger than m × 2^e. -/
def magGt (n : Nat) (q : Int) (m : Nat) (e : Int) : Bool :=
  let b := if q ≤ e then q else e
  decide (n * 2 ^ (q - b).toNat > m * 2 ^ (e - b).toNat)

/-- The rounding mode that acts: stochastic rounding serves only the narrow formats (R47). -/
def modeFor (f : Fmt) (rnd : Nat) : Nat := if rnd = 2 ∧ f.w ≥ 16 then 0 else rnd

/-- Whether a conversion to a format under a rounding field draws a random number (R47, R49). -/
def draws (f : Fmt) (rnd : Nat) : Bool := decide (rnd = 2 ∧ f.w < 16)

/-- Round a finite value into a format: its code and its flags (R46 to R53). rnd is the rounding field, sat the overflow
field, u the random number of a stochastic rounding. -/
def roundTo (f : Fmt) (rnd : Nat) (sat : Bool) (u : Nat) (d : Dy) : Nat × BitVec 5 :=
  let mode := modeFor f rnd
  if d.m = 0 then (if f.int then 0 else b2n d.neg * 2 ^ (f.w - 1), 0)
  else if f.int then
    let r := onGrid mode u d.m d.e 0
    let lim := if d.neg then 2 ^ (f.w - 1) else 2 ^ (f.w - 1) - 1
    if r.1 > lim then (maxCode f d.neg, fOF ||| fNX)
    else (if d.neg then (2 ^ f.w - r.1) % 2 ^ f.w else r.1, flagIf r.2 fNX)
  else
    let top := topExp d.m d.e
    let emin : Int := 1 - f.bias
    let qu := top - f.mb
    let q := if top < emin then emin - f.mb else qu
    let r := onGrid mode u d.m d.e q
    let ru := onGrid mode u d.m d.e qu
    let sign := b2n d.neg * 2 ^ (f.w - 1)
    let big := match decodeVal f (maxCode f false) with | .num x => magGt r.1 q x.m x.e | _ => false
    if big then
      (if sat || mode = 1 then maxCode f d.neg
       else if f.hasInf then infCode f d.neg
       else if f.hasNan then canonNan f
       else maxCode f d.neg, fOF ||| fNX)
    else
      let tiny := !(magGt ru.1 qu 1 emin) && !(decide (ru.1 * 2 ^ (qu - Min.min qu emin).toNat = 2 ^ (emin - Min.min qu emin).toNat))
      let ef := (q + f.mb + f.bias - 1).toNat
      (sign + (if r.1 = 0 then 0 else ef * 2 ^ f.mb + r.1), flagIf r.2 fNX ||| flagIf (tiny && r.2) fUF)

/-- Convert a value into a format, special values by Table 2-5. -/
def convert (f : Fmt) (rnd : Nat) (sat : Bool) (u : Nat) (v : Val) : Nat × BitVec 5 :=
  match v with
  | .num d => roundTo f rnd sat u d
  | .nan s => if f.hasNan then (canonNan f, flagIf s fNV) else (0, fNV)
  | .inf n =>
    if f.hasInf then (infCode f n, 0)
    else if f.hasNan then (if sat then maxCode f n else canonNan f, fNV)
    else (maxCode f n, fNV)

/-! ### Exact operations -/

/-- Signed mantissa. -/
def Dy.sm (d : Dy) : Int := if d.neg then -(d.m : Int) else d.m

/-- The exact sum: of opposite signs an exact zero is +0, of two zeros of one sign that zero (R43). -/
def Dy.add (a b : Dy) : Dy :=
  let e := if a.e ≤ b.e then a.e else b.e
  let s := a.sm * 2 ^ (a.e - e).toNat + b.sm * 2 ^ (b.e - e).toNat
  if s = 0 then { neg := a.neg && b.neg, m := 0, e := e } else { neg := decide (s < 0), m := s.natAbs, e := e }

/-- The exact product. -/
def Dy.mul (a b : Dy) : Dy := { neg := a.neg != b.neg, m := a.m * b.m, e := a.e + b.e }

/-- A value that is NaN. -/
def Val.isNan : Val → Bool
  | .nan _ => true
  | _ => false
/-- A signalling NaN. -/
def Val.isSig : Val → Bool
  | .nan s => s
  | _ => false
/-- The sign of a value. -/
def Val.negv : Val → Bool
  | .nan _ => false
  | .inf n => n
  | .num d => d.neg
/-- A zero. -/
def Val.isZero : Val → Bool
  | .num d => d.m == 0
  | _ => false

/-- A NaN operand gives the canonical NaN, and a signalling one NV (R44). -/
def nanOut (vs : List Val) : Option (Val × BitVec 5) :=
  if vs.any Val.isNan then some (.nan false, flagIf (vs.any Val.isSig) fNV) else none

/-- The product before rounding, with the flags of its special cases (R43, R44). -/
def mulV (a b : Val) : Val × BitVec 5 :=
  match nanOut [a, b] with
  | some r => r
  | none =>
    match a, b with
    | .num x, .num y => (.num (x.mul y), 0)
    | x, y => if x.isZero || y.isZero then (.nan false, fNV) else (.inf (x.negv != y.negv), 0)

/-- The sum before rounding. -/
def addV (a b : Val) : Val × BitVec 5 :=
  match nanOut [a, b] with
  | some r => r
  | none =>
    match a, b with
    | .num x, .num y => (.num (x.add y), 0)
    | .inf n, .inf k => if n = k then (.inf n, 0) else (.nan false, fNV)
    | .inf n, _ => (.inf n, 0)
    | _, y => (y, 0)

/-- The negated value. -/
def negV : Val → Val
  | .nan s => .nan s
  | .inf n => .inf (!n)
  | .num d => .num { d with neg := !d.neg }

/-- a × b + c before rounding. A product 0 × ∞ sets NV whatever c is (R44). -/
def fmaV (a b c : Val) : Val × BitVec 5 :=
  let p := mulV a b
  let r := addV p.1 c
  (r.1, p.2 ||| r.2)

/-- The quotient, exact but for a sticky last bit that keeps its rounding right (R44, R128, R78). -/
def divV (a b : Val) : Val × BitVec 5 :=
  match nanOut [a, b] with
  | some r => r
  | none =>
    let n := a.negv != b.negv
    match a, b with
    | .inf _, .inf _ => (.nan false, fNV)
    | .inf _, _ => (.inf n, 0)
    | .num _, .inf _ => (.num { neg := n, m := 0, e := 0 }, 0)
    | .num x, .num y =>
      if y.m = 0 then (if x.m = 0 then (.nan false, fNV) else (.inf n, fDZ))
      else if x.m = 0 then (.num { neg := n, m := 0, e := 0 }, 0)
      else
        let k := x.m * 2 ^ 64
        (.num { neg := n, m := 2 * (k / y.m) + b2n (k % y.m != 0), e := x.e - y.e - 65 }, 0)
    | x, _ => (x, 0)

/-- The integer square root, bit by bit from bit n − 1 down. -/
def isqrt (v : Nat) : Nat → Nat → Nat
  | 0, r => r
  | n + 1, r => isqrt v n (if (r + 2 ^ n) * (r + 2 ^ n) ≤ v then r + 2 ^ n else r)

/-- The square root, with a sticky last bit (R44). -/
def sqrtV (a : Val) : Val × BitVec 5 :=
  match nanOut [a] with
  | some r => r
  | none =>
    match a with
    | .num x =>
      if x.m = 0 then (a, 0)
      else if x.neg then (.nan false, fNV)
      else
        let k : Nat := if (x.e - 64) % 2 = 0 then 64 else 65
        let v := x.m * 2 ^ k
        let r := isqrt v 48 0
        (.num { neg := false, m := 2 * r + b2n (r * r != v), e := (x.e - k) / 2 - 1 }, 0)
    | .inf n => if n then (.nan false, fNV) else (a, 0)
    | _ => (a, 0)

/-- A value before rounding becomes a code of a format; the flags of both add up. -/
def finish (f : Fmt) (rnd : Nat) (sat : Bool) (r : Val × BitVec 5) : Nat × BitVec 5 :=
  let c := convert f rnd sat 0 r.1
  (c.1, c.2 ||| r.2)

/-! ### Comparisons (R45) -/

/-- The order of two values that are not NaN: less, with −0 equal to +0. -/
def ltV (a b : Val) : Bool :=
  match a, b with
  | .num x, .num y =>
    let e := if x.e ≤ y.e then x.e else y.e
    decide (x.sm * 2 ^ (x.e - e).toNat < y.sm * 2 ^ (y.e - e).toNat)
  | .inf n, .inf k => n && !k
  | .inf n, _ => n
  | _, .inf k => !k
  | _, _ => false

/-- Equality of two values that are not NaN. -/
def eqV (a b : Val) : Bool := !(ltV a b) && !(ltV b a)

/-- The floating-point compare conditions (05_veltur_instructions.md Table 5-8). -/
def fpCond (c : Nat) (a b : Val) : Bool :=
  let un := a.isNan || b.isNan
  match c with
  | 0 => !un && eqV a b
  | 1 => un || !(eqV a b)
  | 2 => !un && ltV a b
  | 3 => !un && !(ltV b a)
  | 4 => !un && ltV b a
  | 5 => !un && !(ltV a b)
  | 6 => un
  | _ => !un

/-- NV of a comparison, minimum or maximum: a signalling NaN operand. -/
def cmpFlags (a b : Val) : BitVec 5 := flagIf (a.isSig || b.isSig) fNV

/-- Minimum (mx false) or maximum: a NaN gives the canonical NaN, and −0 is below +0. -/
def minMax (mx : Bool) (a b : Val) : Val :=
  if a.isNan || b.isNan then .nan false
  else
    let less := ltV a b || (eqV a b && a.negv && !b.negv)
    if less != mx then a else b

/-! ### MX blocks (R40, R41) -/

/-- The value of an MX element under its scale code. -/
def mxVal (f : Fmt) (c scale : Nat) : Val :=
  if scale = 255 then .nan false
  else match decodeVal f c with
    | .num d => .num { d with e := d.e + (scale : Int) - 127 }
    | v => v

/-- The exponent of the largest normal value of an MX element format. -/
def emaxOf (f : Fmt) : Int :=
  match decodeVal f (maxCode f false) with
  | .num d => topExp d.m d.e
  | _ => 0

/-- The larger of two magnitudes. -/
def maxMag (a b : Dy) : Dy := if magGt b.m b.e a.m a.e then b else a

/-- Quantise 32 values to an MX block: the scale code, the element codes and the flags. us are the draws. -/
def mxQuantise (f : Fmt) (rnd : Nat) (us : List Nat) (vs : List Val) : Nat × List Nat × BitVec 5 :=
  let fin : List Dy := vs.filterMap (fun v => match v with | .num d => some d | _ => none)
  if fin.length ≠ vs.length then (255, vs.map (fun _ => 0), fNV)
  else
    let amax := fin.foldl maxMag { neg := false, m := 0, e := 0 }
    if amax.m = 0 then (0, fin.map (fun d => b2n d.neg * 2 ^ (f.w - 1)), 0)
    else
      let x0 := topExp amax.m amax.e - emaxOf f
      let x := if x0 < -127 then -127 else x0
      let rs := (List.range fin.length).map (fun i =>
        let d := fin.getD i { neg := false, m := 0, e := 0 }
        roundTo f rnd true (us.getD i 0) { d with e := d.e - x })
      ((x + 127).toNat, rs.map (fun r => r.1), rs.foldl (fun a r => a ||| (r.2 &&& ~~~fOF)) 0)

/-! ### The lane generators (R49) -/

/-- The generator of lane i after seeding. -/
def laneSeed (seed : W32) (i : Nat) : W32 :=
  let s := seed + BitVec.ofNat 32 (i * 0x9E3779B9)
  if s = 0 then 1 else s

/-- One step of a lane generator. -/
def laneStep (s : W32) : W32 :=
  let a := s ^^^ (s <<< 13)
  let b := a ^^^ (a >>> 17)
  b ^^^ (b <<< 5)

/-- The state of a cell's lane. -/
def Cell.lane (c : Cell) (i : Nat) : W32 := Tab.get (laneSeed c.seed i) c.gens i

/-- A draw in lane i of a cell. -/
def Cell.draw (c : Cell) (i : Nat) : Nat × Cell :=
  let s := laneStep (c.lane i)
  (bits s 31 16, { c with gens := Tab.set (laneSeed c.seed i) c.gens i s })

/-- Draws in a list of lanes, in order. -/
def Cell.drawAll (c : Cell) (lanes : List Nat) : List Nat × Cell :=
  lanes.foldl (fun r i => let d := r.2.draw i; (r.1 ++ [d.1], d.2)) ([], c)

/-! ### A K-slice (03_tensor_cells.md R72, R73) -/

/-- The exponent of the largest non-zero term. -/
def sliceTop (ts : List Dy) : Option Int :=
  ts.foldl (fun a d => if d.m = 0 then a else match a with
    | none => some (topExp d.m d.e)
    | some x => some (if topExp d.m d.e > x then topExp d.m d.e else x)) none

/-- A term truncated toward zero at a bit weight: its signed count of steps, and whether a non-zero bit was discarded. -/
def truncTerm (q : Int) (d : Dy) : Int × Bool :=
  let r := onGrid 1 0 d.m d.e q
  (if d.neg then -(r.1 : Int) else r.1, r.2)

/-- The sum of a K-slice, rounded once to FP32. zeros are the unsplit products' signed zeros and the like: terms whose only
use is the sign of a sum of zeros. flags are those of the products. -/
def kslice (rnd : Nat) (sat : Bool) (ts : List Val) (flags : BitVec 5) : Nat × BitVec 5 :=
  if ts.any Val.isNan then (canonNan fp32, flags ||| flagIf (ts.any Val.isSig) fNV)
  else
    let pos := ts.any (fun t => match t with | .inf false => true | _ => false)
    let neg := ts.any (fun t => match t with | .inf true => true | _ => false)
    if pos && neg then (canonNan fp32, flags ||| fNV)
    else if pos || neg then (infCode fp32 neg, flags)
    else
      let ds := ts.filterMap (fun t => match t with | .num d => some d | _ => none)
      match sliceTop ds with
      | none => (if !ds.isEmpty && ds.all (fun d => d.neg) then 2 ^ 31 else 0, flags)
      | some e =>
        let q := e - 50
        let rs := ds.map (truncTerm q)
        let s := rs.foldl (fun a r => a + r.1) (0 : Int)
        if s = 0 then (0, flags ||| fNX)
        else
          let r := roundTo fp32 rnd sat 0 { neg := decide (s < 0), m := s.natAbs, e := q }
          (r.1, r.2 ||| flags ||| flagIf (rs.any (fun x => x.2)) fNX)

/-! ### The approximations (03_tensor_cells.md R78, R79; notes/assumptions 9) -/

/-- A power of two. -/
def isPow2 (m : Nat) : Bool := m != 0 && 2 ^ Nat.log2 m == m

/-- Whether a dyadic product p is within 2^-k of 1, relative to 1: |p − 1| ≤ 2^-k. -/
def nearOne (p : Dy) (k : Nat) : Bool :=
  let d := p.add { neg := true, m := 1, e := 0 }
  !(magGt d.m d.e 1 (-(k : Int)))

/-- The free value where it keeps the bound; else the correctly rounded one, which does. -/
def bounded (ok : Dy → Bool) (free rounded : Nat) : Nat :=
  match decodeVal fp32 free with
  | .num d => if !d.neg && ok d then free else rounded
  | _ => rounded

/-- VRCP of a finite non-zero magnitude m × 2^e: 1 / a, exact for a power of two; else a free value within 2^-22. -/
def rcpMag (sat : Bool) (neg : Bool) (m : Nat) (e : Int) : Nat × BitVec 5 :=
  if isPow2 m then roundTo fp32 0 sat 0 { neg := neg, m := 1, e := -(topExp m e) }
  else
    let q := 2 ^ 64 / m
    let r := roundTo fp32 0 sat 0 { neg := neg, m := 2 * q + 1, e := -e - 65 }
    if r.2 &&& fOF = fOF then r
    else
      let arg := b2n neg * 2 ^ 31 + (roundTo fp32 1 true 0 { neg := false, m := m, e := e }).1
      let v := bounded (fun d => nearOne (d.mul { neg := false, m := m, e := e }) 22)
        (Config.vrcp (BitVec.ofNat 32 arg)).toNat (r.1 % 2 ^ 31)
      (b2n neg * 2 ^ 31 + v % 2 ^ 31, r.2)

/-- VRCP (R78). -/
def rcpV (sat : Bool) (a : Val) : Nat × BitVec 5 :=
  match a with
  | .nan s => (canonNan fp32, flagIf s fNV)
  | .inf n => (b2n n * 2 ^ 31, 0)
  | .num d => if d.m = 0 then (infCode fp32 d.neg, fDZ) else rcpMag sat d.neg d.m d.e

/-- 1 / √(m × 2^e), rounded to nearest: its code. -/
def rsqRounded (m : Nat) (e : Int) : Nat :=
  let odd := e % 2 != 0
  let r := isqrt (2 ^ 128 / (if odd then 2 * m else m)) 66 0
  (roundTo fp32 0 true 0 { neg := false, m := 2 * r + 1, e := -65 - (if odd then e - 1 else e) / 2 }).1

/-- Whether p = (v √a)² says that v is within a relative error of 2^-22 of 1 / √a: (1 − 2^-22)² ≤ p ≤ (1 + 2^-22)². -/
def nearOneSq (p : Dy) : Bool :=
  !(magGt ((2 ^ 22 - 1) * (2 ^ 22 - 1)) (-44) p.m p.e) && !(magGt p.m p.e ((2 ^ 22 + 1) * (2 ^ 22 + 1)) (-44))

/-- VRSQ (R78): 1 / √a, exact for a power of four; else a free value within 2^-22. -/
def rsqV (a : Val) : Nat × BitVec 5 :=
  match a with
  | .nan s => (canonNan fp32, flagIf s fNV)
  | .inf n => if n then (canonNan fp32, fNV) else (0, 0)
  | .num d =>
    if d.m = 0 then (infCode fp32 d.neg, fDZ)
    else if d.neg then (canonNan fp32, fNV)
    else
      let t := topExp d.m d.e
      if isPow2 d.m && t % 2 = 0 then roundTo fp32 0 true 0 { neg := false, m := 1, e := -(t / 2) }
      else
        let arg := (roundTo fp32 1 true 0 d).1
        let v := bounded (fun x => nearOneSq ((x.mul x).mul d)) (Config.vrsq (BitVec.ofNat 32 arg)).toNat (rsqRounded d.m d.e)
        (v % 2 ^ 31, fNX)

/-- A free result clamped between two codes of non-negative FP32 values, whose order is that of their codes. -/
def clampCode (lo hi v : Nat) : Nat := if v < lo then lo else if v > hi then hi else v

/-- The code of 2^n in FP32 for n from −149 to 127, 0 below that and the largest finite value above. -/
def pow2Code (n : Int) : Nat :=
  if n < -149 then 0 else if n > 127 then maxCode fp32 false else (roundTo fp32 0 true 0 { neg := false, m := 1, e := n }).1

/-- An overflow of an exponential (R50, Table 2-3). -/
def expOverflow (sat : Bool) : Nat × BitVec 5 := (if sat then maxCode fp32 false else infCode fp32 false, fOF ||| fNX)

/-- The integer part, toward minus infinity, of a finite value. -/
def floorV (d : Dy) : Int :=
  if 0 ≤ d.e then d.sm * 2 ^ d.e.toNat else d.sm / 2 ^ (-d.e).toNat

/-- ln 2 in steps of 2^-160, from the series Σ 1 / (k 2^k). -/
def ln2Fix : Nat := (List.range 170).foldl (fun s k => s + 2 ^ 160 / ((k + 1) * 2 ^ (k + 1))) 0

/-- e^r for 0 ≤ r < 1, argument and result in steps of 2^-160, from the series Σ r^k / k!. -/
def expFix (r : Nat) : Nat :=
  ((List.range 45).foldl (fun (a : Nat × Nat) k => let t := a.1 * r / ((k + 1) * 2 ^ 160); (t, a.2 + t)) (2 ^ 160, 2 ^ 160)).2

/-- The exact 2^a up to a relative error far below the bound of R79. -/
def exactExp2 (d : Dy) : Dy :=
  let n := floorV d
  let f : Int := if 0 ≤ d.e then 0 else d.sm * 2 ^ 160 / 2 ^ (-d.e).toNat - n * 2 ^ 160
  { neg := false, m := expFix (f.toNat * ln2Fix / 2 ^ 160), e := n - 160 }

/-- The exact e^a up to a relative error far below the bound of R79. -/
def exactExp (d : Dy) : Dy :=
  let a : Int := if 0 ≤ d.e then d.sm * 2 ^ d.e.toNat * 2 ^ 160 else d.sm * 2 ^ 160 / 2 ^ (-d.e).toNat
  let n := a / (ln2Fix : Int)
  { neg := false, m := expFix (a - n * ln2Fix).toNat, e := n - 160 }

/-- The codes that R79 allows around an exact result x: the least and the greatest. The error is at most 2^-22 of the result
where that is normal, and 2^-149 below. -/
def expBound (x : Dy) : Nat × Nat :=
  let err : Dy := if topExp x.m x.e < -126 then { neg := false, m := 1, e := -149 } else { x with e := x.e - 22 }
  let low := x.add { err with neg := true }
  (if low.neg || low.m = 0 then 0 else (roundTo fp32 1 true 0 low).1 + 1, (roundTo fp32 1 true 0 (x.add err)).1)

/-- A free result held inside R79's bound around x and between the results that R79 states exactly on both sides: both bounds never
decrease from an operand to a greater one, and neither does the result. -/
def expFree (x : Dy) (lo hi v : Nat) : Nat := clampCode lo hi (clampCode (expBound x).1 (expBound x).2 v)

/-- The value at an operand of a function that goes up by one at each of its steps: operands are numbered from the lowest to the
greatest. -/
def stepsAt (steps : List Nat) (neg : Bool) (mag : Nat) : Nat :=
  (steps.filter (fun k => decide (k ≤ if neg then 2 ^ 31 - mag else 2 ^ 31 + mag))).length

/-- VEXP2 (R79): exact at the integers from −149 to 127, and between them a free value inside the bound that keeps to the exact
values on both sides; 2 to the lowest finite value is +0 (R83). -/
def exp2V (sat : Bool) (a : Val) : Nat × BitVec 5 :=
  match a with
  | .nan _ => (canonNan fp32, 0)
  | .inf n => (if n then 0 else infCode fp32 false, 0)
  | .num d =>
    if d.m = 0 then (pow2Code 0, 0)
    else
      let n := if topExp d.m d.e > 12 then (if d.neg then -5000 else 5000) else floorV d
      let whole := decide (0 ≤ d.e) || d.m % 2 ^ (-d.e).toNat == 0
      if n ≥ 128 then expOverflow sat
      else if d.neg && decide ((roundTo fp32 1 true 0 { d with neg := false }).1 = maxCode fp32 false) then (0, fNX ||| fUF)
      else if whole && decide (-149 ≤ n) then (pow2Code n, 0)
      else
        let v := stepsAt Config.vexp2 d.neg (roundTo fp32 1 true 0 { d with neg := false }).1
        (if n < -150 then clampCode 0 1 v else expFree (exactExp2 d) (pow2Code n) (pow2Code (n + 1)) v, fNX ||| flagIf (decide (n < -126)) fUF)

/-- VEXP (R79): 1 for 0; else a free value inside the bound and on the right side of 1. The limits are those of the exact
result: e^a reaches 2^128 from 0x42B17218 on, and lies below 2^-126 from −(0x42AEAC50) down; from −128 down it lies below
2^-150. -/
def expV (sat : Bool) (a : Val) : Nat × BitVec 5 :=
  match a with
  | .nan _ => (canonNan fp32, 0)
  | .inf n => (if n then 0 else infCode fp32 false, 0)
  | .num d =>
    if d.m = 0 then (pow2Code 0, 0)
    else
      let c := (roundTo fp32 1 true 0 { d with neg := false }).1
      let v := stepsAt Config.vexp d.neg c
      if d.neg then
        (if topExp d.m d.e ≥ 7 then clampCode 0 1 v else expFree (exactExp d) 0 (pow2Code 0) v, fNX ||| flagIf (decide (c ≥ 0x42AEAC50)) fUF)
      else if c ≥ 0x42B17218 then expOverflow sat
      else (expFree (exactExp d) (pow2Code 0) (maxCode fp32 false) v, fNX)

end Sys2Proof.Machine
end

