-- ==== Sys2Proof/Machine/Xlate.lean ====
section
/-! DEFINITION. How an address becomes a target: the classes of Table 10-1, the translation caches, the mirror tables, the
requests to the host, and tree pseudo-LRU replacement, which the caches share (10_translation.md). -/
namespace Sys2Proof.Machine

/-! ### Tree pseudo-LRU (PRESUMED, notes/assumptions 20): node n's bit names the half that the next victim is in -/

/-- The tree after way w of 2^lv is used: every node on its path points away from it. -/
def plruTouch : Nat → Nat → Nat → Nat → Nat
  | 0, _, _, tree => tree
  | lv + 1, node, w, tree =>
    let b := w / 2 ^ lv % 2
    let cleared := if tree / 2 ^ node % 2 = 1 then tree - 2 ^ node else tree
    plruTouch lv (2 * node + b) w (cleared + (1 - b) * 2 ^ node)

/-- The victim way under a node: the half that the bit names, or the other when no way of it is in service. -/
def plruVictim (ok : Nat → Bool) (tree : Nat) : Nat → Nat → Nat → Nat
  | 0, _, base => base
  | lv + 1, node, base =>
    let b := tree / 2 ^ node % 2
    let h := 2 ^ lv
    let live := (List.range h).any (fun k => ok (base + b * h + k))
    let c := if live then b else 1 - b
    plruVictim ok tree lv (2 * node + c) (base + c * h)

/-! ### Address classes (R265) -/

/-- The class of an address. -/
inductive AddrClass where
  | virt (mirror : Bool)
  | local' (off : Nat)
  | other (dev : W16) (off : Nat)
  | refused
  deriving DecidableEq, Repr

/-- The aperture's base (Table 10-7). -/
def State.gbase (s : State) : Nat := bits s.xlt.gctl 49 32 * 2 ^ 30

/-- 960 GiB: the device memory of every stack. -/
def allMem : Nat := 960 * 2 ^ 30

/-- A global address that names this device is a local offset (R266); the collective space of another device is refused
(13_collectives_and_hawk_store.md R358). -/
def State.globalAt (s : State) (va : W64) : AddrClass :=
  let d := BitVec.ofNat 16 (bits va 61 46)
  if d = s.xlt.devnum then .local' (bits va 45 0) else if bits va 45 44 = 3 then .refused else .other d (bits va 45 0)

/-- The class of an address for a PASID (Table 10-1). -/
def State.classOf (s : State) (pasid : BitVec 20) (va : W64) : AddrClass :=
  let a := va.toNat
  let ap := decide (s.gbase ≤ a) && decide (a < s.gbase + allMem)
  let low := decide (a < 2 ^ 47)
  if bit s.xlt.gctl 0 then
    if pasid.toNat = bits s.xlt.gctl 27 8 then
      if ap then .local' (a - s.gbase)
      else if low then .virt false
      else if bits va 63 62 = 3 then s.globalAt va
      else .refused
    else if ap then .refused
    else if low then .virt false
    else .refused
  else if ap || low then .virt true
  else .refused

/-! ### Configuration bits that translation reads (notes/assumptions 13) -/

/-- Cache_Enable of CXL Control. -/
def State.cacheEnable (s : State) : Bool := bit s.hpt.cfg.cxlctl 0
/-- Enable of the ATS capability. -/
def State.atsEnable (s : State) : Bool := bit s.hpt.cfg.atsctl 15
/-- Enable of the PRI capability. -/
def State.priEnable (s : State) : Bool := bit s.hpt.cfg.prictl 0
/-- Stopped of PRI Status. -/
def State.priStopped (s : State) : Bool := bit s.hpt.cfg.pristatus 8

/-- Whether a host address lies in the range of a committed decoder of this device (R270). -/
def State.ownHdm (s : State) (hpa : Nat) : Bool :=
  (List.range 4).any (fun n =>
    let d := Tab.get Hdm.init s.hpt.hdm n
    d.committed && decide (d.base.toNat ≤ hpa) && decide (hpa < d.base.toNat + d.size.toNat))

/-! ### Contexts and mirror tables (R271, R275) -/

/-- A context entry: a malformed or absent one tells its cause (Table 10-6). -/
inductive Ctx where
  | word (w : W64)
  | cause (c : Nat)
  deriving DecidableEq, Repr

/-- Bytes of device memory that a table walk reads: none when they are poisoned, unpopulated or at a dead target. -/
def State.tableRead (s : State) (a n : Nat) : Option Nat :=
  if (s.place a).isNone || (s.deadDev a).isSome || s.cohBad false a n then none else some (leVal (s.cohRead false a n))

/-- The reserved bits of a context entry (Table 10-3). -/
def ctxRsv (w : W64) : Bool := bits w 63 46 != 0 || bits w 11 4 != 0

/-- The context of a PASID in a translation unit: held, or read from the table (R271). -/
def State.ctxOf (s : State) (unit : Nat) (pasid : BitVec 20) : Ctx :=
  if Nat.pow 2 (Nat.min (bits s.xlt.ctxBase 4 0) 20) ≤ pasid.toNat then .cause 8
  else
    let judge : W64 → Ctx := fun w => if bit w 0 = false then .cause 8 else if ctxRsv w then .cause 7 else .word w
    match s.xlt.ctx.find? (fun x => x.1 == unit && decide (x.2.1 = pasid)) with
    | some x => judge x.2.2
    | none =>
      match s.tableRead (bits s.xlt.ctxBase 45 12 * 4096 + 16 * pasid.toNat) 16 with
      | none => .cause 12
      | some v => if v / 2 ^ 64 = 0 then judge (BitVec.ofNat 64 v)
                  else if v % 2 = 0 then .cause 8 else .cause 7

/-- The state with a context held by its unit, once it has been read: the word that a malformed second word goes with is held with a
reserved bit set. -/
def State.holdCtx (s : State) (unit : Nat) (pasid : BitVec 20) : State :=
  if s.xlt.ctx.any (fun x => x.1 == unit && decide (x.2.1 = pasid)) ∨ Nat.pow 2 (Nat.min (bits s.xlt.ctxBase 4 0) 20) ≤ pasid.toNat then s
  else match s.tableRead (bits s.xlt.ctxBase 45 12 * 4096 + 16 * pasid.toNat) 16 with
    | none => s
    | some v =>
      let w : W64 := BitVec.ofNat 64 v
      { s with xlt := { s.xlt with ctx := s.xlt.ctx ++ [(unit, pasid, if v / 2 ^ 64 = 0 then w else setBit w 63 true)] } }

/-- What a mirror walk ends with. -/
inductive Walk where
  | leaf (member : Nat) (off : Nat) (log2 : Nat) (w : Bool)
  | miss
  | cause (c : Nat)
  deriving DecidableEq, Repr

/-- One level of a mirror walk from a table, and the levels below it (R275, Table 10-5). -/
def State.mirrorWalk (s : State) (va : W64) : Nat → Nat → Walk
  | 0, _ => .cause 7
  | n + 1, table =>
    let lo := 12 + 9 * (n + 1)
    match s.tableRead (table + 8 * bits va (lo + 8) lo) 8 with
    | none => .cause 12
    | some v =>
      let e : W64 := BitVec.ofNat 64 v
      if bit e 0 = false then .miss
      else if bit e 1 = false then
        if bits e 63 46 != 0 || bits e 11 2 != 0 || n = 0 then .cause 7
        else s.mirrorWalk va n (bits e 45 12 * 4096)
      else
        let m := bits e 48 46
        let off := bits e 45 21 * twoMib
        if bits e 63 49 != 0 || bits e 20 3 != 0 || n ≥ 2 || (n = 1 && bits e 29 21 != 0) ||
            bit (Tab.get 0 s.xlt.member m) 31 = false then .cause 7
        else .leaf m off (lo + 0) (bit e 2)

/-! ### Translation caches (R267, R268) -/

/-- A requester's micro-TLB: block b, or copy engine e at 100 + e. -/
def State.unitOf (s : State) (u : Nat) : Nat :=
  if u < 100 then u / 20 else ((s.nextRegion ((u - 100) % 5)).getD ((u - 100) % 5))

/-- Whether an entry translates an address. -/
def Tlb.hits (e : Tlb) (pasid : BitVec 20) (va : W64) : Bool :=
  decide (e.pasid = pasid) && decide (e.page.toNat / 2 ^ e.log2 = va.toNat / 2 ^ e.log2)

/-- The target of an address under an entry whose target is that of its page. -/
def Tlb.target (e : Tlb) (va : W64) : Target :=
  let o := va.toNat % 2 ^ e.log2
  match e.tgt with
  | .dev a => .dev (a + o)
  | .host a => .host (a + o)
  | .remote d a => .remote d (a + o)
  | .bstore a => .bstore (a + o)

/-- The set of a translation unit that a page of a size stands in (R268). -/
def tlbSet (va : W64) (log2 : Nat) : Nat := va.toNat / 2 ^ log2 % 512

/-- A translation unit's entry for an address: all three sizes are probed. -/
def State.tlbFind (s : State) (unit : Nat) (pasid : BitVec 20) (va : W64) : Option Tlb :=
  ([12, 21, 30].flatMap (fun l => (Tab.get [] s.xlt.tlb (512 * unit + tlbSet va l)).filter
    (fun e => e.log2 == l))).find? (fun e => e.hits pasid va)

/-- An entry enters a translation unit: the entry of its victim way leaves, with every micro-TLB copy (R268). -/
def State.tlbFill (s : State) (unit : Nat) (e : Tlb) : State :=
  let k := 512 * unit + tlbSet e.page e.log2
  let old := Tab.get [] s.xlt.tlb k
  let tree := (Tab.get 0 s.xlt.tree k).toNat
  let free := (List.range 8).find? (fun w => !old.any (fun x => x.way == w))
  let w := free.getD (plruVictim (fun _ => true) tree 3 1 0)
  let out := old.filter (fun x => x.way == w)
  let keep := old.filter (fun x => x.way != w)
  let t2 := BitVec.ofNat 8 (plruTouch 3 1 w tree)
  let same : Tlb → Bool := fun x => out.any (fun y => decide (x.pasid = y.pasid) && decide (x.page = y.page) && x.log2 == y.log2)
  { s with xlt := { s.xlt with
    tlb := Tab.set [] s.xlt.tlb k (keep ++ [{ e with way := w }]), tree := Tab.set 0 s.xlt.tree k t2,
    micro := (s.xlt.micro.map (fun m => if s.unitOf m.1 = unit then (m.1, m.2.filter (fun x => !same x)) else m)).filter
      (fun m => !m.2.isEmpty) } }

/-- A translation unit's way is used. -/
def State.tlbTouch (s : State) (unit : Nat) (e : Tlb) : State :=
  let k := 512 * unit + tlbSet e.page e.log2
  { s with xlt := { s.xlt with
    tree := Tab.set 0 s.xlt.tree k (BitVec.ofNat 8 (plruTouch 3 1 e.way (Tab.get 0 s.xlt.tree k).toNat)) } }

/-- An entry becomes the most recent of a micro-TLB of 64 (R267). -/
def State.microFill (s : State) (u : Nat) (e : Tlb) : State :=
  let old := (Tab.get [] s.xlt.micro u).filter (fun x => !(decide (x.pasid = e.pasid) && decide (x.page = e.page) && x.log2 == e.log2))
  { s with xlt := { s.xlt with micro := Tab.set [] s.xlt.micro u (({ e with way := 0 } :: old).take 64) } }

/-! ### The lookup -/

/-- What the lookup of an address gives. -/
inductive Look where
  | hit (g : Target) (w : Bool)
  | refused
  | absent (cause : Nat) (pri : Bool)
  | ask
  deriving DecidableEq, Repr

/-- Whether a requester reaches host memory over CXL.io, which Cache_Enable does not govern: a copy engine, or the queue
front-end (R247; 09_host_port.md Table 9-8). -/
def ioUnit (u : Nat) : Bool := decide (100 ≤ u) && decide (u ≤ 116)

/-- Why an entry's target is not used: host memory is absent while Cache_Enable is 0 (R247), and a range of this device's own
decoders is never reached through the host (R270). -/
def State.unusable (s : State) (u : Nat) : Target → Option Nat
  | .host h => if s.ownHdm h then some 6 else if s.cacheEnable || ioUnit u then none else some 11
  | _ => none

/-- A local offset is checked against the populated space (R222, R266). -/
def State.localLook (s : State) (off : Nat) (w : Bool) : Look :=
  if (s.place off).isSome then .hit (.dev off) w else .refused

/-- Where a context lets a lookup go on that no cache answered (R267 steps 3 and 4). -/
def State.lookPast (s : State) (unit : Nat) (pasid : BitVec 20) (va : W64) (mirror : Bool) : Look × Option Tlb :=
  match s.ctxOf unit pasid with
  | .cause c => (.absent c false, none)
  | .word c =>
    let rest : Look :=
      if !(bit c 2 && s.atsEnable) then .absent 1 true
      else if s.hpt.hostLost then .absent 10 false
      else .ask
    if mirror && bit c 1 then
      match s.mirrorWalk va 3 (bits c 45 12 * 4096) with
      | .cause k => (.absent k false, none)
      | .miss => (rest, none)
      | .leaf m off l w =>
        let n := BitVec.ofNat 16 (bits (Tab.get 0 s.xlt.member m) 15 0)
        let tgt : Target := if n = s.xlt.devnum then .dev off else .remote n off
        let e : Tlb := { pasid := pasid, page := BitVec.ofNat 64 (va.toNat / 2 ^ l * 2 ^ l), log2 := l, tgt := tgt, w := w,
                         mirror := true, way := 0 }
        match e.target va with
        | .dev o => (s.localLook o w, if (s.place o).isSome then some e else none)
        | g => (.hit g w, some e)
    else (rest, none)

/-- Look an address up for a requester u: what it gives, and the state with the caches that the lookup filled (R265 to
R271). -/
def State.lookup (s : State) (u : Nat) (pasid : BitVec 20) (va : W64) : Look × State :=
  match s.classOf pasid va with
  | .refused => (.refused, s)
  | .local' off => (s.localLook off true, s)
  | .other d off => (.hit (.remote d off) true, s)
  | .virt mirror =>
    let unit := s.unitOf u
    let use : Tlb → State → Look × State := fun e t =>
      match t.unusable u (e.target va) with
      | some k => (.absent k false, t)
      | none => match e.target va with
        | .dev o => (t.localLook o e.w, t)
        | g => (.hit g e.w, t)
    match (Tab.get [] s.xlt.micro u).find? (fun e => e.hits pasid va) with
    | some e => use e (s.microFill u e)
    | none =>
      match s.tlbFind unit pasid va with
      | some e => use e ((s.tlbTouch unit e).microFill u e)
      | none =>
        let s1 := s.holdCtx unit pasid
        match s.lookPast unit pasid va mirror with
        | (r, none) => (r, s1)
        | (r, some e) => (r, (s1.tlbFill unit e).microFill u e)

/-! ### Waiting on translation (R267, R272) -/

/-- Who asks for a translation, and what for; pri tells that it may send a page request (R274). -/
structure Want where
  unit : Nat
  who : Waiter
  pasid : BitVec 20
  va : W64
  write : Bool
  fetch : Bool
  tries : Nat
  pri : Bool := true
  deriving DecidableEq, Repr

/-- What becomes of an access's translation. -/
inductive XOut where
  | ok (g : Target) (s : State)
  | refused
  | denied
  | fault (cause : Nat) (s : State)
  | wait (page : Bool) (s : State)
  | hold

/-- The 4 KiB page of an address. -/
def pageOf (va : W64) : W64 := BitVec.ofNat 64 (va.toNat / 4096 * 4096)

/-- The translations that came for one access alone, of those who meet a test, are forgotten (R247, R270). -/
def State.forgetOnce (s : State) (p : Waiter → Bool) : State :=
  { s with xlt := { s.xlt with once := s.xlt.once.filter (fun x => !p x.1) } }

/-- An access joins the ATS request for its page, or sends one (R267). -/
def State.askAts (s : State) (w : Want) : State :=
  let pg := pageOf w.va
  let unit := s.unitOf w.unit
  if s.xlt.ats.any (fun x => decide (x.pasid = w.pasid) && decide (x.page = pg) && x.unit == unit) then
    { s with xlt := { s.xlt with
      ats := updWhere (fun x : AtsReq => decide (x.pasid = w.pasid) && decide (x.page = pg) && x.unit == unit)
        (fun x => { x with waiters := x.waiters ++ [w.who] }) s.xlt.ats } }
  else
    let r : AtsReq := { pasid := w.pasid, page := pg, unit := unit, waiters := [w.who], stale := false }
    let s1 : State := { s with xlt := { s.xlt with ats := s.xlt.ats ++ [r] } }
    s1.emit (.atsReq w.pasid pg)

/-- The lowest free page request group index (notes/assumptions 21). -/
def State.freeIdx (s : State) : Option Nat :=
  (List.range 512).find? (fun i => !(s.xlt.pri.any (fun r => r.idx == i)) && !(s.xlt.burnt.any (fun j => j == i)))

/-- Why the page of an access that waited stays untranslated. -/
def State.pageNo (s : State) (w : Want) : Option Nat :=
  (s.xlt.refusedPages.find? (fun x => decide (x.who = w.who) && decide (x.pasid = w.pasid) && decide (x.page = pageOf w.va))).map
    (fun x => x.cause.toNat)

/-- The access that waited has taken note. -/
def State.forgetPage (s : State) (w : Want) : State :=
  { s with xlt := { s.xlt with refusedPages := s.xlt.refusedPages.filter (fun x => decide (x.who ≠ w.who)) } }

/-- An untranslated access sends its page request, or waits on one that covers it (R272, R273): none when no index is
free. True when it sends one of its own. -/
def State.askPage (s : State) (w : Want) : Option (Bool × State) :=
  let pg := pageOf w.va
  let covers : PageReq → Bool := fun r => decide (r.pasid = w.pasid) && decide (r.page = pg) && (r.wr || !w.write)
  let s0 := s.forgetPage w
  if s0.xlt.pri.any covers then
    some (false, { s0 with xlt := { s0.xlt with
      pri := updWhere covers (fun r => { r with waiters := r.waiters ++ [w.who] }) s0.xlt.pri } })
  else match s0.freeIdx with
    | none => none
    | some i =>
      let r : PageReq :=
        { idx := i, pasid := w.pasid, page := pg, wr := w.write, fetch := w.fetch, addr := w.va, waiters := [w.who] }
      let s1 : State := { s0 with xlt := { s0.xlt with pri := s0.xlt.pri ++ [r] } }
      some (true, s1.emit (.pageReq i w.pasid pg w.write))

/-- The PRI bit of a PASID's context. -/
def State.priAllowed (s : State) (unit : Nat) (pasid : BitVec 20) : Bool :=
  match s.ctxOf unit pasid with
  | .word c => bit c 3
  | .cause _ => false

/-- Whether the cause of an untranslated access lets it send a page request: not an entry that is absent or unreadable (R271, R275), nor
this device's own memory (R270), nor a lost host (R273). -/
def causeAsks (cause : Nat) : Bool := cause == 1 || cause == 7 || cause == 9 || cause == 11

/-- An access that no step of the lookup translates: a page request, where the context and the PRI capability allow one, or
the fault of its cause (R272, R273). From a Response Failure until Enable is set again the cause is PRI_STOPPED. -/
def State.untranslated (t : State) (w : Want) (cause : Nat) : XOut :=
  if w.pri && causeAsks cause && t.priAllowed (t.unitOf w.unit) w.pasid && (t.priEnable || t.priStopped) then
    if t.priStopped then .fault 5 (t.forgetPage w)
    else if w.tries ≥ 4 then .fault 3 (t.forgetPage w)
    else if t.hpt.flr then .hold
    else match t.askPage w with
      | some (mine, t2) => .wait mine t2
      | none => .hold
  else .fault cause (t.forgetPage w)

/-- Whether an access already waits for its page: on an ATS request or on a page request. -/
def State.xltWaits (s : State) (w : Want) : Bool :=
  s.xlt.ats.any (fun x => decide (x.pasid = w.pasid) && decide (x.page = pageOf w.va) && x.waiters.any (fun y => decide (y = w.who))) ||
    s.xlt.pri.any (fun x => decide (x.pasid = w.pasid) && decide (x.page = pageOf w.va) && x.waiters.any (fun y => decide (y = w.who)))

/-- Translate an address for an access (R265 to R274). -/
def State.translate (s : State) (w : Want) : XOut :=
  let no := s.pageNo w
  if s.xltWaits w then .wait false s
  else match s.xlt.once.find? (fun x => decide (x.1 = w.who) && x.2.hits w.pasid w.va) with
  | some x => if w.write && !x.2.w then .denied else .ok (x.2.target w.va) s
  | none =>
  if no = some 3 ∨ no = some 4 ∨ no = some 10 then .fault (no.getD 3) (s.forgetPage w)
  else
    match s.lookup w.unit w.pasid w.va with
    | (.hit g wr, t) => if w.write && !wr then .denied else .ok g (t.forgetPage w)
    | (.refused, _) => .refused
    | (.ask, t) => (match no with
      | some c => t.untranslated w c
      | none => if s.hpt.flr then .hold else .wait false (t.askAts w))
    | (.absent c _, t) => t.untranslated w c

/-- A translation failure that reaches a thread or a copy engine counts and writes its record (R283). req is REQUESTER; more follows the PASID (04_blocks_and_threads.md R113). -/
def State.xltRecord (s : State) (pasid : BitVec 20) (va : W64) (access cause req unit : Nat) (th : Option (Nat × Nat))
    (more : List Byte := []) : State :=
  let s1 := { s with xlt := { s.xlt with faults := satAdd s.xlt.faults 1 } }
  s1.offer (s1.plainRec 1 unit va (cause * 2 ^ 28 + access * 2 ^ 24 + req) 0 (leBytes 4 pasid.toNat ++ more)) th

end Sys2Proof.Machine
end

