-- ==== Sys2Proof/Machine/Coherence.lean ====
section
/-! DEFINITION. The operations of the caches and the homes: what a block cache holds, how a region cache allocates and gives
lines up, how a home takes a request, waits for its responses and serves it (07_caches_and_coherence.md). -/
namespace Sys2Proof.Machine

/-! ### Region caches: ways (R178, R179, R200 to R203) -/

/-- Whether a way of a set is in service: neither disabled, failed, nor a retired frame. Directory-only ways follow the
sixteen data ways. -/
def RCache.wayOk (c : RCache) (set way : Nat) : Bool :=
  !(c.waydis.getLsbD way) && !(c.wayfail.getLsbD way) && !(c.retired.any (fun f => f.1 == set && f.2 == way))

/-- The set of a line in a region cache (R176). -/
def rset (l : LineId) : Nat := l.line.toNat % 6144

/-- The tags of a set. -/
def RCache.inSet (c : RCache) (set : Nat) (dir : Bool) : List (Nat × RLine) :=
  c.lines.filterMap (fun x => match x.2 with
    | some e => if rset (lineAt x.1) == set && e.dirOnly == dir then some (x.1, e) else none
    | none => none)

/-- Whether the region cache holds data: RC_NOALLOC is 0 and a data way is in service (R200, R203). -/
def RCache.allocates (c : RCache) (set : Nat) : Bool := !(bit c.ctl 1) && (List.range 16).any (c.wayOk set)

/-- How many blocks may hold a copy of a line. -/
def RLine.holders (e : RLine) : List Nat :=
  (List.range 100).filter (fun b => (List.range 4).any (fun k => e.pres.getLsbD (100 * k + b)))

/-- Whether no block and not the host may hold a copy of a line. -/
def RLine.alone (e : RLine) : Bool := e.pres == 0 && e.own.isNone && e.hst == 0

/-- The presence bits of a block in sectors of a line. -/
def presBits (l : LineId) (secs : BitVec 4) (b : Nat) : BitVec 400 :=
  if l.host then BitVec.ofNat 400 ((ones secs).foldl (fun a k => a + 2 ^ (100 * k + b)) 0) else BitVec.ofNat 400 (2 ^ b)

/-- The 64-byte sector of a line. -/
def sectorOf (l : Line) (k : Nat) : BitVec 512 := (l >>> (512 * k)).setWidth 512

/-! ### Tags that leave a region cache (R178, R189, R194) -/

/-- Sectors of a host line leave a region cache: dirty ones go to the eviction buffer with DirtyEvict, those held in E go with
CleanEvict, and the others silently (R189, R194). -/
def State.releaseSecs (s : State) (r : Nat) (l : LineId) (secs : BitVec 4) : State :=
  match s.rline r l with
  | none => s
  | some e =>
    let dirty := e.dirty &&& secs
    let s2 := (ones dirty).foldl (fun t k =>
      let hpa := l.line.toNat * 256 + 64 * k
      let sec := sectorOf e.data k
      ((t.setRc r { t.rc r with evict := (t.rc r).evict ++ [(hpa, sec)] }).setBacking true
        (t.hpt.mem.putLine l.line.toNat (secMask (1#4 <<< k)) e.data e.pois)).emit (.d2h .dirtyEvict hpa 0 sec)) s
    let s3 := (ones (e.excl &&& secs &&& ~~~dirty)).foldl (fun t k => t.emit (.d2h .cleanEvict (l.line.toNat * 256 + 64 * k) 0 0)) s2
    s3.setRline r l (some { e with
      valid := e.valid &&& ~~~secs, excl := e.excl &&& ~~~secs, dirty := e.dirty &&& ~~~secs, pois := e.pois &&& ~~~secs })

/-- A tag leaves a region cache: what is dirty, an owner's data with it, is written back, and copies that are left go (R178). -/
def State.dropNow (s : State) (r : Nat) (l : LineId) : State :=
  let s0 := (s.owners l).foldl (fun t b => match t.bline b l with | some x => t.putHome l x.modi x.data x.pois | none => t) s
  let s1 := (s0.dropCopies l 15 none).breakResv l 15 none
  match s1.rline r l with
  | none => s1
  | some e =>
    if l.host then (s1.releaseSecs r l 15).setRline r l none
    else
      let s2 := if e.dirty = 0 then s1 else s1.toStack l (secMask e.dirty) e.data e.pois
      s2.setRline r l none

/-- A home's own eviction of a tag starts on a line that is not blocked: its holders are cleared, the host's hold among them, and
then the tag leaves (R178). -/
def State.startEvict (s : State) (r : Nat) (l : LineId) : State :=
  match s.rline r l with
  | none => s
  | some e =>
    let a := s.askHolders r l true false (clearWaits e l 15 none true)
    if a.1 = [] then a.2.dropNow r l
    else
      let x : Txn := { line := lkey l, req := .evict, waits := a.1, asked := false, served := false, fwdData := none, queued := [] }
      a.2.setRc r { a.2.rc r with txns := (a.2.rc r).txns ++ [x] }

/-- A region cache gives a line up: at once when nobody else holds it, else when its holders have answered, and behind what
blocks the line (R178, R187). -/
def State.giveUp (s : State) (r : Nat) (l : LineId) : State :=
  match s.txn r l with
  | some x => s.setTxn r l { x with queued := x.queued ++ [.evict] }
  | none => s.startEvict r l

/-! ### Allocation (R178, R179) -/

/-- A free way of a set, or the victim of its tree, a way whose line is not blocked before one whose line is: the data ways are 0
to 15, the directory-only ways 16 to 23. -/
def RCache.victim (c : RCache) (set : Nat) (dir : Bool) : Option Nat :=
  let base := if dir then 16 else 0
  let n := if dir then 8 else 16
  let ok : Nat → Bool := fun w => c.wayOk set (base + w)
  if !((List.range n).any ok) then none
  else
    let here := c.inSet set dir
    match (List.range n).find? (fun w => ok w && !(here.any (fun u => u.2.way == base + w))) with
    | some w => some (base + w)
    | none =>
      let still : Nat → Bool := fun w => ok w && !(here.any (fun u => u.2.way == base + w && c.txns.any (fun x => x.line == u.1)))
      let f := if (List.range n).any still then still else ok
      some (base + (if dir then plruVictim f (Tab.get 0 c.treeDir set).toNat 3 1 0
                    else plruVictim f (Tab.get 0 c.treeData set).toNat 4 1 0))

/-- A way of a set is used. -/
def RCache.touch (c : RCache) (set way : Nat) : RCache :=
  if way < 16 then { c with
    treeData := Tab.set 0 c.treeData set (BitVec.ofNat 16 (plruTouch 4 1 way (Tab.get 0 c.treeData set).toNat)) }
  else { c with
    treeDir := Tab.set 0 c.treeDir set (BitVec.ofNat 8 (plruTouch 3 1 (way - 16) (Tab.get 0 c.treeDir set).toNat)) }

/-- A tag with no data and no holder in a way. -/
def RLine.fresh (host dir : Bool) (way : Nat) : RLine :=
  { host := host, dirOnly := dir, way := way, valid := 0, excl := 0, dirty := 0, pois := 0, pres := 0, own := none,
    fwdr := none, hst := 0, data := 0 }

/-- The state with a tag put into a way of its set. -/
def State.seat (s : State) (r : Nat) (l : LineId) (e : RLine) : State :=
  let t := s.setRline r l (some e)
  t.setRc r ((t.rc r).touch (rset l) e.way)

/-- The line in a way of a set makes room by leaving: none when the way is free now, else the key of the line that it waits
for. -/
def State.freeWay (s : State) (r set way : Nat) : Option Nat × State :=
  match ((s.rc r).inSet set false ++ (s.rc r).inSet set true).find? (fun x => x.2.way == way) with
  | none => (none, s)
  | some (k, e) =>
    if (s.rc r).txns.any (fun x => x.line == k) then (some k, s)
    else if e.alone then (none, s.dropNow r (lineAt k))
    else (some k, s.startEvict r (lineAt k))

/-- A data way makes room: a device line that blocks or the host hold moves its directory entry into a directory-only way, dirty
data first written back, and names a sharer as forwarder; any other line leaves (R178). -/
def State.freeData (s : State) (r set way : Nat) : Option Nat × State :=
  match ((s.rc r).inSet set false).find? (fun x => x.2.way == way) with
  | none => (none, s)
  | some (k, e) =>
    let l := lineAt k
    if (s.rc r).txns.any (fun x => x.line == k) then (some k, s)
    else if l.host || e.alone then s.freeWay r set way
    else match (s.rc r).victim set true with
      | none => s.freeWay r set way
      | some w =>
        let f := s.freeWay r set w
        if f.1.isSome then f
        else
          let s1 := if e.dirty = 0 then f.2 else f.2.toStack l (secMask e.dirty) e.data e.pois
          (none, s1.seat r l { e with
            dirOnly := true, way := w, valid := 0, dirty := 0, pois := 0, data := 0,
            fwdr := if e.own.isSome then none else e.holders.head? })

/-- A region cache takes a tag for a line: a data way when it may hold data (for a host line within HOST_WAYS_M1 + 1 ways), else
a directory-only way for a device line; none where it can take none (R178, R179, R200). It answers the key of the line whose
way it must wait for, if one. -/
def State.allocTag (s : State) (r : Nat) (l : LineId) : Option Nat × State :=
  let set := rset l
  let c := s.rc r
  match s.rline r l with
  | some e =>
    if e.dirOnly && c.allocates set then
      match c.victim set false with
      | none => (none, s)
      | some w =>
        let f := s.freeData r set w
        if f.1.isSome then f else (none, f.2.seat r l { e with dirOnly := false, way := w })
    else (none, s.setRc r (c.touch set e.way))
  | none =>
    if c.allocates set then
      let hosts := (c.inSet set false).filter (fun x => x.2.host)
      let still := hosts.filter (fun x => !c.txns.any (fun t => t.line == x.1))
      let way := if l.host && decide (hosts.length ≥ bits c.ctl 11 8 + 1) then
          ((if still = [] then hosts else still).head?).map (fun x => x.2.way)
        else c.victim set false
      match way with
      | none => (none, s)
      | some w =>
        let f := s.freeData r set w
        if f.1.isSome then f else (none, f.2.seat r l (RLine.fresh l.host false w))
    else if l.host then (none, s)
    else match c.victim set true with
      | none => (none, s)
      | some w =>
        let f := s.freeWay r set w
        if f.1.isSome then f else (none, f.2.seat r l (RLine.fresh false true w))

/-- A home's data of a device line takes sectors from behind the caches; those of a host line come with the host's answer. -/
def State.fill (s : State) (r : Nat) (l : LineId) (secs : BitVec 4) : State :=
  match s.rline r l with
  | none => s
  | some e =>
    if e.dirOnly || l.host then s
    else
      let now := s.homeLine l
      let add := secs &&& ~~~e.valid
      s.setRline r l (some { e with data := lineMerge e.data now.1 (secMask add), valid := e.valid ||| add,
                                    pois := (e.pois &&& ~~~add) ||| (now.2 &&& add) })

/-! ### Block caches (R177, R183, R189, R190) -/

/-- Whether a block's cache is used: BC_DIS of its region is 0 and a way of it is in service (R199, R203). -/
def State.bcOn (s : State) (b : Nat) : Bool := !(bit (s.rc (regionOf b)).ctl 0) && ((s.bc b).ways != 0xFF)

/-- The set of a line in a block cache (R176). -/
def bset (l : LineId) : Nat := l.line.toNat % 128

/-- The lines of a set of a block cache. -/
def BCache.inSet (c : BCache) (set : Nat) : List (Nat × BLine) :=
  c.lines.filterMap (fun x => match x.2 with
    | some e => if bset (lineAt x.1) == set then some (x.1, e) else none
    | none => none)

/-- Whether a way of a set of a block cache is in service. -/
def BCache.wayOk (c : BCache) (set way : Nat) : Bool := !(c.ways.getLsbD way) && !(c.retired.any (fun f => f.1 == set && f.2 == way))

/-- Whether a block can hold a line: its cache is used, and a way of the line's set is in service. -/
def State.canHold (s : State) (b : Nat) (l : LineId) : Bool := s.bcOn b && (List.range 8).any ((s.bc b).wayOk (bset l))

/-- A line leaves a block cache: one in M goes to the write-back buffer and WbLine is sent; a clean one goes silently
(R182, R189). A reservation on it is lost (06_memory_ordering.md R168). -/
def State.evictB (s : State) (b : Nat) (l : LineId) : State :=
  match s.bline b l with
  | none => s
  | some x =>
    let s2 := (s.setBline b l none).loseResv b l 15
    if x.modi = 0 then s2
    else
      let s3 := s2.putHome l x.modi x.data x.pois
      (s3.setBc b { s3.bc b with wb := (s3.bc b).wb ++ [(lkey l, x)] }).emit (.noc (.wbline (Fin.ofNat 100 b) l))

/-- The way that a line takes in a block's cache: its own, a free one, or the victim of its set's tree. -/
def State.wayFor (s : State) (b : Nat) (l : LineId) : Option Nat :=
  match s.bline b l with
  | some x => some x.way
  | none =>
    let c := s.bc b
    let set := bset l
    if !((List.range 8).any (c.wayOk set)) then none
    else
      let used := c.inSet set
      some (((List.range 8).find? (fun w => c.wayOk set w && !(used.any (fun u => u.2.way == w)))).getD
        (plruVictim (c.wayOk set) (Tab.get 0 c.tree set).toNat 3 1 0))

/-- Whether a line that comes into a block's cache would put a written one into a write-back buffer that holds eight already
(R185). -/
def State.wbFull (s : State) (b : Nat) (l : LineId) : Bool :=
  match s.bline b l, s.wayFor b l with
  | none, some w => decide ((s.bc b).wb.length ≥ 8) && ((s.bc b).inSet (bset l)).any (fun u => u.2.way == w && u.2.modi != 0)
  | _, _ => false

/-- Install sectors of a line in a block's cache, as the home's answer gives them. -/
def State.install (s : State) (b : Nat) (l : LineId) (secs : BitVec 4) (excl fwd : Bool) : State :=
  let now := s.lineNow l
  match s.bline b l with
  | some x =>
    let add := secs &&& ~~~x.modi
    s.setBline b l (some { x with data := lineMerge x.data now.1 (secMask add), valid := x.valid ||| secs,
                                  excl := if excl then x.excl ||| secs else x.excl, fwd := fwd,
                                  pois := (x.pois &&& ~~~add) ||| (now.2 &&& add), atoms := if excl then 0 else x.atoms })
  | none =>
    match s.wayFor b l with
    | none => s
    | some w =>
      let set := bset l
      let s1 := match ((s.bc b).inSet set).find? (fun u => u.2.way == w) with
        | some u => s.evictB b (lineAt u.1)
        | none => s
      let x : BLine := { valid := secs, excl := if excl then secs else 0, modi := 0, fwd := fwd, data := now.1,
                         pois := now.2 &&& secs, way := w, atoms := 0 }
      let s2 := s1.setBline b l (some x)
      s2.setBc b { s2.bc b with tree := Tab.set 0 (s2.bc b).tree set (BitVec.ofNat 8 (plruTouch 3 1 w (Tab.get 0 (s2.bc b).tree set).toNat)) }

/-- A line of a block's cache is used. -/
def State.touchB (s : State) (b : Nat) (l : LineId) : State :=
  match s.bline b l with
  | none => s
  | some x =>
    let c := s.bc b
    let set := bset l
    s.setBc b { c with tree := Tab.set 0 c.tree set (BitVec.ofNat 8 (plruTouch 3 1 x.way (Tab.get 0 c.tree set).toNat)) }

/-- Whether a block holds sectors of a line in E or M. -/
def State.ownsB (s : State) (b : Nat) (l : LineId) (secs : BitVec 4) : Bool :=
  match s.bline b l with
  | some x => x.excl &&& secs == secs
  | none => false

/-- Whether a block's cache holds a sector of a line. -/
def State.hasB (s : State) (b : Nat) (l : LineId) (sec : Nat) : Bool :=
  match s.bline b l with | some x => x.valid.getLsbD sec | none => false

/-- A write of a thread takes effect in its block's cache, which holds the sectors in E or M (R177). -/
def State.storeOwn (s : State) (b t : Nat) (l : LineId) (mask : LineMask) (d : Line) : State :=
  let secs := maskSecs mask
  match s.bline b l with
  | some x =>
    (s.setBline b l (some { x with data := lineMerge x.data d mask, modi := x.modi ||| secs,
                                   pois := x.pois &&& ~~~(maskFull mask) })).breakResv l secs (some (b, t))
  | none => s

/-! ### Reservations and held snoops (06_memory_ordering.md R168 to R170) -/

/-- Whether a thread of a block holds a reservation in a line. -/
def State.reserved (s : State) (b : Nat) (l : LineId) : Bool :=
  (List.range 128).any (fun k => match (s.thr b k).resv with
    | some g => resvHit l 15 g
    | none => false)

/-- Reservations of a block's threads in a line clear. -/
def State.unreserve (s : State) (b : Nat) (l : LineId) : State := s.loseResv b l 15

/-- The block's own data joins what the home knows, before the block gives the line up. -/
def State.mergeHome (s : State) (b : Nat) (l : LineId) : State :=
  match s.bline b l with
  | some x => if x.modi = 0 then s else s.putHome l x.modi x.data x.pois
  | none => s

/-- The predictor's counter of a line goes up or down, between 0 and 3 (R190, R191). -/
def State.predict (s : State) (b : Nat) (l : LineId) (up : Bool) : State :=
  let c := s.bc b
  let k := l.line.toNat % 64
  let v := Tab.get 1 c.pred k
  let v2 : BitVec 2 := if up then (if v = 3 then 3 else v + 1) else (if v = 0 then 0 else v - 1)
  s.setBc b { c with pred := Tab.set 1 c.pred k v2 }

/-- An owner gives a line back: what it wrote goes home, the predictor learns of a recall that came before four atomics (R191),
and the block keeps a shared copy when toS is true. -/
def State.takeBack (s : State) (b : Nat) (l : LineId) (toS : Bool) : State :=
  match s.bline b l with
  | none => s
  | some x =>
    let s1 := if x.excl != 0 && x.atoms < 4 then s.predict b l true else s
    (s1.mergeHome b l).setBline b l (if toS then some { x with excl := 0, modi := 0 } else none)

/-- A snoop takes effect at a block that holds no reservation against it: a copy is given up or lowered, the answer sent, and a
block without a copy answers with a miss (R182, R189). -/
def State.answerSnoop (s : State) (b : Nat) (c : Instr) : State :=
  let fb := Fin.ofNat 100 b
  match c with
  | .snpinv _ l =>
    match s.bline b l with
    | none => s.emit (.noc (.rspmiss fb l))
    | some _ => ((s.mergeHome b l).setBline b l none).emit (.noc (.invack fb l))
  | .snpfwd _ l dst =>
    match s.bline b l with
    | none => s.emit (.noc (.rspmiss fb l))
    | some x => (s.setBline b l (some { x with fwd := false })).emit (.noc (.fwddata dst l))
  | .recall _ l toS =>
    match s.bline b l with
    | none =>
      if (s.bc b).wb.any (fun x => x.1 == lkey l) then s.emit (.noc (.recalldata fb l))
      else s.emit (.noc (.rspmiss fb l))
    | some _ => (s.takeBack b l toS).emit (.noc (.recalldata fb l))
  | .snpcur _ l =>
    match s.bline b l with
    | none => s.emit (.noc (.rspmiss fb l))
    | some _ => s.emit (.noc (.recalldata fb l))
  | _ => s

/-- A snoop reaches a block: while a thread holds a reservation in the line it is held (R170), else it is answered. A dead
block's port answers for it: a snoop of a copy as given up, a recall of a written line with poison (R204). -/
def State.snoop (s : State) (b : Nat) (l : LineId) (c : Instr) : State :=
  let fb := Fin.ofNat 100 b
  if s.blockDust b then
    match c with
    | .snpinv _ _ => s.emit (.noc (.invack fb l))
    | .recall _ _ _ =>
      s.emit (.noc (if (match s.bline b l with | some x => x.modi != 0 | none => false) then .rsppoison fb l else .rspmiss fb l))
    | _ => s.emit (.noc (.rspmiss fb l))
  else if s.reserved b l then s.setBc b { s.bc b with held := (s.bc b).held ++ [(lkey l, c)] }
  else s.answerSnoop b c

/-- The snoops that a block holds for lines with no reservation left are answered (R170). -/
def State.freeHeld (s : State) (b : Nat) : State :=
  let go := (s.bc b).held.filter (fun h => !(s.reserved b (lineAt h.1)))
  let stay := (s.bc b).held.filter (fun h => s.reserved b (lineAt h.1))
  if go = [] then s
  else (s.setBc b { s.bc b with held := stay }).each go (fun t h => t.answerSnoop b h.2)

/-- A thread's reservation clears, at its block and in the homes' tables, and the snoops that waited on it are answered. -/
def State.clearResv (s : State) (b t : Nat) : State :=
  let th := s.thr b t
  match th.resv with
  | none => s
  | some _ =>
    let s1 := s.setThr b t { th with resv := none }
    let s2 := s1.each (List.range 5) (fun x r => x.dropHomeResv r (fun h => h.b == b && h.t == t))
    s2.freeHeld b

/-! ### Requests (Tables 7-4, 7-5, 7-7) -/

/-- HDM decoder n. -/
def State.hdm (s : State) (n : Nat) : Hdm := Tab.get Hdm.init s.hpt.hdm n

/-- The device offset that a committed decoder gives a host physical address, with the host's interleaving (09_host_port.md
R242, notes/assumptions 24). -/
def Hdm.decode (d : Hdm) (hpa : Nat) : Option Nat :=
  let ways := Nat.max d.ways.toNat 1
  let gran := Nat.max d.gran.toNat 256
  if d.committed && decide (d.base.toNat ≤ hpa) && decide (hpa < d.base.toNat + d.size.toNat) then
    let o := hpa - d.base.toNat
    some (d.dpa + o / (gran * ways) * gran + o % gran)
  else none

/-- The device offset of a host physical address. -/
def State.hdmOff (s : State) (hpa : Nat) : Option Nat := (List.range 4).findSome? (fun n => (s.hdm n).decode hpa)

/-- The sectors of a host line that a region cache does not hold well enough: valid for a read, in E or M for a write. -/
def hostNeeds (e : Option RLine) (secs : BitVec 4) (own : Bool) : BitVec 4 :=
  match e with
  | none => secs
  | some x => secs &&& ~~~(if own then x.excl else x.valid)

/-- What a request to a home asks for: its sectors, whether it clears holders, the block whose copy stays, how host memory is
asked, whether it needs the line's data and a tag for it, and whether the host sent it (Tables 7-5 and 7-7). -/
structure Ask where
  secs : BitVec 4
  clears : Bool
  keep : Option Nat
  kind : D2H
  read : Bool
  tag : Bool
  host : Bool := false

/-- The line that a message of a block or a region names, and what it asks for. -/
def askOf : Instr → Option (LineId × Ask)
  | .rdshared b l k => some (l, { secs := k, clears := false, keep := some b.val, kind := .rdShared, read := true, tag := true })
  | .rdown b l k => some (l, { secs := k, clears := true, keep := some b.val, kind := .rdOwn, read := true, tag := true })
  | .rdcurr _ l k => some (l, { secs := k, clears := false, keep := none, kind := .rdCurr, read := true, tag := false })
  | .wrline b l m _ => some (l, { secs := maskSecs m, clears := true, keep := some b.val, kind := .rdOwn, read := false, tag := true })
  | .wrcond t l m _ => some (l, { secs := maskSecs m, clears := true, keep := some t.blk.val, kind := .rdOwn, read := false, tag := true })
  | .wrpart _ l m _ => some (l, { secs := maskSecs m, clears := true, keep := none, kind := .wOWrInv, read := false, tag := !l.host })
  | .zero b l => some (l, { secs := 15, clears := true, keep := some b.val, kind := .itoMWr, read := false, tag := true })
  | .atom t l off _ _ _ _ =>
    some (l, { secs := 1#4 <<< (off.toNat / 64), clears := true, keep := some t.blk.val, kind := .rdOwn, read := true, tag := true })
  | _ => none

/-- What a request to a line asks for. A request of the host clears no hold of its own, and its write clears what blocks hold
(R22). -/
def askAt : HReq → Option Ask
  | .msg (.hostMemrd a m) => some { secs := 1#4 <<< (a.toNat % 256 / 64), clears := m == .any, keep := none, kind := .rdShared, read := true, tag := m != .invalid, host := true }
  | .msg (.hostMemwr a _ _ _) => some { secs := 1#4 <<< (a.toNat % 256 / 64), clears := true, keep := none, kind := .rdOwn, read := false, tag := true, host := true }
  | .msg c => (askOf c).map (fun x => x.2)
  | .eng _ secs wr => some { secs := secs, clears := wr, keep := none, kind := if wr then .rdOwn else .rdCurr, read := false, tag := wr }
  | .unit _ (.read _ off n) => some { secs := maskSecs (maskOf off n), clears := false, keep := none, kind := .rdCurr, read := true, tag := false }
  | .unit _ (.sem off _ _) => some { secs := 1#4 <<< (off / 64), clears := true, keep := none, kind := .rdOwn, read := true, tag := true }
  | .unit _ (.write m d _) =>
    some { secs := maskSecs m, clears := true, keep := none, kind := .rdOwn, read := false, tag := decide (m = BitVec.allOnes 256) && d == 0 }
  | .fetch k => some { secs := k, clears := false, keep := none, kind := .rdShared, read := true, tag := true }
  | .post m _ _ => some { secs := maskSecs m, clears := true, keep := none, kind := .rdOwn, read := false, tag := false }
  | .evict => none
  | .clean => none

/-- The block whose request a message is. -/
def reqBlock : Instr → Option Nat
  | .rdshared b _ _ => some b.val
  | .rdown b _ _ => some b.val
  | .rdcurr (.block b) _ _ => some b.val
  | .wrline b _ _ _ => some b.val
  | .wrcond t _ _ _ => some t.blk.val
  | .zero b _ => some b.val
  | .atom t _ _ _ _ _ _ => some t.blk.val
  | _ => none

/-- The block whose request a home holds. -/
def HReq.block : HReq → Option Nat
  | .msg c => reqBlock c
  | _ => none

/-- The line that a message names. -/
def State.reqLine (s : State) (c : Instr) : Option LineId :=
  match c with
  | .hostMemrd hpa _ => (s.hdmOff hpa.toNat).map (lineFor false)
  | .hostMemwr hpa _ _ _ => (s.hdmOff hpa.toNat).map (lineFor false)
  | _ => (askOf c).map (fun a => a.1)

/-- The bytes that a request writes, when they come with it. -/
def HReq.bytes : HReq → Option (LineMask × Line)
  | .msg (.wrline _ _ m d) => some (m, d)
  | .msg (.wrcond _ _ m d) => some (m, d)
  | .msg (.wrpart _ _ m d) => some (m, d)
  | .msg (.zero _ _) => some (BitVec.allOnes 256, 0)
  | _ => none

/-- A thread's reservation stands for its conditional store at a home: its block is in PRES, or its own entry is in the home's
table; and no other requester at a disabled block cache has reserved the sector (Table 7-5, R199). -/
def State.condOk (s : State) (r : Nat) (t : Th) (l : LineId) (m : LineMask) : Bool :=
  let b := t.blk.val
  let secs := maskSecs m
  let mine : HomeResv → Bool := fun h => h.b == b && h.t == t.thr.val
  let tab := (s.rc r).resv.filter (fun h => resvHit l secs h.sector)
  let held := match (s.thr b t.thr.val).resv with | some g => resvHit l secs g | none => false
  let inPres : Bool := match s.rline r l with | some e => e.pres &&& presBits l secs b != 0 || e.own == some b | none => false
  held && (inPres || tab.any mine) && !(tab.any (fun h => !mine h))

/-- Whether a write of one of the device's units meets a reservation, of a home's table, that is younger than the home's hold (R199). -/
def State.meetsYoung (s : State) (r : Nat) (l : LineId) (q : HReq) (a : Ask) : Bool :=
  (match q with | .unit _ _ => true | .post _ _ _ => true | _ => false) && a.clears &&
    (s.rc r).resv.any (fun h => h.young && resvHit l a.secs h.sector)

/-- A request whose responses need not be asked for, since it fails at the home. -/
def State.failsAt (s : State) (r : Nat) (q : HReq) : Bool :=
  match q with
  | .msg (.wrcond t l m _) => !(s.condOk r t l m)
  | _ => false

/-- Whether a request of a block for the current data of a line is that of a load, and not of a tile load. -/
def State.curLoad (s : State) (c : Instr) : Bool :=
  match c with
  | .rdcurr (.block b) _ _ => (s.bc b.val).out.any (fun x => x.req == c)
  | _ => false

/-- The first step of a request at a home: a tag where it needs one, and its holders asked to give way (R178, R188). -/
def State.openWaits (s : State) (r : Nat) (l : LineId) (q : HReq) : List Expect × State :=
  match q with
  | .evict => (match s.rline r l with
    | none => ([], s)
    | some e => s.askHolders r l true false (clearWaits e l 15 none true))
  | .clean => (match s.rline r l with
    | some e => (match e.own with
      | some o => ([.recall o], s.emit (.noc (.recall (Fin.ofNat 100 o) l false)))
      | none => ([], s))
    | none => ([], s))
  | _ => match askAt q with
    | none => ([], s)
    | some a =>
      if s.failsAt r q then ([], s)
      else if s.meetsYoung r l q a then ([.young], s)
      else
        let room := if a.tag then s.allocTag r l else (none, s)
        match room.1 with
        | some k => ([.room k], room.2)
        | none =>
          match room.2.rline r l with
          | none => ([], room.2)
          | some e =>
            if a.clears then room.2.askHolders r l true false (clearWaits e l a.secs a.keep (!a.host))
            else
              let cur := a.kind == .rdCurr
              let own := match e.own with | some o => if a.keep = some o then [] else [o] | none => []
              let w : List Expect × List Emit :=
                (own.map (fun o => if cur then .cur o else .recall o) ++ (if !a.host && !l.host && e.hst.toNat = 2 then [.host] else []),
                 own.map (fun o => .noc (if cur then .snpcur (Fin.ofNat 100 o) l else .recall (Fin.ofNat 100 o) l true)))
              room.2.askHolders r l false cur w

/-- A write of a host line goes straight to the host, sector by sector (Table 7-7). -/
def State.writeThrough (s : State) (l : LineId) (m : LineMask) (d : Line) (k : Nat) : State :=
  let mk := BitVec.ofNat 64 (bits m (64 * k + 63) (64 * k))
  s.emit (.d2h (if mk = BitVec.allOnes 64 then .wOWrInvF else .wOWrInv) (l.line.toNat * 256 + 64 * k) mk (sectorOf d k))

/-- The second step on a host line: the sectors that the host must grant or take (R194, R198; Table 7-17). A region cache that holds
no tag for the line reads it by RdCurr and writes through. A lost host is answered for at once, with poison for what is read
(R204), and nothing is sent while Cache_Enable is 0 or a function-level reset runs (09_host_port.md R247, R256). -/
def State.hostWaits (s : State) (r : Nat) (l : LineId) (q : HReq) (a : Ask) : List Expect × State :=
  let e := s.rline r l
  let through := e.isNone || a.kind == .wOWrInv
  let need : BitVec 4 :=
    if through then a.secs
    else if a.kind == .itoMWr then a.secs else hostNeeds e a.secs a.clears
  if need = 0 then ([], s)
  else if s.hostGone then ([], if a.read then s.poisonLine r l need false else s)
  else if s.cacheEnable = false ∨ s.hpt.flr then ([.slot], s)
  else
    let asks : State := match through, q.bytes with
      | true, some b => (ones need).foldl (fun t k => t.writeThrough l b.1 b.2 k) (s.releaseSecs r l need)
      | _, _ =>
        let kind : D2H := if through then .rdCurr
          else match q with
            | .msg c => if a.kind == .rdCurr && s.curLoad c then .rdShared else a.kind
            | _ => a.kind
        (ones need).foldl (fun t k => t.emit (.d2h kind (l.line.toNat * 256 + 64 * k) 0 0)) s
    ((ones need).map .go, asks)

/-- The second step of a request at a home, once its holders have given way: its data, from the home, from a forwarder or from
the stack, or the host's grant (Tables 7-5 and 7-7). -/
def State.dataWaits (s : State) (r : Nat) (l : LineId) (q : HReq) : List Expect × State :=
  match askAt q with
  | none => ([], s)
  | some a =>
    if s.failsAt r q then ([], s)
    else if l.host then s.hostWaits r l q a
    else
      let e := s.rline r l
      let held : Bool := match e with
        | some x => !x.dirOnly && (a.secs &&& ~~~x.valid) == 0
        | none => false
      if !a.read || held then ([], s)
      else
        let fwd : Option (Nat × Fin 100) := match e.bind (fun x => x.fwdr), q with
          | some f, .msg (.rdshared b _ _) => if f = b.val then none else some (f, b)
          | _, _ => none
        match fwd with
        | some (f, b) => ([.fwd f], s.emit (.noc (.snpfwd (Fin.ofNat 100 f) l b)))
        | none =>
          match s.place (l.line.toNat * 256) with
          | none => ([], s)
          | some p =>
            let op : StackOp := match ones a.secs with
              | [k] => .rd64 l.line.toNat k
              | _ => .rd256 l.line.toNat
            let x := s.stackSend p.port op
            ([.stack p.port x.1], x.2)

/-! ### Atomics (05_veltur_instructions.md R144) -/

/-- The new value of an atomic operation and the flags it raises: codes 0 to 10; 32 bits or 64. -/
def amoNew (op : Nat) (wide : Bool) (old a c : W64) : W64 × BitVec 5 :=
  let n := if wide then 64 else 32
  let o := old.toNat % 2 ^ n
  let x := a.toNat % 2 ^ n
  let k := c.toNat % 2 ^ n
  let out : Nat → W64 × BitVec 5 := fun v => (BitVec.ofNat 64 (v % 2 ^ n), 0)
  match op with
  | 0 => out (o + x)
  | 1 => out (Nat.land o x)
  | 2 => out (Nat.lor o x)
  | 3 => out (Nat.xor o x)
  | 4 => out (if sext n o ≤ sext n x then o else x)
  | 5 => out (if sext n o ≥ sext n x then o else x)
  | 6 => out (if o ≤ x then o else x)
  | 7 => out (if o ≥ x then o else x)
  | 8 => out x
  | 9 => out (if o = k then x else o)
  | _ =>
    let r := finish fp32 0 false (addV (decodeVal fp32 o) (decodeVal fp32 x))
    (BitVec.ofNat 64 r.1, r.2)

/-- The n bytes of a line from a byte on, as a number. -/
def lineVal (l : Line) (off n : Nat) : W64 := BitVec.ofNat 64 (leVal ((List.range n).map (fun i => lineByte l (off + i))))

/-- What an atomic leaves in a line: the old value, and the bytes that it writes with their mask. -/
def amoLine (l : Line) (off op : Nat) (wide : Bool) (a c : W64) : W64 × LineMask × Line :=
  let n := if wide then 8 else 4
  let old := lineVal l off n
  (old, maskOf off n, linePut 0 off (leBytes n (amoNew op wide old a c).1.toNat))

/-! ### The accesses of a thread (06_memory_ordering.md R158 to R160) -/

/-- The g register that an outstanding access will write. -/
def AccKind.dest : AccKind → Option (BitVec 6)
  | .ld d _ => some d
  | .ldr d _ => some d
  | .stc d => some d
  | .amo d _ _ _ => some d
  | _ => none

/-- Whether an access is an atomic. -/
def AccKind.isAmo : AccKind → Bool
  | .amo _ _ _ _ => true
  | _ => false

/-- Whether an access is a scalar load. -/
def AccKind.isLoad : AccKind → Bool
  | .ld _ _ | .ldr _ _ => true
  | _ => false

/-- Whether an access stores. -/
def AccKind.stores : AccKind → Bool
  | .st | .stc _ | .zline | .tst _ _ _ _ => true
  | _ => false

/-- Whether an access takes a whole line. -/
def AccKind.whole : AccKind → Bool
  | .zline => true
  | _ => false

/-- The line of a target of this device or of the host, and the byte in it. -/
def lineOfTgt : Target → Option (LineId × Nat)
  | .dev o => some (lineFor false o, o % 256)
  | .host h => some (lineFor true h, h % 256)
  | _ => none

/-- The bytes and the mask that an access writes in its line. -/
def Acc.image (a : Acc) (off : Nat) : LineMask × Line :=
  match a.kind with
  | .zline => (BitVec.allOnes 256, 0)
  | _ => (maskOf off a.size, linePut 0 off (leBytes a.size a.data.toNat))

/-- The state with an outstanding access of a thread changed. -/
def State.updAcc (s : State) (b t id : Nat) (f : Acc → Acc) : State :=
  let th := s.thr b t
  s.setThr b t { th with accs := updWhere (fun a => a.id == id) f th.accs }

/-- Whether two targets lie in one 64-byte sector of one memory, or in one line when whole is true. -/
def sectorMeet (whole : Bool) (a b : Target) : Bool :=
  let k := if whole then 256 else 64
  match a, b with
  | .dev x, .dev y => x / k == y / k
  | .host x, .host y => x / k == y / k
  | .remote d x, .remote e y => decide (d = e) && x / k == y / k
  | _, _ => false

/-- Whether every earlier access of a thread to an access's sector has been performed (R160). -/
def Thread.inTurn (th : Thread) (a : Acc) : Bool :=
  !(th.accs.any (fun x => !x.performed && decide (x.id < a.id) && sectorMeet (x.kind.whole || a.kind.whole) x.tgt a.tgt))

/-- Whether a block may keep a line that it asks for: its own cache can hold it, and the region cache that holds a host line does
(R199, R200, Table 7-17). -/
def State.mayKeep (s : State) (b : Nat) (l : LineId) : Bool :=
  s.canHold b l && (!l.host || (match s.home l with | some r => (s.rc r).allocates (rset l) | none => false))

/-- Whether a block performs an atomic on a line in its own cache: its predictor says so (R190, R199). -/
def State.goesNear (s : State) (b : Nat) (l : LineId) : Bool :=
  s.mayKeep b l && decide ((Tab.get 1 (s.bc b).pred (l.line.toNat % 64)).toNat < 2)

/-- The request that an access sends to its home when its block cannot perform it (Table 7-4, R143, R190, R199). -/
def State.reqOf (s : State) (b t : Nat) (a : Acc) : Option Instr :=
  match lineOfTgt a.tgt with
  | none => none
  | some (l, off) =>
    let fb := Fin.ofNat 100 b
    let th : Th := { blk := fb, thr := Fin.ofNat 128 t }
    let sec : BitVec 4 := 1#4 <<< (off / 64)
    let im := a.image off
    match a.kind with
    | .ld _ _ | .ldr _ _ => some (if s.canHold b l then .rdshared fb l sec else .rdcurr (.block fb) l sec)
    | .st => some (.wrline fb l im.1 im.2)
    | .stc _ => some (.wrcond th l im.1 im.2)
    | .zline => some (.zero fb l)
    | .amo _ op wide c => some (if s.goesNear b l then .rdown fb l sec else .atom th l (BitVec.ofNat 8 off) op wide a.data c)
    | .sig isMax => some (.atom th l (BitVec.ofNat 8 off) (if isMax then 7 else 0) true a.data 0)
    | _ => none

/-- A thread's reservation is set (R143). -/
def State.setResv (s : State) (b t : Nat) (g : Target) : State := s.setThr b t { s.thr b t with resv := some g }

/-- An access is performed in its block's cache, where the block holds what it needs: a load on a valid sector, a plain store, a
zeroed line or a near atomic on sectors in E or M (R177, R190, R198). -/
def State.hit (s : State) (b t : Nat) (a : Acc) : Option State :=
  match lineOfTgt a.tgt with
  | none => none
  | some (l, off) =>
    match s.bline b l with
    | none => none
    | some x =>
      let sec : BitVec 4 := 1#4 <<< (off / 64)
      let bad := x.pois.getLsbD (off / 64)
      let im := a.image off
      let u := s.touchB b l
      let fin : (Acc → Acc) → State → State := fun f v => v.updAcc b t a.id (fun y => { f y with performed := true })
      let load : Acc → Acc := fun y => { y with res := lineVal x.data off a.size, bad := bad }
      match a.kind with
      | .ld _ _ => if x.valid.getLsbD (off / 64) then some (fin load u) else none
      | .ldr _ _ => if x.valid.getLsbD (off / 64) then some ((fin load u).setResv b t a.tgt) else none
      | .st => if s.ownsB b l sec then some (fin id (u.storeOwn b t l im.1 im.2)) else none
      | .zline => if s.ownsB b l 15 then some (fin id (u.storeOwn b t l im.1 im.2)) else none
      | .amo _ op wide c =>
        if !(s.ownsB b l sec) then none
        else if bad then some (fin (fun y => { y with bad := true }) u)
        else
          let n := amoLine x.data off op.toNat wide a.data c
          let v := u.storeOwn b t l n.2.1 n.2.2
          some (fin (fun y => { y with res := n.1 }) (v.setBline b l ((v.bline b l).map (fun y => { y with atoms := y.atoms + 1 }))))
      | _ => none

/-- Whether an access may be performed in its block's cache as it stands: an atomic only where the predictor chooses so (R190). -/
def State.hitNow (s : State) (b t : Nat) (a : Acc) : Option State :=
  match a.kind, lineOfTgt a.tgt with
  | .amo _ _ _ _, some (l, _) => if s.goesNear b l then (s.hit b t a).map (fun u => u.predict b l false) else none
  | _, _ => s.hit b t a

/-- A request that several accesses of a block share. -/
def shared : Instr → Bool
  | .rdshared _ _ _ | .rdown _ _ _ => true
  | _ => false

/-- A request of an access goes to its home, or joins one of its block that is on its way there; a block has 64 outstanding (R185). -/
def State.askFor (s : State) (b t : Nat) (a : Acc) (l : LineId) (c : Instr) : State :=
  let mark : State → State := fun u => u.updAcc b t a.id (fun y => { y with asked := some c })
  if shared c && (s.bc b).out.any (fun x => x.req == c) then mark s
  else if (s.bc b).out.length ≥ 64 then s
  else (mark (s.setBc b { s.bc b with out := (s.bc b).out ++ [{ line := lkey l, req := c }] })).emit (.noc c)

/-- An access whose target is dead, or in memory of a lost host, comes to its end: a store is discarded (R173; 09_host_port.md
R260), a read comes back as failed. -/
def State.endAcc (s : State) (b t : Nat) (a : Acc) : Option State :=
  let fin : (Acc → Acc) → State := fun f => s.updAcc b t a.id (fun y => { f y with performed := true })
  let n := if a.kind.whole then 4 else 1
  let plain := a.kind.stores && a.kind.dest.isNone
  match s.deadAt a.tgt with
  | some d => some (if plain then (fin id).discard b t d a.va n else fin (fun y => { y with bad := true }))
  | none => match a.tgt with
    | .host _ =>
      if s.hpt.hostLost then
        some (if plain then { fin id with hpt := { s.hpt with hlDiscard := satAdd s.hpt.hlDiscard n } }
              else fin (fun y => { y with bad := true }))
      else none
    | _ => none

/-- An access of a thread goes on, if it is its turn: it ends at a dead target, is performed in its block's cache, or asks its
home. -/
def State.kickAcc (b t : Nat) (s : State) (id : Nat) : State :=
  match (s.thr b t).accs.find? (fun a => a.id == id) with
  | none => s
  | some a =>
    if a.performed || a.homed || (a.asked.isSome && (s.deadAt a.tgt).isNone) || !((s.thr b t).inTurn a) then s
    else match lineOfTgt a.tgt with
    | none => s
    | some (l, _) => match s.endAcc b t a with
      | some u => u
      | none => match s.hitNow b t a with
        | some u => u
        | none => match s.reqOf b t a with
          | some c => s.askFor b t a l c
          | none => s

/-- The accesses of a thread go on as far as they can, oldest first. -/
def State.kick (s : State) (b t : Nat) : State := s.each ((s.thr b t).accs.map (fun a => a.id)) (State.kickAcc b t)

/-- The accesses of every thread of a block go on. -/
def State.kickBlock (s : State) (b : Nat) : State := s.each (List.range 128) (fun u t => u.kick b t)

/-- The accesses for which a block sent a request: the thread and the number of each. -/
def State.askers (s : State) (b : Nat) (c : Instr) : List (Nat × Nat) :=
  (List.range 128).flatMap (fun t => ((s.thr b t).accs.filter (fun a => a.asked == some c && !a.homed && !a.performed)).map (fun a => (t, a.id)))

/-- The first access that a write of a block carries has taken effect at the home. -/
def State.homeAcc (s : State) (b : Nat) (c : Instr) (f : Acc → Acc) : State :=
  match s.askers b c with
  | (t, id) :: _ => s.updAcc b t id (fun a => { f a with homed := true })
  | [] => s

/-- An entry joins a home's reservation table; a full table replaces its oldest (R199). -/
def State.tableResv (s : State) (r b t : Nat) (g : Target) : State :=
  let s1 := match (s.rc r).resv with
    | h :: _ => if (s.rc r).resv.length ≥ 128 then s.dropHomeResv r (fun x => decide (x = h)) else s
    | [] => s
  s1.setRc r { s1.rc r with resv := (s1.rc r).resv ++ [{ b := b, t := t, sector := g, young := true, held := [] }] }

/-- The loads that a request carries read the line at the home, which keeps no record of the block: a reserved load enters the home's
table (R199). -/
def State.readThere (s : State) (r b : Nat) (l : LineId) (c : Instr) : State :=
  s.each (s.askers b c) (fun u x =>
    match (u.thr b x.1).accs.find? (fun a => a.id == x.2) with
    | none => u
    | some a => match lineOfTgt a.tgt with
      | none => u
      | some (_, off) =>
        let now := u.lineNow l
        let v := u.updAcc b x.1 a.id (fun y => { y with homed := true, res := lineVal now.1 off a.size, bad := now.2.getLsbD (off / 64) })
        match a.kind with
        | .ldr _ _ => (v.setResv b x.1 a.tgt).tableResv r b x.1 a.tgt
        | _ => v)

/-- The tile loads of a block that want a line read it at its home (01_architecture.md R23). -/
def State.feedTiles (s : State) (b : Nat) (l : LineId) : State :=
  let now := s.lineNow l
  s.each (List.range 128) (fun u t =>
    let th := u.thr b t
    if th.accs.any (fun a => a.want.any (fun w => w == l)) then
      u.setThr b t { th with accs := th.accs.map (fun a =>
        if a.want.any (fun w => w == l) then { a with want := a.want.filter (fun w => w != l), got := a.got ++ [(l, now.1, now.2)] } else a) }
    else u)

/-- The semaphore waits of a block's threads that have asked for a line read it at its home (05_veltur_instructions.md R149). -/
def State.feedSems (s : State) (b : Nat) (l : LineId) : State :=
  let now := s.lineNow l
  s.each (List.range 128) (fun u t =>
    let th := u.thr b t
    match th.sem with
    | none => u
    | some w => match lineOfTgt w.tgt with
      | some (m, off) =>
        if w.asked && !w.got && decide (m = l) then
          if now.2.getLsbD (off / 64) then u.defer b t (.poison w.ia w.va)
          else u.setThr b t { th with sem := some { w with last := lineVal now.1 off 8, got := true } }
        else u
      | none => u)

/-! ### Serving a request (Table 7-5) -/

/-- A block joins a line's presence bits. -/
def State.addPres (s : State) (r : Nat) (l : LineId) (secs : BitVec 4) (b : Nat) : State :=
  match s.rline r l with
  | none => s
  | some e => s.setRline r l (some { e with pres := e.pres ||| presBits l secs b })

/-- The state after a line's holders other than a block are cleared in the directory. -/
def State.soleHolder (s : State) (r : Nat) (l : LineId) (secs : BitVec 4) (b : Option Nat) : State :=
  match s.rline r l with
  | none => s
  | some e =>
    let gone : BitVec 400 := if l.host then BitVec.ofNat 400 ((ones secs).foldl (fun a k => a + (2 ^ 100 - 1) * 2 ^ (100 * k)) 0)
                             else BitVec.allOnes 400
    let mine : BitVec 400 := match b with | some x => e.pres &&& presBits l secs x | none => 0
    s.setRline r l (some { e with pres := (e.pres &&& ~~~gone) ||| mine, fwdr := none })

/-- HOST after a host request (Table 7-5, R196). -/
def holdOf : HostMeta → BitVec 2
  | .invalid => 0
  | .shared => 1
  | .any => 2

/-- Whether a region cache holds sectors of a line so that a block may keep a copy: those of a host line are valid there, in E or M for
an owner (R178, R194). -/
def State.mayGive (s : State) (r : Nat) (l : LineId) (secs : BitVec 4) (own : Bool) : Bool :=
  match s.rline r l with
  | none => false
  | some _ => !l.host || hostNeeds (s.rline r l) secs own == 0

/-- A read at the home: what the home can hold of the sectors is filled, and the reader joins the presence bits; it ends in F when
the home holds no data. Where the region cache does not hold the sectors, the reader's loads read them here and nothing is kept. -/
def State.serveRead (s : State) (r b : Nat) (l : LineId) (secs : BitVec 4) (c : Instr) : State :=
  let given := match s.txn r l with | some x => x.fwdData.isSome | none => false
  let s3 := if !(s.mayGive r l secs false) then s.readThere r b l c
    else
      let s2 := (s.fill r l secs).addPres r l secs b
      match s2.rline r l with
      | some e => s2.setRline r l (some { e with own := none, fwdr := if e.dirOnly then some b else e.fwdr })
      | none => s2
  if given then s3 else s3.emit (.noc (.data (Fin.ofNat 100 b) l))

/-- A request for ownership at the home: the requester becomes the owner. Of a host sector that the host did not grant in E or M, the
atomics that wait for it fail with poison (R194). -/
def State.serveOwn (s : State) (r b : Nat) (l : LineId) (secs : BitVec 4) (c : Instr) : State :=
  let s1 := if !(s.mayGive r l secs true) then
      s.each (s.askers b c) (fun u x => u.updAcc b x.1 x.2 (fun a => { a with homed := true, bad := true }))
    else
      let u := ((s.fill r l secs).soleHolder r l secs none).addPres r l secs b
      match u.rline r l with
      | some e => u.setRline r l (some { e with own := some b })
      | none => u
  s1.emit (.noc (.data (Fin.ofNat 100 b) l))

/-- A write of a block's thread is performed at the home: bytes for memory of a lost host are discarded there and counted by sector
(09_host_port.md R260). -/
def State.serveWrite (s : State) (l : LineId) (m : LineMask) (d : Line) (by' : Option (Nat × Nat)) : State :=
  if l.host && s.hostGone then
    { s with hpt := { s.hpt with hlDiscard := satAdd s.hpt.hlDiscard (ones (maskSecs m)).length } }
  else s.cohLine l m d 0 by'

/-- An access of one of the device's units is performed at the home, and the unit told: a semaphore in host memory is written with a CXL.io
write, which never sets relaxed ordering (11_queues_and_copy.md R296; 09_host_port.md Table 9-8). Memory of a lost host answers
nothing (09_host_port.md R261). -/
def State.serveUnit (s : State) (l : LineId) (own : Own) (op : UnitOp) : State :=
  if l.host && s.hostGone then s.unitFail own op 5
  else
    let now := s.lineNow l
    let bytes : Nat → Nat → List Byte := fun off n => (List.range n).map (fun i => lineByte now.1 (off + i))
    match op with
    | .read at' off n => s.unitGot own at' (bytes off n) ((List.range n).map (fun i => now.2.getLsbD ((off + i) / 64)))
    | .sem off isMax v =>
      if now.2.getLsbD (off / 64) then s.unitFail own op 9
      else
        let n := amoLine now.1 off (if isMax then 7 else 0) true v 0
        let t := if l.host then (s.ioLine l n.2.1 n.2.2 0).emit
            (.mwr (l.line.toNat * 256 + off) ((List.range 8).map (fun i => lineByte n.2.2 (off + i))) false)
          else s.cohLine l n.2.1 n.2.2 0 none
        t.unitGot own 0 (leBytes 8 n.1.toNat) []
    | .write m d bad => (s.cohLine l m d bad none).unitGot own 0 [] []

/-- Serve a request to a line whose responses have all come: its effect, its answer, and what it still waits for (Table 7-5). -/
def State.serve (s : State) (r : Nat) (l : LineId) (q : HReq) : List Expect × State :=
  match q with
  | .evict => ([], s.dropNow r l)
  | .clean => ([], match s.rline r l with
    | none => s
    | some e =>
      let y := { e with own := none }
      if y.dirty = 0 then s.setRline r l (some y)
      else (s.setRline r l (some { y with dirty := 0 })).toStack l (secMask y.dirty) y.data y.pois)
  | .eng _ _ _ => ([.engine], s)
  | .unit own op => ([], s.serveUnit l own op)
  | .post m d bad => ([], s.cohLine l m d bad none)
  | .fetch k => ([], s.fill r l k)
  | .msg c => match c with
    | .hostMemrd hpa m =>
      let k := hpa.toNat % 256 / 64
      let now := s.lineNow l
      let s1 := s.fill r l (1#4 <<< k)
      let s2 := if m = .any then s1.soleHolder r l 15 none else s1
      let s3 := if m = .invalid then s2 else match s2.rline r l with
        | some e => s2.setRline r l (some { e with own := none })
        | none => s2
      ([], (s3.setHold r l (holdOf m)).emit (.memData hpa (sectorOf now.1 k) (now.2.getLsbD k)))
    | .hostMemwr hpa mask d m =>
      let k := hpa.toNat % 256 / 64
      let s1 := s.cohLine l (mask.setWidth 256 <<< (64 * k)) (d.setWidth 2048 <<< (512 * k)) 0 none
      ([], (s1.setHold r l (holdOf m)).emit (.memCmp hpa))
    | .rdshared b _ secs => ([.ack b.val], s.serveRead r b.val l secs c)
    | .rdown b _ secs => ([.ack b.val], s.serveOwn r b.val l secs c)
    | .rdcurr a _ _ => ([], match a with
      | .block b => (((s.readThere r b.val l c).feedTiles b.val l).feedSems b.val l).emit (.noc (.data b l))
      | _ => s)
    | .wrline b _ m d =>
      let by' : Nat := ((s.askers b.val c).map (fun x => x.1)).headD 128
      ([.ack b.val], ((s.homeAcc b.val c id).serveWrite l m d (some (b.val, by'))).emit (.noc (.cmp b l)))
    | .wrpart f _ m d =>
      let g : Target := if l.host then .host (l.line.toNat * 256) else .dev (l.line.toNat * 256)
      let put : BitVec 4 → State → State := fun bad x => if l.host then x.ioLine l m d bad else x.cohLine l m d bad none
      match (s.wc f.val).find? (fun x => x.out && decide (x.tgt = g) && decide (x.mask = m) && decide (x.data = d)) with
      | some x => ([], put x.pois (s.setWc f.val ((s.wc f.val).erase x)))
      | none => ([], put 0 s)
    | .wrcond t _ m d =>
      let b := t.blk.val
      if s.condOk r t l m then
        let s1 := (s.homeAcc b c (fun a => { a with res := 0 })).clearResv b t.thr.val
        ([.ack b], (s1.serveWrite l m d (some (b, t.thr.val))).emit (.noc (.cmp t.blk l)))
      else ([], (s.clearResv b t.thr.val).emit (.noc (.cmpfail t l)))
    | .zero b _ =>
      let by' : Nat := ((s.askers b.val c).map (fun x => x.1)).headD 128
      ([.ack b.val], ((s.homeAcc b.val c id).serveWrite l (BitVec.allOnes 256) 0 (some (b.val, by'))).emit (.noc (.cmp b l)))
    | .atom t _ off op wide a k =>
      let b := t.blk.val
      let busy := match s.txn r l with | some x => !x.queued.isEmpty | none => false
      let now := s.lineNow l
      let bad := now.2.getLsbD (off.toNat / 64)
      let n := amoLine now.1 off.toNat op.toNat wide a k
      let s1 := s.homeAcc b c (fun x => { x with res := n.1, bad := bad })
      let s2 := if bad then s1 else s1.serveWrite l n.2.1 n.2.2 (some (b, t.thr.val))
      let s3 := if s2.mayKeep b l then s2.predict b l busy else s2
      let through := l.host && (s.rline r l).isNone && !bad && !s.hostGone
      let s4 := if through then s3.writeThrough l n.2.1 n.2.2 (off.toNat / 64) else s3
      ((if through then [.go (off.toNat / 64)] else []) ++ [.ack b], s4.emit (.noc (.cmp t.blk l)))
    | _ => ([], s)

/-! ### Taking requests (R185 to R187) -/

/-- A home starts a request on a line that is not blocked: the line is blocked, and the responses are asked for. -/
def State.startReq (s : State) (r : Nat) (l : LineId) (q : HReq) (queued : List HReq) : State :=
  let x := s.openWaits r l q
  let t : Txn := { line := lkey l, req := q, waits := x.1, asked := false, served := false, fwdData := none, queued := queued }
  x.2.setRc r { x.2.rc r with txns := (x.2.rc r).txns ++ [t] }

/-- Whether an entry of a home's reservation table is of another thread than those whose write a request is. -/
def State.otherThan (s : State) (h : HomeResv) (c : Instr) : Bool :=
  let others : Nat → Bool := fun b => h.b != b || (s.askers b c).any (fun x => x.1 != h.t)
  match c with
  | .atom t _ _ _ _ _ _ => !(h.b == t.blk.val && h.t == t.thr.val)
  | .wrline b _ _ _ => others b.val
  | .rdown b _ _ => others b.val
  | .zero b _ => others b.val
  | _ => true

/-- The young reservation of another thread for which a home holds a write, or a request for ownership (R199). A conditional store
is not held: it fails (Table 7-5). -/
def State.holder (s : State) (r : Nat) (l : LineId) (q : HReq) : Option HomeResv :=
  match q, askAt q with
  | .msg (.wrcond _ _ _ _), _ => none
  | .msg c, some a => if a.clears then (s.rc r).resv.find? (fun h => h.young && resvHit l a.secs h.sector && s.otherThan h c) else none
  | .eng _ _ _, some a => if a.clears then (s.rc r).resv.find? (fun h => h.young && resvHit l a.secs h.sector) else none
  | _, _ => none

/-- The oldest of the requests that wait for a line starts. A write that meets a young reservation is held with it instead, and an
engine's is not taken: its command comes again (R187, R199). -/
def State.nextReq (r : Nat) (l : LineId) : List HReq → State → State
  | [], s => s
  | q :: rest, s =>
    match s.holder r l q with
    | some h => match q with
      | .msg c => State.nextReq r l rest (s.setRc r { s.rc r with
          resv := updWhere (fun x => decide (x = h)) (fun x => { x with held := x.held ++ [c] }) (s.rc r).resv })
      | _ => State.nextReq r l rest s
    | none => s.startReq r l q rest

/-- A transaction that could not ask yet asks again. -/
def State.reopen (s : State) (r : Nat) (x : Txn) : State :=
  let l := lineAt x.line
  let y := if x.asked then s.dataWaits r l x.req else s.openWaits r l x.req
  match y.2.txn r l with
  | some z => y.2.setTxn r l { z with waits := y.1 }
  | none => y.2

/-- The transactions of a region that wait for something of one kind ask again; the lines that they are on. -/
def State.reopenAll (s : State) (r : Nat) (e : Expect) : List Nat × State :=
  let xs := (s.rc r).txns.filter (fun x => x.waits == [e])
  (xs.map (fun x => x.line), s.each xs (fun t x => t.reopen r x))

/-- One turn of a line's transaction, and the lines whose transactions may go on after it: it asks for its data, is served, or
closes, and then the oldest request that queued starts, and those that waited for a way, or for a young reservation, ask again (R178, R187,
R199). -/
def State.turn (s : State) (r k : Nat) : List Nat × State :=
  let l := lineAt k
  match s.txn r l with
  | none => ([], s)
  | some x =>
    if x.waits ≠ [] then ([], s)
    else if !x.asked then
      let y := s.dataWaits r l x.req
      ([k], y.2.setTxn r l { ((y.2.txn r l).getD x) with asked := true, waits := y.1 })
    else if !x.served then
      let y := s.serve r l x.req
      ([k], y.2.setTxn r l { ((y.2.txn r l).getD x) with served := true, waits := y.1 })
    else
      let s1 := s.setRc r { s.rc r with txns := (s.rc r).txns.filter (fun t => t.line != k) }
      let y := (State.nextReq r l x.queued s1).reopenAll r (.room k)
      let z := y.2.reopenAll r .young
      (k :: y.1 ++ z.1, z.2)

/-- The transactions of a list of lines go on as far as they can. -/
def State.pump (r : Nat) : Nat → List Nat → State → State
  | 0, _, s => s
  | _, [], s => s
  | n + 1, k :: ks, s =>
    let y := s.turn r k
    State.pump r n (y.1 ++ ks) y.2

/-- How many requests a home holds. -/
def RCache.load (c : RCache) : Nat := (c.txns.map (fun x => x.queued.length + 1)).foldl Nat.add 0

/-- Enough turns for every request that a home holds, and for the evictions that they start. -/
def State.turns (s : State) (r : Nat) : Nat := 16 * ((s.rc r).load + 2)

/-- The transactions of lines of a region go on. -/
def State.goAll (s : State) (r : Nat) (ks : List Nat) : State := State.pump r (s.turns r) ks s

/-- A line's transaction goes on. -/
def State.go (s : State) (r : Nat) (l : LineId) : State := s.goAll r [lkey l]

/-- The back-invalidate snoops that a home still has to send leave, as far as 64 may be outstanding (R196; 08_memory_stacks.md R224). -/
def State.sendLate (s : State) (r : Nat) : State :=
  let c := s.rc r
  let n := 64 - c.bi.length
  (s.setRc r { c with late := c.late.drop n }).each (c.late.take n) (fun t k => t.biSnoop r true false (lineAt k))

/-- The transactions of a region that wait for a back-invalidate snoop, or for Cache_Enable, ask again (R196). -/
def State.retrySlots (s : State) (r : Nat) : State :=
  let y := (s.sendLate r).reopenAll r .slot
  y.2.goAll r y.1

/-- The transactions of a region that wait for the end of a young reservation ask again (R199). -/
def State.retryYoung (s : State) (r : Nat) : State :=
  let y := s.reopenAll r .young
  y.2.goAll r y.1

/-- Whether a request is the host's write, for which a home keeps entries of its own (R185). -/
def isMemwr : HReq → Bool
  | .msg (.hostMemwr _ _ _ _) => true
  | _ => false

/-- Whether a request is one that its sender keeps until its home takes it: an access of the device's own units, or the home's own. -/
def isOwn : HReq → Bool
  | .msg _ | .eng _ _ _ => false
  | _ => true

/-- Whether a home has an entry left for a request: 1,024, and 16 more for the host's writes (R185). Those of the device's own units
queue there (notes/assumptions 59). -/
def RCache.hasEntry (c : RCache) (q : HReq) : Bool :=
  let all := c.txns.flatMap (fun x => x.req :: x.queued)
  let n := (all.filter (fun x => isMemwr x == isMemwr q && !isOwn x)).length
  isOwn q || decide (n < if isMemwr q then 16 else 1024)

/-- A request of the host, or of one of the device's units, that its home can serve no more is answered: a read with poisoned data, a
write as discarded, and a unit with DEAD_TARGET (R224). -/
def State.failReq (s : State) (q : HReq) : State :=
  match q with
  | .msg (.hostMemrd hpa _) => s.emit (.memData hpa 0 true)
  | .msg (.hostMemwr hpa _ _ _) => s.emit (.memCmp hpa)
  | .unit own op => s.unitFail own op 1
  | _ => s

/-- A request arrives at its home: it queues while its line is blocked, and starts otherwise (R186, R187); the host's write to a
line that waits for a back-invalidate snoop is performed at once. A message for which the home has no entry stays in its channel,
and comes again. -/
def State.atHome (s : State) (q : HReq) (l : LineId) : State :=
  match s.home l with
  | none => s.failReq q
  | some r =>
    if !l.host && (s.deadDev (l.line.toNat * 256)).isSome then s.failReq q
    else match s.txn r l with
    | some x =>
      if isMemwr q && x.waits.any (fun w => w == .host) then (s.serve r l q).2
      else if !(s.rc r).hasEntry q then (match q with | .msg c => s.emit (.noc c) | _ => s)
      else s.setTxn r l { x with queued := x.queued ++ [q] }
    | none =>
      if !(s.rc r).hasEntry q then (match q with | .msg c => s.emit (.noc c) | _ => s)
      else (State.nextReq r l [q] s).go r l

/-- A message arrives at the home of the line that it names; what a block under a dust sheet had sent is discarded
(04_blocks_and_threads.md R117). -/
def State.toHome (s : State) (c : Instr) : State :=
  match s.reqLine c with
  | none => s
  | some l => if (reqBlock c).any s.blockDust then s else s.atHome (.msg c) l

/-- A response that a line's transaction waits for has come. -/
def State.gotResp (s : State) (l : LineId) (e : Expect) : State :=
  match s.home l with
  | none => s
  | some r =>
    match s.txn r l with
    | none => s
    | some x =>
      if x.waits.any (fun w => decide (w = e)) then
        (s.setTxn r l { x with waits := x.waits.erase e }).go r l
      else s

/-! ### Accesses of the device's engines (01_architecture.md R27) -/

/-- Whether a line is kept for the command of an engine. -/
def State.granted (s : State) (r : Nat) (l : LineId) (c : Instr) : Bool :=
  match s.txn r l with
  | some x => x.served && (match x.req with | .eng d _ _ => decide (d = c) | _ => false)
  | none => false

/-- Whether an engine's access to sectors of a line needs nobody's answer: the line is kept for its command, or it is not blocked
and no other agent holds it against the access. -/
def State.lineReady (s : State) (r : Nat) (l : LineId) (secs : BitVec 4) (wr : Bool) (c : Instr) : Bool :=
  s.granted r l c ||
  ((s.txn r l).isNone &&
    (match s.rline r l with
      | none => !l.host
      | some e =>
        if wr then decide ((clearWaits e l secs none true).1 = []) && (!l.host || hostNeeds (some e) secs true == 0)
        else e.own.isNone && (if l.host then hostNeeds (some e) secs false == 0 else e.hst.toNat != 2)) &&
    (!wr || (s.rc r).resv.all (fun h => !(h.young && resvHit l secs h.sector))))

/-- Whether an engine's access needs nobody's answer on any of its lines. -/
def State.linesReady (s : State) (c : Instr) (ls : List (LineId × BitVec 4)) (wr : Bool) : Bool :=
  ls.all (fun x => match s.home x.1 with | some r => s.lineReady r x.1 x.2 wr c | none => true)

/-- Whether an engine's command has asked for a line already. -/
def State.engAsked (s : State) (r : Nat) (l : LineId) (c : Instr) : Bool :=
  let mine : HReq → Bool := fun q => match q with | .eng d _ _ => decide (d = c) | _ => false
  match s.txn r l with
  | some x => mine x.req || x.queued.any mine
  | none => false

/-- An engine's command asks for the first of its lines that is not ready; the line is kept for it once its holders have answered,
and the command goes round and comes again (notes/assumptions 59). True when all are ready. -/
def State.atHomes (s : State) (c : Instr) (ls : List (LineId × BitVec 4)) (wr : Bool) : Bool × State :=
  if s.linesReady c ls wr then (true, s)
  else
    match ls.find? (fun x => match s.home x.1 with | some r => !(s.lineReady r x.1 x.2 wr c) | none => false) with
    | none => (true, s)
    | some (l, k) => match s.home l with
      | none => (true, s)
      | some r =>
        let t := if s.engAsked r l c then s else s.atHome (.eng c k wr) l
        if t.linesReady c ls wr then (true, t) else (false, t.emit (.noc c))

/-- The lines kept for an engine's command are let go. -/
def State.releaseLines (s : State) (c : Instr) (ls : List (LineId × BitVec 4)) : State :=
  s.each ls (fun t x => match t.home x.1 with
    | none => t
    | some r => if t.granted r x.1 c then t.gotResp x.1 .engine else t)

/-- Requests whose senders are gone leave the homes: those that queue are dropped, one that its line is blocked for ends without an
effect, and one that has been served waits no more. -/
def State.dropReqs (s : State) (mine : HReq → Bool) : State :=
  s.each (List.range 5) (fun t r =>
    let c := t.rc r
    if !(c.txns.any (fun x => mine x.req || x.queued.any mine)) then t
    else
      let t1 := t.setRc r { c with txns := c.txns.map (fun x => { x with queued := x.queued.filter (fun q => !(mine q)) }) }
      let ks := ((t1.rc r).txns.filter (fun x => mine x.req && x.served)).map (fun x => x.line)
      (t1.setRc r { t1.rc r with txns := (t1.rc r).txns.map (fun x =>
        if mine x.req && x.served then { x with waits := [] }
        else if mine x.req then { x with req := .msg (.rdcurr .queue (lineAt x.line) 15) } else x) }).goAll r ks)

/-- Engines' commands that will not come again give up the lines that they asked for. -/
def State.dropEng (s : State) (p : Instr → Bool) : State :=
  s.dropReqs (fun q => match q with | .eng d _ _ => p d | _ => false)

/-- The lines and sectors of a range of bytes. -/
def secsOf (host : Bool) (a n : Nat) : List (LineId × BitVec 4) :=
  if n = 0 then [] else
  (List.range ((a % 256 + n + 255) / 256)).map (fun k =>
    let lo := if k = 0 then a % 256 else 0
    let hi := Nat.min 256 (a % 256 + n - 256 * k)
    (lineFor host ((a / 256 + k) * 256), maskSecs (maskOf lo (hi - lo))))

/-- Write bytes on lines that nobody else holds: each line one coherent write at its home. -/
def State.lineWrite (s : State) (host : Bool) (a : Nat) (bs : List Byte) (bad : Nat → BitVec 4) : State :=
  s.each (linesOf a bs) (fun t p =>
    let l := lineFor host (p.1 * 256)
    if host then t.ioLine l (maskOf p.2.1 p.2.2.length) (linePut 0 p.2.1 p.2.2) (bad p.1)
    else t.cohLine l (maskOf p.2.1 p.2.2.length) (linePut 0 p.2.1 p.2.2) (bad p.1) none)

end Sys2Proof.Machine
end

