-- ==== Sys2Proof/Machine/Except.lean ====
section
/-! DEFINITION. Taking an exception: into the thread's handler, merged, or ending the kernel (05_veltur_instructions.md R154,
R155). -/
namespace Sys2Proof.Machine

/-- An exception ends the kernel: its record is written, or waits with the thread, and then the kernel is aborted
(05_veltur_instructions.md R154; 04_blocks_and_threads.md R115, R116). -/
def State.endBy (s : State) (b t : Nat) (e : Raised) : State :=
  let th := s.thr b t
  let s1 := s.setThr b t { th with
    stat := .ending, ends := some { ecode := BitVec.ofNat 8 e.ex.code, ia := e.ia, sts3 := e.sts3 } }
  let s2 := s1.offer (s1.plainRec 0 b e.sts3 (e.ex.code * 2 ^ 24 + t) 0 (s1.threadAux b e.ia)) (some (b, t))
  s2.recordFreed (some (b, t))

/-- Deliver an exception to a thread: into its handler, merged, or ending the kernel (05_veltur_instructions.md R154). resume is
the address that STS1 takes. -/
def State.deliver (s : State) (b t : Nat) (resume : W64) (e : Raised) : State :=
  let th := s.thr b t
  if e.ex.handled = false then s.endBy b t e
  else if bit th.sts0 38 then
    if e.cell.isSome ∧ (e.ex = .cellLost ∨ e.ex = .dataPoison) then s.setThr b t (th.sts 37 37 1)
    else s.endBy b t e
  else if th.tha = 0 then s.endBy b t e
  else
    let th1 := (th.sts 15 8 e.ex.code).sts 38 38 1
    let th2 := match e.cell with | some c => th1.sts 19 16 c.toNat | none => th1
    (s.setThr b t { th2 with sts1 := resume, sts2 := e.ia, sts3 := e.sts3, pc := th.tha, tha := 0, stat := .ready }).clearResv b t

end Sys2Proof.Machine
end

