-- ==== Sys2Proof/Machine/Operands.lean ====
section
/-! DEFINITION. The operand forms of the Veltur instructions, and how one issues: fetch, checks, guard, exceptions and the
program counter (05_veltur_instructions.md R122 to R126, R153 to R157; 04_blocks_and_threads.md R89). -/
namespace Sys2Proof.Machine

/-- IMM38 of format I: bits [63:26], signed (Table 5-5). -/
def imm38 (w : W0) : Int := sext 38 (w.x.toNat * 4096 + w.c.toNat * 64 + w.b.toNat)
/-- OFF22 of format M, signed. -/
def off22 (w : W0) : Int := sext 22 (bits w.x 25 4)
/-- SIZE of format M, in bytes. -/
def sizeM (w : W0) : Nat := 2 ^ bits w.x 1 0
/-- SX of format M. -/
def sxM (w : W0) : Bool := bit w.x 2
/-- SPACE of format M: true for a block-store offset. -/
def spaceM (w : W0) : Bool := bit w.x 3
/-- Whether the guard lets the instruction run (R124). -/
def guardOn (w : W0) (t : Thread) : Bool := !w.pe || (t.pred w.pr != w.pn)
/-- The predicate that D names. -/
def pd (w : W0) : BitVec 3 := w.d.setWidth 3
/-- The tile descriptor that D names. -/
def tdn (w : W0) : BitVec 4 := w.d.setWidth 4

/-- The address of format M: g[A] + OFF22. -/
def addrM (t : Thread) (w : W0) : W64 := t.reg w.a + w64 (off22 w)

/-- What an instruction's own rule makes of it. -/
inductive Res where
  | done (s : State)
  | skip
  | jump (s : State) (pc : W64)
  | stay (s : State)
  | held
  | exc (e : Ex) (v : W64)
  | xfault (s : State) (e : Ex) (va : W64) (access cause : Nat)

/-- What the issue logic must know of an instruction: two words or one; a reserved field or value in it, which is illegal whatever
its guard says (R125); any other illegal form, which raises only when the instruction executes (R124, notes/assumptions 60); the g
registers that it reads or writes; whether it is held back by a full or acquire fence, and by a release fence; whether it may
not stand between a control-window access and FENCE.IO; whether it clears IOF. -/
structure Form where
  long : Bool := false
  bad : Bool := false
  ill : Bool := false
  regs : List (BitVec 6) := []
  mem : Bool := false
  wr : Bool := false
  brk : Bool := false
  iof : Bool := false

/-- Whether a fence that waits holds an instruction back (06_memory_ordering.md R162). -/
def Thread.fenced (t : Thread) (f : Form) : Bool :=
  t.fences.any (fun x => if x.kind.toNat = 2 then f.wr else f.mem)

/-- Whether a register that the instruction reads or writes waits for an outstanding access (R89, R119). -/
def Thread.awaits (t : Thread) (f : Form) : Bool :=
  t.accs.any (fun a => match a.kind.dest with | some d => f.regs.any (fun r => r == d) | none => false)

/-- Cell exceptions that meet a running handler merge into EMORE (R154). -/
def Thread.merge (t : Thread) : Thread :=
  if bit t.sts0 38 then
    let cellish : Deferred → Bool := fun d => match d with | .cellPoison _ _ => true | .cellLost _ _ => true | _ => false
    if t.deferred.any cellish then { t.sts 37 37 1 with deferred := t.deferred.filter (fun d => !cellish d) } else t
  else t

/-- The PASID of a block's task. -/
def State.pasidOf (s : State) (b : Nat) : BitVec 20 := match (s.blk b).task with | some k => k.pasid | none => 0

/-- A thread is suspended at its instruction while its translation is asked for; its reservation clears
(06_memory_ordering.md R168). page tells that it sent a page request of its own, and fetch that it was for its fetch. -/
def State.suspend (s : State) (b t : Nat) (page fetch : Bool) : State :=
  let th := s.thr b t
  (s.setThr b t { th with stat := .pageWait, tries := if page && !fetch then th.tries + 1 else th.tries,
                          ftries := if page && fetch then th.ftries + 1 else th.ftries }).clearResv b t

/-- An instruction completes: the program counter moves on, and a saved tile offset clears (R114). -/
def State.retire (s : State) (b t : Nat) (pc : W64) (clearIof : Bool) : State :=
  let th := s.thr b t
  let th1 := if bit th.sts0 43 then (th.sts 43 43 0).sts 63 44 0 else th
  let th2 := if clearIof then th1.sts 42 42 0 else th1
  s.setThr b t { th2 with pc := pc, tries := 0, ftries := 0 }

/-- What the checks, the guard and the instruction's own rule make of it, once it is fetched. -/
def State.judge (s : State) (th : Thread) (w : W0) (f : Form) (body : State → Thread → Res) : Res :=
  if f.bad || w.l != f.long then .exc .illegalInstruction 0
  else if !(guardOn w th) then .skip
  else if f.ill then .exc .illegalInstruction 0
  else if th.fenced f || th.awaits f then .held
  else if f.brk && bit th.sts0 41 then .exc .cwUnfenced 0
  else body s th

/-- A precise translation fault: its record, with the tile byte offset of a tile store that stopped, and then its exception
(10_translation.md R283; 04_blocks_and_threads.md R113, notes/assumptions 61). -/
def State.xltEnd (s0 : State) (b t : Nat) (next ia : W64) (e : Ex) (va : W64) (access cause : Nat) : State :=
  let s := match (s0.blk b).task with | some k => if cause = 10 then s0.hostStop k.q else s0 | none => s0
  let th := s.thr b t
  let more := if bit th.sts0 43 && decide (th.sts2 = ia) && access == 1 then leBytes 4 (bits th.sts0 63 44) else []
  (s.xltRecord (s.pasidOf b) va access cause (128 * b + t) b (some (b, t)) more).deliver b t next
    { ex := e, ia := ia, sts3 := va, cell := none }

/-- A result takes effect; a late exception that waits is delivered in the instruction's place, a precise one first
(R155). -/
def State.settle (s : State) (b t : Nat) (f : Form) (r : Res) : State :=
  let th := s.thr b t
  let ia := th.pc
  let next := ia + (if f.long then 16 else 8)
  match r with
  | .held => s
  | .skip =>
    match th.deferred with
    | d :: rest => (s.setThr b t { th with deferred := rest }).deliver b t ia (raisedBy d)
    | [] => s.retire b t next false
  | .exc e v => s.deliver b t next { ex := e, ia := ia, sts3 := v, cell := none }
  | .xfault s1 e va a c => s1.xltEnd b t next ia e va a c
  | .done s1 =>
    match th.deferred with
    | d :: rest => (s.setThr b t { th with deferred := rest }).deliver b t ia (raisedBy d)
    | [] => s1.retire b t next f.iof
  | .jump s1 pc =>
    match th.deferred with
    | d :: rest => (s.setThr b t { th with deferred := rest }).deliver b t ia (raisedBy d)
    | [] => s1.retire b t pc f.iof
  | .stay s1 =>
    match th.deferred with
    | d :: rest => (s.setThr b t { th with deferred := rest }).deliver b t ia (raisedBy d)
    | [] => s1

/-- The words of a thread's next instruction are fetched, the second one of a two-word instruction too when it stands on another page
(R122, 10_translation.md R274); then k goes on. -/
def State.fetch (s : State) (b n : Nat) (next : W64) (second : Bool) (k : State → State) : State :=
  let th := s.thr b n
  let one : W64 → (State → State) → State → State := fun va go u =>
    match u.translate { unit := b, who := .thread b n, pasid := u.pasidOf b, va := va, write := false, fetch := true,
                        tries := th.ftries } with
    | .ok _ v => go v
    | .refused => u.deliver b n next { ex := .illegalAddress, ia := th.pc, sts3 := va, cell := none }
    | .denied => u.deliver b n next { ex := .protection, ia := th.pc, sts3 := va, cell := none }
    | .fault c v => v.xltEnd b n next th.pc .pageFault va 2 c
    | .wait page v => v.suspend b n page true
    | .hold => u
  one th.pc (fun v => if second && pageOf (th.pc + 8) != pageOf th.pc then one (th.pc + 8) k v else k v) s

/-- A thread's next instruction issues, when the thread is ready: it is fetched, and then its rule is applied. A thread that is
not ready issues nothing, nor does any while ACLK has lost its lock (17_power_clocks_startup.md R466). -/
def issue (t : Th) (w : W0) (f : Form) (body : State → Thread → Res) (s0 : State) : State :=
  let b := t.blk.val
  let n := t.thr.val
  if (s0.thr b n).stat ≠ .ready ∨ s0.rst.plls.getLsbD 0 = false then s0
  else
    let s := if (s0.thr b n).deferred.isEmpty then s0 else s0.setThr b n (s0.thr b n).merge
    let th := s.thr b n
    s.fetch b n (th.pc + (if f.long then 16 else 8)) (f.long && w.l) (fun u => u.settle b n f (u.judge th w f body))

/-- An instruction that only changes its thread's registers. -/
def issueThread (t : Th) (w : W0) (f : Form) (g : Thread → Thread) (s : State) : State :=
  issue t w f (fun s th => .done (s.setThr t.blk.val t.thr.val (g th))) s

/-- An integer instruction of format R that writes g[D] from g[A] and g[B] (R127). -/
def issueInt (t : Th) (w : W0) (f : W64 → W64 → W64) (s : State) : State :=
  issueThread t w { regs := [w.a, w.b, w.d] } (fun th => th.setReg w.d (f (th.reg w.a) (th.reg w.b))) s

/-- An instruction of format R that writes g[D] from g[A] (R127). -/
def issueUn (t : Th) (w : W0) (f : W64 → W64) (s : State) : State :=
  issueThread t w { regs := [w.a, w.d] } (fun th => th.setReg w.d (f (th.reg w.a))) s

/-- A predicate instruction: p[D] from p[A] and p[B] (R128). -/
def issuePred (t : Th) (w : W0) (f : Bool → Bool → Bool) (s : State) : State :=
  issueThread t w {} (fun th => th.setPred (pd w) (f (th.pred (w.a.setWidth 3)) (th.pred (w.b.setWidth 3)))) s

/-- A compare by a condition code of Table 5-8; ok tells which codes are not reserved. -/
def issueCmp (t : Th) (w : W0) (ok : Nat → Bool) (f : Thread → Nat → Thread) (s : State) : State :=
  issueThread t w { bad := !(ok (bits w.x 2 0)), regs := [w.a, w.b] } (fun th => f th (bits w.x 2 0)) s

end Sys2Proof.Machine
end

