-- ==== Sys2Proof/Machine/Control.lean ====
section
/-! DEFINITION. The control instructions (05_veltur_instructions.md Table 5-9). -/
namespace Sys2Proof.Machine

/-- A branch to an address, which must be a multiple of 8 (R122). -/
def branchTo (s : State) (pc : W64) : Res := if bits pc 2 0 = 0 then .jump s pc else .exc .misaligned pc

/-- NOP: nothing (R130). opc is the OPC field: 0x40 is NOP and a reserved opcode raises an illegal-instruction exception
(R125). -/
def execNop (t : Th) (w : W0) (opc : Byte) (s : State) : Host.Outcome State Fault Refusal :=
  .next (issue t w { bad := opc != 0x40#8, long := w.l && opc != 0x40#8 } (fun s _ => .done s) s)

/-- BRA: pc = pc + 8 × IMM38, from its own address (R130). -/
def execBra (t : Th) (w : W0) (s : State) : Host.Outcome State Fault Refusal :=
  .next (issue t w {} (fun s th => branchTo s (th.pc + w64 (8 * imm38 w))) s)

/-- BR: pc = g[A] (R130). -/
def execBr (t : Th) (w : W0) (s : State) : Host.Outcome State Fault Refusal :=
  .next (issue t w { regs := [w.a] } (fun s th => branchTo s (th.reg w.a)) s)

/-- CALL: g[D] = the address of the next instruction, and pc = pc + 8 × IMM38 (R130). -/
def execCall (t : Th) (w : W0) (s : State) : Host.Outcome State Fault Refusal :=
  .next (issue t w { regs := [w.d] } (fun s th =>
    branchTo (s.setThr t.blk.val t.thr.val (th.setReg w.d (th.pc + 8))) (th.pc + w64 (8 * imm38 w))) s)

/-- END: the thread stops issuing (R145); it ends when END_COMPLETE comes. -/
def execEndThread (t : Th) (w : W0) (s : State) : Host.Outcome State Fault Refusal :=
  .next (issue t w { brk := true } (fun s th =>
    .stay (s.setThr t.blk.val t.thr.val { th with stat := .ending })) s)

/-- TRAP: raises TRAP with code X[15:0] (R130). -/
def execTrap (t : Th) (w : W0) (s : State) : Host.Outcome State Fault Refusal :=
  .next (issue t w {} (fun _ _ => .exc .trap (BitVec.ofNat 64 (bits w.x 15 0))) s)

/-- ERET: pc = STS1 and EACT = 0 (R130); STS1 must be a multiple of 8 (R122). -/
def execEret (t : Th) (w : W0) (s : State) : Host.Outcome State Fault Refusal :=
  .next (issue t w {} (fun s th => branchTo (s.setThr t.blk.val t.thr.val (th.sts 38 38 0)) th.sts1) s)

/-- Whether an entry of a cell's queue is the marker of a tile instruction. -/
def CellOp.isMark : CellOp → Bool
  | .load _ _ _ _ _ => true
  | .store _ _ _ _ _ => true
  | _ => false

/-- Whether a thread's cell instructions wait in a cell of its block (R120, R132). -/
def State.cellsBusy (s : State) (b t : Nat) : Bool :=
  (List.range 17).any (fun p => ((s.blk b).cell p).queue.any (fun e => e.t.thr.val == t && !e.op.isMark))

/-- The special registers (Table 5-2). -/
def Thread.special (t : Thread) (n : Nat) : W64 :=
  match n with
  | 0 => t.fflags.setWidth 64
  | 1 => t.sts0
  | 2 => t.sts1
  | 3 => t.sts2
  | 4 => t.sts3
  | 5 => t.tha
  | _ => t.cycles

/-- A thread with a special register written: RO registers and fields stay as they are (R120, Table 5-3). -/
def Thread.setSpecial (t : Thread) (n : Nat) (v : W64) : Thread :=
  match n with
  | 0 => { t with fflags := v.setWidth 5 }
  | 1 => ((t.sts 38 37 (bits v 38 37)).sts 15 8 (bits v 15 8)).sts 7 0 (bits v 7 0)
  | 2 => { t with sts1 := v }
  | 5 => { t with tha := v }
  | _ => t

/-- What RDSR and WRSR wait for: FFLAGS for every earlier cell instruction (R120), and a read of STS0 for every earlier
fence and semaphore instruction (06_memory_ordering.md R163). -/
def State.srWait (s : State) (t : Th) (n : Nat) (read : Bool) : Bool :=
  (n == 0 && s.cellsBusy t.blk.val t.thr.val) ||
    (read && n == 1 && !((s.thr t.blk.val t.thr.val).fences.isEmpty))

/-- RDSR: g[D] = special register X[3:0]; 7 to 15 are illegal (R120). -/
def execRdsr (t : Th) (w : W0) (s : State) : Host.Outcome State Fault Refusal :=
  .next (issue t w { ill := decide (bits w.x 3 0 > 6), regs := [w.d] } (fun s th =>
    if s.srWait t (bits w.x 3 0) true then .held
    else .done (s.setThr t.blk.val t.thr.val (th.setReg w.d (th.special (bits w.x 3 0))))) s)

/-- WRSR: special register X[3:0] = g[A]; 7 to 15 are illegal (R120). -/
def execWrsr (t : Th) (w : W0) (s : State) : Host.Outcome State Fault Refusal :=
  .next (issue t w { ill := decide (bits w.x 3 0 > 6), regs := [w.a] } (fun s th =>
    if s.srWait t (bits w.x 3 0) false then .held
    else .done (s.setThr t.blk.val t.thr.val (th.setSpecial (bits w.x 3 0) (th.reg w.a)))) s)

end Sys2Proof.Machine
end

