-- ==== Sys2Proof/Machine/Wire.lean ====
section
/-! DEFINITION. The frames that the network ports send, as bytes: check sequences, checksums, the Ethernet, IPv6, UDP and UMT headers, and
the answer to a neighbour's question (12_umakin_transport.md R309 to R311, R314, R316, R317). -/
namespace Sys2Proof.Machine

/-! ### Check sequences and checksums -/

/-- One bit of a reflected 32-bit cyclic redundancy register. -/
def crcStep (poly c : W32) : W32 := if c.getLsbD 0 then (c >>> 1) ^^^ poly else c >>> 1

/-- A reflected 32-bit cyclic redundancy check of bytes: all ones first and inverted last. -/
def crcOf (poly : W32) (bs : List Byte) : W32 :=
  ~~~(bs.foldl (fun c b => (List.range 8).foldl (fun x _ => crcStep poly x) (c ^^^ b.setWidth 32)) (BitVec.allOnes 32))

/-- The CRC-32C of bytes: the Castagnoli polynomial (R316, notes/assumptions 10). -/
def crc32c (bs : List Byte) : W32 := crcOf 0x82F63B78 bs

/-- The frame check sequence of IEEE 802.3, which the MAC appends, least significant byte first (notes/assumptions 66). -/
def withFcs (bs : List Byte) : List Byte := bs ++ leBytes 4 (crcOf 0xEDB88320 bs).toNat

/-- The ones' complement sum of bytes taken as 16-bit words, most significant byte first. -/
def onesSum : List Byte → Nat
  | [] => 0
  | [a] => a.toNat * 256
  | a :: b :: t => a.toNat * 256 + b.toNat + onesSum t

/-- The 16-bit ones' complement checksum of a sum. -/
def onesFold (n : Nat) : Nat :=
  let a := n % 65536 + n / 65536
  let b := a % 65536 + a / 65536
  65535 - (b % 65536 + b / 65536)

/-- A number as n bytes, most significant first. -/
def beBytes (n v : Nat) : List Byte := (leBytes n v).reverse

/-- n bytes of a frame from a place on, most significant first. -/
def beAt (bs : List Byte) (o n : Nat) : Nat := leVal ((bs.drop o).take n).reverse

/-! ### Headers (Table 12-2) -/

/-- The IPv6 address of NET_PREFIX, a device number and an interface field (R310). -/
def State.ipOf (s : State) (dev ifc : Nat) : Nat := s.net.pfxH.toNat * 2 ^ 64 + s.net.pfxL.toNat * 2 ^ 32 + dev * 65536 + ifc

/-- The Ethernet header with its 802.1Q tag: NET_PORT_NH, NET_PORT_MAC, the priority code point and VLAN 0, and IPv6 (R309, R310). -/
def etherHead (x : Ifc) (pcp : Nat) : List Byte :=
  beBytes 6 (bits x.nh 47 0) ++ beBytes 6 (bits x.mac 47 0) ++ beBytes 2 0x8100 ++ beBytes 2 (pcp * 2 ^ 13) ++ beBytes 2 0x86DD

/-- The IPv6 header: DSCP 8 × PCP and an ECN field in the traffic class. -/
def ipHead (pcp ecn flow len next hop src dst : Nat) : List Byte :=
  beBytes 4 (6 * 2 ^ 28 + (32 * pcp + ecn) * 2 ^ 20 + flow) ++ beBytes 2 len ++ beBytes 1 next ++ beBytes 1 hop ++ beBytes 16 src ++
    beBytes 16 dst

/-- The checksum of UDP or ICMPv6 over the pseudo-header and the message, whose own field holds 0. -/
def ipSum (src dst next : Nat) (msg : List Byte) : Nat :=
  onesFold (onesSum (beBytes 16 src ++ beBytes 16 dst) + msg.length + next + onesSum msg)

/-- The UMT header of a packet (Table 12-3). -/
def umtHead (p : TxPkt) : List Byte :=
  beBytes 1 (16 + p.typ.toNat) ++
  beBytes 1 (128 * b2n p.isFirst + 64 * b2n p.isLast + 32 * b2n p.ackReq + 16 * b2n p.notify + 8 * b2n p.mcast.isSome + 4 * b2n p.retx) ++
  beBytes 2 (p.payload.length % 8192) ++ beBytes 4 (p.path.toNat * 2 ^ 26 + p.gen.toNat * 2 ^ 18 + p.dqpn % 2 ^ 18) ++
  beBytes 4 (p.sqpn % 2 ^ 18) ++ beBytes 1 p.ceCnt.toNat ++ beBytes 3 p.psn.toNat ++ beBytes 8 p.addr.toNat ++ beBytes 4 p.aux.toNat ++
  beBytes 4 p.ts.toNat

/-- The multicast extension of a packet: the pod number and the member mask, most significant byte first (R317). -/
def umtExt (p : TxPkt) : List Byte :=
  match p.mcast with
  | some (pod, mask) => [pod, 0, 0, 0] ++ beBytes 32 mask.toNat
  | none => []

/-- The packets of the data class (Table 12-4). -/
def isData (typ : BitVec 4) : Bool := typ == 0 || typ == 2 || typ == 3

/-- The priority code point of a packet: 6 for a control packet, NET_GCTL.DPRIO for a data packet (Table 12-2). -/
def State.pcpOf (s : State) (p : TxPkt) : Nat := if isData p.typ then bits s.net.gctl 34 32 else 6

/-- What the UDP datagram of a packet carries: the UMT header, its extension, the payload and the trailer (R316). -/
def umtBody (p : TxPkt) : List Byte :=
  let b := umtHead p ++ umtExt p ++ p.payload
  b ++ beBytes 4 (crc32c b).toNat

/-- The UMT frame of a packet that leaves on interface i (Table 12-2). A computed checksum of 0 goes as all ones, as UDP over IPv6 has it
(notes/assumptions 66). -/
def State.umtBytes (s : State) (i : Nat) (p : TxPkt) : List Byte :=
  let pcp := s.pcpOf p
  let src := s.ipOf s.xlt.devnum.toNat i
  let dst := s.ipOf p.dst.toNat p.dstIfc
  let body := umtBody p
  let len := 8 + body.length
  let udp : Nat → List Byte := fun c =>
    beBytes 2 (0xC000 + p.sqpn % 256 * 64 + p.path.toNat) ++ beBytes 2 (bits s.net.gctl 63 48) ++ beBytes 2 len ++ beBytes 2 c ++ body
  let c := ipSum src dst 17 (udp 0)
  withFcs (etherHead (s.ifc i) pcp ++ ipHead pcp 2 (p.sqpn % 2 ^ 14 * 64 + p.path.toNat) len 17 64 src dst ++ udp (if c = 0 then 65535 else c))

/-- The Neighbour Advertisement with which interface i answers a Neighbour Solicitation from an address: solicited unless that is the
unspecified address, overriding, with the interface's own link-layer address (R310; the message's form is IPv6's, notes/assumptions 66). -/
def State.advert (s : State) (i asker : Nat) : List Byte :=
  let src := s.ipOf s.xlt.devnum.toNat i
  let dst := if asker = 0 then 0xFF02 * 2 ^ 112 + 1 else asker
  let msg : Nat → List Byte := fun c =>
    beBytes 2 0x8800 ++ beBytes 2 c ++ beBytes 4 (if asker = 0 then 2 ^ 29 else 2 ^ 30 + 2 ^ 29) ++ beBytes 16 src ++ beBytes 2 0x0201 ++
      beBytes 6 (bits (s.ifc i).mac 47 0)
  withFcs (etherHead (s.ifc i) 6 ++ ipHead 6 0 0 32 58 255 src dst ++ msg (ipSum src dst 58 (msg 0)))

end Sys2Proof.Machine
end

