-- ==== Sys2Proof/Machine/NetOps.lean ====
section
/-! DEFINITION. The operations of the network engine: queue pairs, paths, sending and acknowledging, what becomes of an
operation whose answer has come, congestion control, and dead peers (12_umakin_transport.md). -/
namespace Sys2Proof.Machine

/-! ### Interrupt messages (09_host_port.md R236; 16_stolpel_and_events.md R440) -/

/-- Whether the device is bus master: its memory requests may leave (PCI Express, notes/assumptions 13). -/
def State.busMaster (s : State) : Bool := bit s.hpt.cfg.command 2

/-- One message on a vector: held in the pending bit array while the vector or the function is masked or the device may not master
the bus, and discarded while MSI-X is off, in HOST_LOST and during a function-level reset (16_stolpel_and_events.md R442;
09_host_port.md R256). -/
def State.vector (s : State) (v : Nat) : State :=
  if s.hpt.hostLost || s.hpt.flr || !(bit s.hpt.cfg.msixctl 15) then s
  else if bit s.hpt.cfg.msixctl 14 || (Tab.get Msix.init s.hpt.msix v).masked || !s.busMaster then
    { s with hpt := { s.hpt with pba := Tab.set false s.hpt.pba v true } }
  else s.emit (.msix v)

/-- The messages that the pending bit array holds are sent once nothing holds them. -/
def State.flushMsix (s : State) : State :=
  s.each s.hpt.pba (fun t e =>
    if t.hpt.hostLost || t.hpt.flr || !(bit t.hpt.cfg.msixctl 15) || bit t.hpt.cfg.msixctl 14 || !t.busMaster ||
        (Tab.get Msix.init t.hpt.msix e.1).masked then t
    else
      let u : State := { t with hpt := { t.hpt with pba := Tab.set false t.hpt.pba e.1 false } }
      u.emit (.msix e.1))

/-- A completion event: a message on a vector, or an arrival at a source, which stands in for the vector while the device is
in HOST_LOST (R440). -/
def State.complEvent (s : State) (vec : Option Nat) (src : Nat) : State :=
  match vec with
  | some v => if s.hpt.hostLost then s.event src else s.vector v
  | none => s.event src

/-! ### Interfaces and paths (R308, R332, R333) -/

/-- Network port p. -/
def State.nport (s : State) (p : Nat) : NPort := Tab.get { mode := 0, narrowed := false } s.net.port p
/-- The state with network port p replaced. -/
def State.setNport (s : State) (p : Nat) (x : NPort) : State :=
  { s with net := { s.net with port := Tab.set { mode := 0, narrowed := false } s.net.port p x } }

/-- Whether an interface is present under its port's mode (Table 12-1). -/
def State.ifcPresent (s : State) (i : Nat) : Bool := i % 2 == 0 || (s.nport (i / 2)).mode == 1

/-- Whether an interface carries packets: up, present, NCLK locked, and neither its port nor its region under a dust sheet. -/
def State.ifcServes (s : State) (i : Nat) : Bool :=
  (s.ifc i).up && s.rst.plls.getLsbD 4 && s.ifcPresent i && !s.regionDust (i / 4) &&
    !s.flt.dust.any (fun u => match u with | .netPort p => p.val == i / 2 | _ => false)

/-- The interfaces that a mask of 20 bits names. -/
def State.imask (s : State) : BitVec 20 :=
  BitVec.ofNat 20 ((ones (BitVec.ofNat 20 (bits s.net.gctl 31 12))).foldl (fun a k => if s.ifcPresent k then a + 2 ^ k else a) 0)

/-- The peer device of a queue pair (R319). -/
def State.peer (s : State) (n : Nat) : W16 := match (s.qp n).cfg with | some c => c.peer | none => BitVec.ofNat 16 n
/-- The queue pair that a queue pair sends to (R319). -/
def State.rqpn (s : State) (n : Nat) : Nat := match (s.qp n).cfg with | some c => c.rqpn.toNat | none => s.xlt.devnum.toNat
/-- Whether a queue pair is implicit (R318). -/
def isImplicit (n : Nat) : Bool := decide (n < 65536)
/-- Whether a queue pair is in use: every implicit one, and the explicit ones that were created. -/
def State.qpUsed (s : State) (n : Nat) : Bool := isImplicit n || (s.qp n).cfg.isSome
/-- The generation in force (R344): implicit contexts count from GEN0 as it stood at EN's rise. -/
def State.genOf (s : State) (n : Nat) : Byte := if isImplicit n then s.net.gen0 + (s.qp n).gen else (s.qp n).gen
/-- The state in which a queue pair has a generation. -/
def State.setGen (s : State) (n : Nat) (g : Byte) : State :=
  s.setQp n { s.qp n with gen := if isImplicit n then g - s.net.gen0 else g }

/-- How many paths a queue pair sprays over (R332). -/
def State.pathsOf (s : State) (n : Nat) : Nat := match (s.qp n).cfg with | some c => c.paths | none => bits s.net.gctl 11 6 + 1
/-- The local interfaces of a queue pair. -/
def State.lifs (s : State) (n : Nat) : List Nat := ones (match (s.qp n).cfg with | some c => c.lmask | none => s.imask)
/-- The remote interfaces of a queue pair. -/
def State.rifs (s : State) (n : Nat) : List Nat := ones (match (s.qp n).cfg with | some c => c.rmask | none => s.imask)
/-- The local interface of path k (R332). -/
def State.pathIfc (s : State) (n k : Nat) : Nat := (s.lifs n).getD (k % (s.lifs n).length) 0
/-- The remote interface of path k (R332). -/
def State.pathRem (s : State) (n k : Nat) : Nat := (s.rifs n).getD (k % (s.rifs n).length) 0
/-- Whether a path's interface serves. -/
def State.pathUp (s : State) (n k : Nat) : Bool := !(s.lifs n).isEmpty && s.ifcServes (s.pathIfc n k)

/-- The bytes outstanding on a path. -/
def Qp.onPath (q : Qp) (k : Nat) : Nat :=
  ((q.sent.filter (fun x => x.pkt.path.toNat == k)).map (fun x => x.pkt.payload.length)).foldl Nat.add 0

/-- The path with the fewest bytes outstanding, the lower on a tie. -/
def Qp.leastPath (q : Qp) : List Nat → Option Nat
  | [] => none
  | k :: ks => match q.leastPath ks with
    | none => some k
    | some j => if q.onPath j < q.onPath k then some j else some k

/-- The path for the next packet of a class, and the state, in which every penalty has cleared if every path was under one:
none while every path's interface is down (R333). -/
def State.pickPath (s : State) (n : Nat) (data : Bool) : Option Nat × State :=
  let q := s.qp n
  let up := (List.range (s.pathsOf n)).filter (s.pathUp n)
  let free := up.filter (fun k => !(q.penal.any (fun j => j == k)))
  let choose : List Nat → Option Nat := fun l => if data then q.leastPath l else l.head?
  if free ≠ [] then (choose free, s)
  else (choose up, s.setQp n { q with penal := [] })

/-! ### Sending (R329, R331, R334, R341) -/

/-- A frame leaves on an interface. -/
def State.sendFrame (s : State) (i : Nat) (e : Emit) : State :=
  (s.setIfc i { s.ifc i with tx := satAdd (s.ifc i).tx 1 }).emit e

/-- A UMT packet leaves on an interface, as the frame of Table 12-2. -/
def State.sendPkt (s : State) (i : Nat) (p : TxPkt) : State := s.sendFrame i (.umt i p (s.umtBytes i p))

/-- The low 32 bits of the NCLK count. -/
def State.nclk32 (s : State) : W32 := s.skm.nclk.setWidth 32

/-- NET_CC.INIT as bytes; 0 acts as 2. -/
def State.initWindow (s : State) : Nat := 256 * (if bits s.net.cc 63 48 = 0 then 2 else bits s.net.cc 63 48)

/-- The congestion state that a context takes when it becomes ACTIVE or READY (R340). -/
def Qp.fresh (q : Qp) (w : Nat) : Qp :=
  { q with cwnd := Nat.max 512 (Nat.min w 1048576), alpha := 0x3F800000, rStart := Nat.max 512 (Nat.min w 1048576),
           rEnd := q.snext, rAcked := 0, rMarked := 0, rRtt := 0, rLoss := false, srtt := 0, rttvar := 0, sampled := false,
           expiries := 0, timer := 0, paced := false, pace := 0 }

/-- An implicit queue pair becomes ACTIVE at the first packet that it sends or receives (R320). -/
def State.activate (s : State) (n : Nat) : State :=
  if (s.qp n).state = .idle ∧ isImplicit n then s.setQp n ({ s.qp n with state := .active }.fresh s.initWindow) else s

/-- The bytes of the target that a packet touches. -/
def TxPkt.span (p : TxPkt) : Nat × Nat :=
  (p.addr.toNat, if p.typ = 1 then p.aux.toNat else if p.typ = 4 then (if bit p.aux 4 then 8 else 4) else p.payload.length)

/-- Whether two spans share a 64-byte sector. -/
def sameSector (a b : Nat × Nat) : Bool :=
  decide (a.1 / 64 ≤ (b.1 + (b.2 - 1)) / 64) && decide (b.1 / 64 ≤ (a.1 + (a.2 - 1)) / 64)

/-- The threads, by block × 128 + thread, whose accesses a packet carries: those of an ended task are told apart. -/
def Own.threads : Own → List (Nat × Bool)
  | .acc b t _ => [(128 * b + t, true)]
  | .look b t => [(128 * b + t, true)]
  | .drain ths => ths.map (fun k => (128 * k.1.b + k.1.t, k.1.live))
  | _ => []

/-- Whether two owners have a thread in common (06_memory_ordering.md R160). -/
def sameThread (a b : Own) : Bool := a.threads.any (fun x => b.threads.any (fun y => x == y))

/-- The bytes that a queue pair has sent and that are not acknowledged. -/
def Qp.unacked (q : Qp) : Nat := (q.sent.map (fun x => x.pkt.payload.length)).foldl Nat.add 0

/-- The oldest unacknowledged PSN. -/
def Qp.suna (q : Qp) : BitVec 24 := match q.sent with | x :: _ => x.pkt.psn | [] => q.snext

/-- Whether a packet may leave now: 256 PSNs, 16 atomics, the window or its pace for data (R331, R334, R341), a notification only after
the data before it, which takes the lower PSNs (R330), and no earlier access of its thread to a sector of it that is not answered (R329).
kept are the packets before it that stay. -/
def Qp.mayGo (q : Qp) (kept : List Sent) (x : Sent) : Bool :=
  decide ((q.snext - q.suna).toNat < 256) &&
  (x.pkt.typ != 4 || decide ((q.waits.filter (fun w => w.len == 0)).length < 16)) &&
  (!isData x.pkt.typ || (!kept.any (fun y => isData y.pkt.typ) &&
    (if q.cwnd < 4096 then !q.paced else decide (q.unacked + x.pkt.payload.length ≤ q.cwnd)))) &&
  (x.pkt.typ != 6 || !kept.any (fun y => isData y.pkt.typ)) &&
  !(kept.any (fun y => sameThread y.own x.own && sameSector y.pkt.span x.pkt.span)) &&
  !(q.sent.any (fun y => sameThread y.own x.own && sameSector y.pkt.span x.pkt.span)) &&
  !(q.waits.any (fun y => sameThread y.own x.own && sameSector (y.addr.toNat, Nat.max y.len 1) x.pkt.span))

/-- Whether a packet asks for an immediate acknowledgement: the last of a message, and every 32nd data packet (R335). -/
def asksAck (p : TxPkt) (dcount : Nat) : Bool := p.isLast || (isData p.typ && (dcount + 1) % 32 == 0)

/-- n / d to the nearest, halves up (notes/assumptions 23). -/
def nearest (n d : Nat) : Nat := (2 * n + d) / (2 * d)

/-- NET_TIMERS.RTO_MIN in ns; 0 acts as 1. -/
def State.rtoMin (s : State) : Nat := 1000 * (if bits s.net.timers 31 24 = 0 then 1 else bits s.net.timers 31 24)

/-- RTO in ns: SRTT + 4 × RTTVAR between RTO_MIN and RTO_EST_MAX, and RTO_MIN before the first sample (R338). -/
def State.rto (s : State) (q : Qp) : Nat :=
  if q.sampled then Nat.max s.rtoMin (Nat.min (q.srtt + 4 * q.rttvar) (1000 * bits s.net.timers 23 16)) else s.rtoMin

/-- A context that is used on die becomes the most recently used (R318). -/
def State.useQp (s : State) (n : Nat) : State :=
  if s.net.cached.any (fun k => k == n) then
    { s with net := { s.net with cached := n :: s.net.cached.filter (fun k => k != n) } }
  else s

/-- A packet takes the next PSN and leaves on a path. The retransmission timer starts when none was outstanding (R339), and a window below
4,096 bytes paces what follows (R341). -/
def State.launch (s : State) (n k : Nat) (x : Sent) : State :=
  let q := s.qp n
  let p : TxPkt := { x.pkt with psn := q.snext, path := BitVec.ofNat 6 k, gen := s.genOf n, ts := s.nclk32,
                                ackReq := asksAck x.pkt q.dcount, dst := s.peer n, dstIfc := s.pathRem n k, dqpn := s.rqpn n,
                                sqpn := n }
  let w : List WaitResp :=
    if p.typ = 1 then [{ psn := p.psn, own := x.own, addr := p.addr, len := p.aux.toNat, got := 0 }]
    else if p.typ = 4 then [{ psn := p.psn, own := x.own, addr := p.addr, len := 0, got := 0 }] else []
  let s1 := s.setQp n { q with
    snext := q.snext + 1, sent := q.sent ++ [{ pkt := p, own := x.own, order := q.order }], order := q.order + 1,
    dcount := if isData p.typ then q.dcount + 1 else q.dcount, waits := q.waits ++ w,
    timer := if q.sent = [] then s.rto q else q.timer,
    paced := q.paced || (isData p.typ && decide (q.cwnd < 4096)),
    pace := if isData p.typ && decide (q.cwnd < 4096) then nearest (q.srtt * 4096) q.cwnd else q.pace }
  (s1.useQp n).sendPkt (s.pathIfc n k) p

/-- The packets of a queue pair that wait leave as far as they may, in order: the control packets alone, or both classes, each data
packet against what its interface may still take of the queue pair. Answers what is left of that, and the state (R313). -/
def State.pumpList (n : Nat) (ctl : Bool) : List Sent → List Sent → (Nat → Nat) → State → (Nat → Nat) × State
  | [], kept, left, s => (left, s.setQp n { s.qp n with unsent := kept })
  | x :: rest, kept, left, s =>
    let data := isData x.pkt.typ
    if (ctl && data) || !(s.qp n).mayGo kept x then State.pumpList n ctl rest (kept ++ [x]) left s
    else
      match s.pickPath n data with
      | (some k, t) =>
        let i := t.pathIfc n k
        let size := x.pkt.payload.length
        if data && decide (left i < size) then State.pumpList n ctl rest (kept ++ [x]) left t
        else State.pumpList n ctl rest kept (fun j => if data && j == i then left j - size else left j) (t.launch n k x)
      | (none, t) => State.pumpList n ctl rest (kept ++ [x]) left t

/-- Whether a queue pair sends: the engine is enabled, not stopped by the fallback sequencer, and its state lets it. -/
def State.qpSends (s : State) (n : Nat) : Bool :=
  let q := s.qp n
  bit s.net.gctl 0 && !s.net.quiet && (decide (q.state = .active) || decide (q.state = .ready) || decide (q.state = .error))

/-- A queue pair sends its control packets. -/
def State.pumpCtl (s : State) (n : Nat) : State :=
  if s.qpSends n && !(s.qp n).unsent.isEmpty then (State.pumpList n true (s.qp n).unsent [] (fun _ => 0) s).2 else s

/-- One turn of a queue pair in the deficit round robin: its credit on each interface grows by 4,096 bytes, and it sends data up to that.
A queue pair that has nothing more to send keeps no credit. -/
def State.turnQp (a : Tab (List Nat) × State) (n : Nat) : Tab (List Nat) × State :=
  if !a.2.qpSends n || (a.2.qp n).unsent.isEmpty then a
  else
    let had := Tab.get [] a.1 n
    let r := State.pumpList n false (a.2.qp n).unsent [] (fun i => had.getD i 0 + 4096) a.2
    let q := r.2.qp n
    let more := q.unsent.any (fun x => isData x.pkt.typ && q.mayGo [] x)
    (Tab.set [] a.1 n (if more then (List.range 20).map r.1 else []), r.2)

/-- Rounds of the deficit round robin over queue pairs; each sends at least one packet of every queue pair whose window is open. -/
def State.rounds (ns : List Nat) : Nat → Tab (List Nat) × State → State
  | 0, a => a.2
  | fuel + 1, a => State.rounds ns fuel (ns.foldl State.turnQp a)

/-- Queue pairs send what they may: control packets before data packets, and data packets by deficit round robin with a quantum of 4,096
bytes, from the lowest number (R313). -/
def State.pumpQps (s : State) (ns : List Nat) : State :=
  let s1 := s.each ns State.pumpCtl
  State.rounds ns ((ns.map (fun n => (s1.qp n).unsent.length)).foldl Nat.max 0) ([], s1)

/-- A queue pair sends what it may. -/
def State.pumpQp (s : State) (n : Nat) : State := s.pumpQps [n]

/-- A packet of a type, as a whole message. -/
def mkPkt (typ : BitVec 4) (addr : W64) (aux : W32) (payload : List Byte) : TxPkt :=
  { typ := typ, isFirst := true, isLast := true, ackReq := false, notify := false, retx := false, mcast := none, dst := 0,
    dstIfc := 0, path := 0, gen := 0, dqpn := 0, sqpn := 0, ceCnt := 0, psn := 0, addr := addr, aux := aux, ts := 0,
    payload := payload }

/-- Packets of an owner join a queue pair's line, and it sends what it may. -/
def State.netSend (s : State) (n : Nat) (own : Own) (ps : List TxPkt) : State :=
  let s1 := s.activate n
  (s1.setQp n { s1.qp n with unsent := (s1.qp n).unsent ++ ps.map (fun p => { pkt := p, own := own, order := 0 }) }).pumpQp n

/-- Split bytes into parts of at most n, none of which crosses a multiple of n from the address on. -/
def chunksAt (n : Nat) : Nat → Nat → List Byte → List (Nat × List Byte)
  | 0, _, _ => []
  | fuel + 1, a, bs =>
    if bs = [] then [] else (a, bs.take (n - a % n)) :: chunksAt n fuel (a + (n - a % n)) (bs.drop (n - a % n))

/-- The packets of a message of data from an address on: FIRST on the first and LAST on the last (R314). -/
def messageOf (typ : BitVec 4) (aux : W32) (base : Nat) (parts : List (Nat × List Byte)) : List TxPkt :=
  parts.zipIdx.map (fun x => { mkPkt typ (BitVec.ofNat 64 (base + x.1.1)) aux x.1.2 with
    isFirst := x.2 == 0, isLast := x.2 + 1 == parts.length })

/-- The WRITE packets for bytes of a target, none of which crosses a 4 KiB boundary of it (R328). -/
def writePkts (off : Nat) (bs : List Byte) : List TxPkt :=
  messageOf 0 0 0 (chunksAt 4096 (bs.length / 4096 + 2) off bs)

/-- The READ_REQ packet for bytes of a target. -/
def readPkt (off len : Nat) : TxPkt := mkPkt 1 (BitVec.ofNat 64 off) (BitVec.ofNat 32 len) []

/-- The ATOMIC packet of an operation (Table 12-4). -/
def atomicPkt (off : Nat) (op : BitVec 4) (wide : Bool) (a c : W64) : TxPkt :=
  mkPkt 4 (BitVec.ofNat 64 off) (BitVec.ofNat 32 (16 * b2n wide + op.toNat)) (leBytes 8 a.toNat ++ leBytes 8 c.toNat)

/-! ### Local memory of a work request (R321, R322) -/

/-- What a read or write of local memory gives: bytes and the state, or the status of a completion, or a wait for the host's
translation. -/
inductive VirtOut where
  | ok (bs : List Byte) (s : State)
  | bad (status : Byte) (s : State)
  | wait (page : Bool) (s : State)

/-- The parts of a range of addresses, none of which crosses 4 KiB. -/
def pagesOf (va : W64) (n : Nat) : List (W64 × Nat × Nat) :=
  (List.range ((va.toNat % 4096 + n + 4095) / 4096)).map (fun k =>
    let skip := if k = 0 then 0 else 4096 * k - va.toNat % 4096
    (va + BitVec.ofNat 64 skip, skip, Nat.min (n - skip) (if k = 0 then 4096 - va.toNat % 4096 else 4096)))

/-- The requester number of the network engine, and that of the queue front-end, whose translations no rule places
(notes/assumptions 22). -/
def netUnit : Nat := 117
/-- The requester number of the queue front-end. -/
def queUnit : Nat := 116

/-- Read bytes at addresses of a PASID, page by page. -/
def State.virtRead (w : Want) : List (W64 × Nat × Nat) → List Byte → State → VirtOut
  | [], acc, s => .ok acc s
  | (va, _, n) :: rest, acc, s =>
    match s.translate { w with va := va, write := false } with
    | .ok g t =>
      match t.deadAt g with
      | some _ => .bad 1 t
      | none => match g with
        | .dev off => if t.cohBad false off n then .bad 9 t else State.virtRead w rest (acc ++ t.cohRead false off n) t
        | .host h => if t.cohBad true h n then .bad 9 t else State.virtRead w rest (acc ++ t.cohRead true h n) t
        | _ => .bad 8 t
    | .wait p t => .wait p t
    | .hold => .wait false s
    | _ => .bad 8 s

/-- Write bytes at addresses of a PASID, page by page. -/
def State.virtWrite (w : Want) (bs : List Byte) : List (W64 × Nat × Nat) → State → VirtOut
  | [], s => .ok [] s
  | (va, skip, n) :: rest, s =>
    match s.translate { w with va := va, write := true } with
    | .ok g t =>
      match t.deadAt g with
      | some _ => .bad 1 t
      | none => match g with
        | .dev off => State.virtWrite w bs rest (t.cohWrite false off ((bs.drop skip).take n))
        | .host h => State.virtWrite w bs rest (t.cohWrite true h ((bs.drop skip).take n))
        | _ => .bad 8 t
    | .wait p t => .wait p t
    | .hold => .wait false s
    | _ => .bad 8 s

/-- A work request's accesses to local memory. -/
def wrWant (n slot : Nat) (pasid : BitVec 20) (tries : Nat) : Want :=
  { unit := netUnit, who := .wr n slot, pasid := pasid, va := 0, write := false, fetch := false, tries := tries }

/-! ### Completions of explicit queue pairs (R321 to R323) -/

/-- The event of a completion of queue pair n. -/
def State.qpEvent (s : State) (n : Nat) (c : QpCfg) : State :=
  s.complEvent (if c.vsel then some c.vector.toNat else none) (256 + n % 128)

/-- Write a send completion record and raise its event; the work request leaves the queue pair (R322). -/
def State.sendRecord (s : State) (n : Nat) (w : Wr) (status : Nat) (info : W64) : State :=
  let q := s.qp n
  let s1 := s.setQp n { q with wrs := q.wrs.filter (fun x => x.slot != w.slot) }
  match q.cfg with
  | none => s1
  | some c =>
    let wake : State → State := fun t => if bit w.desc 8 then t.qpEvent n c else t
    if status = 0 ∧ bit w.desc 9 = false then wake s1
    else
      let rec' := leBytes 4 (bits w.desc 63 32) ++ leBytes 1 (bits w.desc 7 0) ++ leBytes 1 status ++ leBytes 2 w.slot ++ leBytes 8 info.toNat
      wake (s1.cohWrite false (c.scpl.toNat + 16 * w.slot) rec')

/-- A work request completes; one that did not end well puts a READY queue pair in ERROR, where the ones not started are
flushed (R320). -/
def State.endWr (s : State) (n : Nat) (w : Wr) (status : Nat) (info : W64) : State :=
  let s1 := s.sendRecord n w status info
  if status = 0 ∨ (s1.qp n).state ≠ .ready then s1
  else
    let s2 := s1.setQp n { s1.qp n with state := .error }
    s2.each ((s2.qp n).wrs.filter (fun x => !x.started)) (fun t x => t.sendRecord n x 10 0)

/-- The bytes of a work request. -/
def Wr.len (w : Wr) : Nat := bits w.desc 223 192
/-- The operation of a work request. -/
def Wr.op (w : Wr) : Nat := bits w.desc 6 0

/-- The state with a work request changed. -/
def State.updWr (s : State) (n slot : Nat) (f : Wr → Wr) : State :=
  s.setQp n { s.qp n with wrs := updWhere (fun x : Wr => x.slot == slot) f (s.qp n).wrs }

/-- Write a receive completion record (R323). -/
def State.recvRecord (s : State) (n : Nat) (c : QpCfg) (tag : W32) (kind : Byte) (len imm : W32) : State :=
  let q := s.qp n
  let i := q.rcplIdx.toNat
  let rec' := leBytes 4 tag.toNat ++ leBytes 1 (kind.toNat + 128 * b2n q.rphase) ++ leBytes 2 c.peer.toNat ++ leBytes 1 0
    ++ leBytes 4 len.toNat ++ leBytes 4 imm.toNat
  let wrap := i + 1 == 2 ^ c.rlog2
  let s1 := (s.cohWrite false (c.rcpl.toNat + 16 * i) rec')
  (s1.setQp n { s1.qp n with rcplIdx := if wrap then 0 else q.rcplIdx + 1,
                             rphase := if wrap then !q.rphase else q.rphase }).qpEvent n c

/-! ### What becomes of an operation (R327, R328) -/

/-- How an operation on another device ends, or an answer that brings it nearer to its end. -/
inductive NetEnd where
  | acked
  | bytes (off : Nat) (bs : List Byte) (last : Bool)
  | old (v : W64)
  | refused (st : Byte)
  | dead
  deriving DecidableEq, Repr

/-- One answer of an access has come; the last makes it performed. -/
def Acc.answered (a : Acc) : Acc := { a with left := a.left - 1, performed := decide (a.left ≤ 1) }

/-- A kernel learns that a store of its was refused by another device (06_memory_ordering.md R167). -/
def State.kernelRefused (s : State) (b : Nat) (addr : W64) : State :=
  s.kernelStatus ((s.blk b).task.map (fun k => (k.q, k.slot))) 2 addr

/-- Bytes of another device join what has come for a tile. -/
def bufPut (dev : W16) (off : Nat) (bs : List Byte) (t : Tab Byte) : Tab Byte :=
  bs.zipIdx.foldl (fun a x => Tab.set 0 a (dev.toNat * 2 ^ 46 + off + x.2) x.1) t

/-- An answer reaches an access of a thread (R328, 06_memory_ordering.md R173). -/
def State.answerAcc (s : State) (n : Nat) (b t id : Nat) (addr : W64) (e : NetEnd) : State :=
  match (s.thr b t).accs.find? (fun a => a.id == id) with
  | none => s
  | some a =>
    match e with
    | .acked => if a.kind.stores then s.updAcc b t id Acc.answered else s
    | .bytes off bs last =>
      let s1 := s.updAcc b t id (fun x => match x.kind with
        | .tld _ _ _ _ => { x with buf := bufPut (BitVec.ofNat 16 n) (addr.toNat + off) bs x.buf }
        | _ => { x with res := BitVec.ofNat 64 (leVal bs) })
      if last then s1.updAcc b t id Acc.answered else s1
    | .old v => s.updAcc b t id (fun x => { x with res := v, left := 0, performed := true })
    | .refused _ =>
      let s1 := s.updAcc b t id (fun x => { x.answered with refused := true })
      if a.kind.stores then s1.kernelRefused b a.va else s1
    | .dead =>
      if a.kind.stores then (s.updAcc b t id Acc.answered).discard b t (.device (BitVec.ofNat 16 n)) a.va 1
      else s.updAcc b t id (fun x => { x.answered with bad := true })

/-- An answer reaches a thread that waits at a semaphore (05_veltur_instructions.md R149). -/
def State.endLook (s : State) (b t : Nat) (e : NetEnd) : State :=
  let th := s.thr b t
  match th.sem with
  | none => s
  | some w =>
    let back : SemWait := { w with asked := false }
    match e with
    | .bytes _ bs _ => s.setThr b t { th with sem := some { back with last := BitVec.ofNat 64 (leVal bs), got := true } }
    | .refused _ => (s.setThr b t { th with sem := some back }).defer b t (.remoteError w.ia w.va)
    | _ => s.setThr b t { th with sem := some back }

/-- A drained line of write-combining buffers has reached its device, or not (R328). -/
def State.endDrain (s : State) (n : Nat) (ths : List (Storer × W64)) (e : NetEnd) : State :=
  match e with
  | .refused _ => s.each ths (fun t k =>
      (if k.1.live then t.setThr k.1.b k.1.t ((t.thr k.1.b k.1.t).sts 39 39 1) else t).kernelStatus k.1.kern 2 k.2)
  | .dead => s.each ths (fun t k => t.discardOf k.1 (.device (BitVec.ofNat 16 n)) k.2 1)
  | _ => s

/-- An answer reaches a piece of a copy. -/
def State.endPiece (s : State) (e q slot off : Nat) (r : NetEnd) (read : Bool) : State :=
  let me : Piece → Bool := fun p => p.q == q && p.slot == slot && p.off == off
  let f : Piece → Piece := fun p => match r with
    | .acked => if read then p else { p with left := p.left - 1 }
    | .bytes o bs last => { p with left := if last then p.left - 1 else p.left,
                                   buf := bs.zipIdx.foldl (fun a x => Tab.set 0 a (o + x.2) x.1) p.buf }
    | .old _ => p
    | .refused st => { p with left := p.left - 1, bad := some (p.bad.getD (if st = 3 then 9 else 2, if read then p.src else p.dst)) }
    | .dead => { p with left := p.left - 1, bad := some (p.bad.getD (1, if read then p.src else p.dst)) }
  s.setEng e { s.eng e with pieces := updWhere me f (s.eng e).pieces }

/-- An answer reaches a work request (R322, R327). -/
def State.endWork (s : State) (n slot : Nat) (e : NetEnd) : State :=
  match (s.qp n).wrs.find? (fun w => w.slot == slot), (s.qp n).cfg with
  | some w, some c =>
    let finish' : State → Wr → State := fun t x =>
      if x.left > 0 ∨ x.again then t
      else match x.status with
        | none => t.endWr n x 0 (BitVec.ofNat 64 x.len)
        | some (st, why) => t.endWr n x st.toNat (BitVec.ofNat 64 (why.toNat * 2 ^ 24))
    let one := { w with left := w.left - 1 }
    match e with
    | .acked => if w.op = 3 ∨ w.op = 5 then s else finish' (s.updWr n slot (fun _ => one)) one
    | .bytes off bs _ =>
      match State.virtWrite (wrWant n slot c.pasid w.tries) bs (pagesOf (BitVec.ofNat 64 (bits w.desc 127 64) + BitVec.ofNat 64 off) bs.length) s with
      | .ok _ t =>
        let x := { w with got := w.got + bs.length }
        let t1 := t.updWr n slot (fun _ => x)
        if x.got ≥ x.len then t1.endWr n x 0 (BitVec.ofNat 64 x.len) else t1
      | .bad st t => t.endWr n w st.toNat 0
      | .wait _ t => t
    | .old v => s.endWr n w 0 v
    | .refused st =>
      if w.op = 3 ∨ w.op = 5 then s.endWr n w 2 (BitVec.ofNat 64 (st.toNat * 2 ^ 24))
      else if st = 4 ∧ w.status.isNone then
        let cnt := if w.again then w.rnr else w.rnr + 1
        let x := if cnt ≥ 7 then { one with rnr := cnt, status := some (11, 0) } else { one with rnr := cnt, again := true }
        finish' (s.updWr n slot (fun _ => x)) x
      else
        let x := { one with status := some (w.status.getD (2, st)), again := false }
        finish' (s.updWr n slot (fun _ => x)) x
    | .dead => s
  | _, _ => s

/-- An answer reaches a queue command's semaphore operation (11_queues_and_copy.md R296, R297). -/
def State.endSem (s : State) (q slot : Nat) (addr : W64) (e : NetEnd) : State :=
  let f : Cmd → Cmd := fun c => match e with
    | .acked => c
    | .bytes _ bs _ => { c with left := 0, val := BitVec.ofNat 64 (leVal bs) }
    | .old v => { c with left := 0, val := v }
    | .refused _ => { c with left := 0, first := some (c.first.getD (2, addr)) }
    | .dead => { c with left := 0, first := some (c.first.getD (1, addr)) }
  s.setQ q { s.q q with cmds := updWhere (fun c => c.slot == slot) f (s.q q).cmds }

/-- What has become of a collective's packet is told to the collective engines. -/
def State.endColl (s : State) (n group seq what : Nat) (addr : W64) (e : NetEnd) : State :=
  let base : CollNews := { group := group, seq := seq, what := what, dev := BitVec.ofNat 16 n, addr := addr, old := none, status := none,
                           off := 0, bytes := [] }
  let x : CollNews := match e with
    | .acked => { base with status := some 0 }
    | .old v => { base with old := some v }
    | .refused st => { base with status := some st }
    | .dead => base
    | .bytes off bs _ => { base with status := some 0, off := off, bytes := bs }
  { s with col := { s.col with news := s.col.news ++ [x] } }

/-- An answer reaches an operation's owner. n is the queue pair, addr the target's address, read tells of a READ_REQ. -/
def State.netEnd (s : State) (n : Nat) (own : Own) (addr : W64) (read : Bool) (e : NetEnd) : State :=
  match own with
  | .acc b t id => s.answerAcc n b t id addr e
  | .look b t => s.endLook b t e
  | .drain ths => s.endDrain n ths e
  | .piece g q slot off => s.endPiece g q slot off e read
  | .wr slot => s.endWork n slot e
  | .coll g sq w => s.endColl n g sq w addr e
  | .sem q slot => s.endSem q slot addr e
  | .reply => s

/-! ### Retransmission and congestion (R337 to R341) -/

/-- A packet is sent again, on the path that R333 gives, with the same PSN, ADDR and payload and a new TS. -/
def State.resend (s : State) (n : Nat) (x : Sent) : State :=
  match s.pickPath n (isData x.pkt.typ) with
  | (none, t) => t
  | (some k, t) =>
    let q := t.qp n
    let p : TxPkt := { x.pkt with path := BitVec.ofNat 6 k, ts := t.nclk32, retx := true, gen := t.genOf n,
                                  dstIfc := t.pathRem n k }
    let t1 := t.setQp n { q with sent := updWhere (fun y : Sent => y.pkt.psn == p.psn)
                                   (fun y => { y with pkt := p, order := q.order }) q.sent, order := q.order + 1 }
    t1.sendPkt (t.pathIfc n k) p

/-- NET_CC.MDMAX; 0 acts as 1. -/
def State.mdmax (s : State) : Nat := if bits s.net.cc 15 12 = 0 then 1 else bits s.net.cc 15 12

/-- The window between its bounds (R340). -/
def clampW (w : Nat) : Nat := Nat.max 512 (Nat.min w 1048576)

/-- A path loses a packet: two within 100 µs of OCLK put it under penalty, and the window falls at most once per round
(R337, R340). -/
def State.lostOn (s : State) (n k : Nat) : State :=
  let q := s.qp n
  let now := s.flt.oclk.toNat
  let near := q.losses.any (fun x => x.1 == k && decide (now ≤ x.2 + 10000))
  let q1 := { q with losses := (q.losses.filter (fun x => x.1 != k)) ++ [(k, now)],
                     penal := if near && !(q.penal.any (fun j => j == k)) then q.penal ++ [k] else q.penal }
  s.setQp n (if q.rLoss then q1 else { q1 with rLoss := true, cwnd := clampW (nearest (q.cwnd * (16 - s.mdmax)) 16) })

/-- An RTT sample in ns from NCLK cycles of 1.35 GHz. -/
def nclkNs (c : Nat) : Nat := c * 20 / 27

/-- The sender's estimates take a sample (R338). -/
def Qp.sample (q : Qp) (x : Nat) : Qp :=
  if q.sampled then
    { q with srtt := nearest (7 * q.srtt + x) 8,
             rttvar := nearest (3 * q.rttvar + (if q.srtt ≤ x then x - q.srtt else q.srtt - x)) 4 }
  else { q with srtt := x, rttvar := nearest x 2, sampled := true }

/-- alpha after a round, rounded once to FP32 (R340, notes/assumptions 23). -/
def alphaNext (alpha : W32) (marked acked gshift : Nat) : W32 :=
  match decodeVal fp32 alpha.toNat with
  | .num d =>
    let num := Dy.add { d with m := d.m * ((2 ^ gshift - 1) * acked) } { neg := false, m := marked, e := 0 }
    BitVec.ofNat 32 (finish fp32 0 true (divV (.num num) (.num { neg := false, m := 2 ^ gshift * acked, e := 0 }))).1
  | _ => alpha

/-- w × (1 − alpha / 2), to the nearest. -/
def alphaCut (w : Nat) (alpha : W32) : Nat :=
  match decodeVal fp32 alpha.toNat with
  | .num d =>
    let k := (-d.e).toNat
    let m := d.m * 2 ^ d.e.toNat
    nearest (w * (2 ^ (k + 1) - m)) (2 ^ (k + 1))
  | _ => w

/-- The end of a round (R340). -/
def State.endRound (s : State) (n : Nat) : State :=
  let q := s.qp n
  let cc := s.net.cc
  let gs := if bits cc 23 20 = 0 then 1 else bits cc 23 20
  let tband := 100 * (if bits cc 11 0 = 0 then 1 else bits cc 11 0)
  let target := bits cc 47 32
  let alpha := if q.rAcked = 0 then q.alpha else alphaNext q.alpha q.rMarked q.rAcked gs
  let c1 := if q.rMarked > 0 then alphaCut q.rStart alpha else q.cwnd
  let c2 := if q.rRtt > target ∧ bits cc 19 16 ≠ 0 then
      nearest (q.rStart * (16 - Nat.min (((q.rRtt - target) / tband + 1) * bits cc 19 16) s.mdmax)) 16
    else q.cwnd
  let w := clampW (Nat.min c1 c2)
  s.setQp n { q with alpha := alpha, cwnd := w, rStart := w, rEnd := q.snext, rAcked := 0, rMarked := 0, rRtt := 0, rLoss := false }

/-- Whether PSN a lies before PSN b, modulo 2^24. -/
def psnBefore (a b : BitVec 24) : Bool := decide (a ≠ b) && decide ((b - a).toNat < 2 ^ 23)

/-- Whether an acknowledgement of CUM and a bitmap covers a PSN (R336). -/
def ackCovers (cum : BitVec 24) (map : BitVec 256) (psn : BitVec 24) : Bool :=
  psnBefore psn cum || (decide ((psn - cum).toNat < 256) && map.getLsbD (psn - cum).toNat)

/-- The bitmap of an acknowledgement: bit 0 in the last of its 32 bytes (00_scope.md R5). -/
def ackMap (bs : List Byte) : BitVec 256 := BitVec.ofNat 256 (leVal (bs.take 32).reverse)

/-- An acknowledgement acts on its queue pair's sender (R336 to R341, R329). -/
def State.gotAck (s : State) (n : Nat) (p : Pkt) : State :=
  let q := s.qp n
  let map := ackMap p.payload
  let nak := bits p.aux 23 0
  let st : Byte := BitVec.ofNat 8 (bits p.aux 31 24)
  let done := q.sent.filter (fun x => ackCovers p.psn map x.pkt.psn || (st != 0 && x.pkt.psn.toNat == nak))
  let stay := q.sent.filter (fun x => !(done.any (fun y => y.pkt.psn == x.pkt.psn)))
  let newBytes := (done.map (fun x => x.pkt.payload.length)).foldl Nat.add 0
  let rtt := nclkNs (s.nclk32 - BitVec.ofNat 32 (bits p.addr 63 32) - BitVec.ofNat 32 (bits p.addr 31 0)).toNat
  let ai := 256 * bits s.net.cc 31 24
  let q1 := (q.sample rtt)
  let grow := if p.ceCnt = 0 ∧ rtt < bits s.net.cc 47 32 then clampW (q.cwnd + nearest (ai * newBytes) (Nat.max q.cwnd 1)) else q.cwnd
  let refused : Sent → Bool := fun x => st != 0 && x.pkt.psn.toNat == nak
  let q2 := { q1 with
    sent := stay, cwnd := grow, rAcked := q.rAcked + done.length, rMarked := q.rMarked + p.ceCnt.toNat, rRtt := Nat.max q.rRtt rtt,
    expiries := if done = [] then q.expiries else 0,
    timer := if done = [] then q.timer else s.rto q1,
    waits := q.waits.filter (fun w => !(done.any (fun x => refused x && x.pkt.psn == w.psn))) }
  let s1 := s.setQp n q2
  let s2 := s1.each done (fun t x => t.netEnd n x.own x.pkt.addr (x.pkt.typ == 1)
    (if refused x then .refused st else .acked))
  let lost := stay.filter (fun x => done.any (fun y => y.pkt.path == x.pkt.path && decide (x.order < y.order)))
  let s3 := s2.each lost (fun t x => (t.lostOn n x.pkt.path.toNat).resend n x)
  let q3 := s3.qp n
  let s4 := if done ≠ [] ∧ ackCovers p.psn map q3.rEnd ∨ (done ≠ [] ∧ done.any (fun x => x.pkt.psn == q3.rEnd)) then s3.endRound n else s3
  s4.pumpQp n

/-! ### Dead peers (R342, R343, R345) -/

/-- Everything that a queue pair has outstanding ends with its peer dead. -/
def State.failAll (s : State) (n : Nat) : State :=
  let q := s.qp n
  let s1 := s.setQp n { q with sent := [], unsent := [], waits := [] }
  let ends := (q.sent.filter (fun x => x.pkt.typ != 1 && x.pkt.typ != 4)).map (fun x => (x.own, x.pkt.addr, false))
    ++ q.waits.map (fun w => (w.own, w.addr, true))
    ++ q.unsent.map (fun x => (x.own, x.pkt.addr, x.pkt.typ == 1))
  s1.each ends (fun t e => t.netEnd n e.1 e.2.1 e.2.2 .dead)

/-- The eighth expiry in a row: an implicit queue pair becomes DEAD, an explicit one moves to ERROR (R342, R343). -/
def State.exhaust (s : State) (n : Nat) : State :=
  if isImplicit n then
    let s1 := s.setQp n { s.qp n with state := .dead }
    ((s1.failAll n).report 7 20 2 (BitVec.ofNat 64 n)).event 411
  else
    let q := s.qp n
    let s1 := s.setQp n { q with state := .error, sent := [], unsent := [], waits := [] }
    match q.wrs with
    | [] => s1
    | w :: rest => (s1.sendRecord n w 1 0).each rest (fun t x => t.sendRecord n x 10 0)

/-! ### Acknowledging (R334 to R336) -/

/-- Send an acknowledgement through the interface that received the packet it answers. -/
def State.sendAck (s : State) (n : Nat) (a : AckFor) (status : Byte) (nak : BitVec 24) : State :=
  let q := s.qp n
  let delay := (s.skm.nclk - a.at').toNat % 2 ^ 32
  let p : TxPkt := { mkPkt 7 (BitVec.ofNat 64 (a.ts.toNat * 2 ^ 32 + delay)) (BitVec.ofNat 32 (status.toNat * 2 ^ 24 + nak.toNat))
      (leBytes 32 q.map.toNat).reverse with
    psn := q.cum, path := a.path, gen := s.genOf n, ceCnt := BitVec.ofNat 8 (Nat.min q.ceSince 255), dst := s.peer n,
    dstIfc := a.srcIfc, dqpn := s.rqpn n, sqpn := n }
  (s.setQp n { q with arrived := 0, ceSince := 0, ackFor := none }).sendPkt a.ifc p

/-- What an arriving packet's acknowledgement needs of it. -/
def State.ackOf (s : State) (p : Pkt) : AckFor :=
  { ifc := p.ifc.val, srcIfc := p.srcIfc.val, path := p.path, ts := p.ts, at' := s.skm.nclk }

/-- A frame is dropped and counted in NET_PORT_DROP. -/
def State.dropFrame (s : State) (i : Nat) : State :=
  s.setIfc i { s.ifc i with drop := satAdd (s.ifc i).drop 1 }

/-- A PSN is marked received, and CUM moves over every PSN that is (R334). -/
def Qp.mark (q : Qp) (psn : BitVec 24) : Qp :=
  let m := q.map ||| (1#256 <<< (psn - q.cum).toNat)
  let k := ((List.range 256).find? (fun i => !m.getLsbD i)).getD 256
  { q with map := m >>> k, cum := q.cum + BitVec.ofNat 24 k }

/-- What comes of a packet's arrival before it is performed. -/
inductive Arrive where
  | drop (s : State)
  | dup (s : State)
  | take (s : State)

/-- The receiver's state of a queue pair goes, and it adopts a generation with CUM = 0 (R344). -/
def State.adopt (s : State) (n : Nat) (g : Byte) : State :=
  let s1 := s.setQp n { s.qp n with cum := 0, map := 0, arrived := 0, ackFor := none, atomics := [], msgs := [], held := [], firsts := [] }
  s1.setGen n g

/-- The checks of an arriving packet that belongs to a queue pair (R312, R319, R320, R334, R342, R344). -/
def State.arrive (s0 : State) (p : Pkt) : Arrive :=
  let i := p.ifc.val
  let n := p.dqpn.val
  let s := s0.setIfc i { s0.ifc i with rx := satAdd (s0.ifc i).rx 1, ce := satAdd (s0.ifc i).ce (b2n p.ce) }
  if bit s.net.gctl 0 = false ∨ p.mcast.isSome ∨ !s.qpUsed n ∨ s.peer n ≠ p.srcDev then .drop (s.dropFrame i)
  else if (s.qp n).state = .dead then .drop s
  else
    let s1 := (s.activate n).useQp n
    let ahead := (p.gen - s1.genOf n).toNat
    if ahead ≠ 0 ∧ !(decide (ahead ≤ 127) && decide (p.psn.toNat < 256)) then .drop (s1.dropFrame i)
    else
      let s2 := if ahead = 0 then s1 else s1.adopt n p.gen
      let q := s2.qp n
      let s3 := s2.setQp n { q with ceSince := q.ceSince + b2n p.ce }
      let d := (p.psn - q.cum).toNat
      if psnBefore p.psn q.cum || (decide (d < 256) && q.map.getLsbD d) then .dup s3
      else if d ≥ 256 then .drop s2
      else .take s3

/-- A packet that was taken is marked, and acknowledged when R335 says so. -/
def State.settled (s : State) (p : Pkt) (status : Byte) : State :=
  let n := p.dqpn.val
  let s1 := s.setQp n ((s.qp n).mark p.psn)
  if status ≠ 0 then s1.sendAck n (s.ackOf p) status p.psn
  else
    let q := s1.qp n
    let s2 := s1.setQp n { q with arrived := q.arrived + 1, ackFor := some (q.ackFor.getD (s.ackOf p)) }
    if p.ackReq ∨ q.arrived + 1 ≥ 16 then s2.sendAck n (s.ackOf p) 0 0 else s2

/-- A duplicate is acknowledged and not performed again (R334). -/
def State.again (s : State) (p : Pkt) : State := s.sendAck p.dqpn.val (s.ackOf p) 0 0

/-- Whether a queue pair refuses arrivals: an explicit one that is not READY, and every one after a fallback takeover
(R320; 15_faults_and_dust_sheets.md Table 15-7). -/
def State.refuses (s : State) (n : Nat) : Bool :=
  s.net.quiet || (!isImplicit n && decide ((s.qp n).state ≠ .ready))

/-! ### Checks at the target (R325, Table 12-5) -/

/-- Whether one window grants an access of a device: perm 2 read, 1 write, 0 atomic. -/
def Win.grants (w : Win) (src : W16) (off len perm : Nat) : Bool :=
  let mask := bits w.src 31 16
  let base := bits w.base 45 12 * 4096
  bit w.base 63 && bit w.base (60 + perm) && (Nat.land src.toNat mask == Nat.land (bits w.src 15 0) mask) &&
    decide (base ≤ off) && decide (off + len ≤ base + bits w.len 45 12 * 4096)

/-- The status of an access of a peer to this device's memory: OK, WINDOW, UNPOPULATED or POISON for a dead port or a region
under a dust sheet. -/
def State.peerCheck (s : State) (src : W16) (off len perm : Nat) : Byte :=
  let ok := (List.range 256).any (fun k => (Tab.get Win.init s.net.win k).grants src off len perm)
  if !ok then 1
  else if (List.range ((off % 1024 + len + 1023) / 1024)).any (fun k => (s.place (off / 1024 * 1024 + 1024 * k)).isNone) then 2
  else if (List.range ((off % 1024 + len + 1023) / 1024)).any (fun k => (s.deadDev (off / 1024 * 1024 + 1024 * k)).isSome) then 3
  else 0

end Sys2Proof.Machine
end

