-- ==== Sys2Proof/Machine/ScalarMem.lean ====
section
/-! DEFINITION. The scalar memory instructions and their completions (05_veltur_instructions.md R142 to R144;
06_memory_ordering.md R158 to R173; 07_caches_and_coherence.md R190). -/
namespace Sys2Proof.Machine

/-- An address of a thread is translated and handed on; a refused class, a read-only page and an address with no translation
raise precise exceptions (R142, 10_translation.md R265 to R274), and collective space is refused
(13_collectives_and_hawk_store.md R358). -/
def State.access (s : State) (b t : Nat) (th : Thread) (va : W64) (write atom : Bool) (k : Target → State → Res) : Res :=
  let code := if atom then 3 else if write then 1 else 0
  match s.translate { unit := b, who := .thread b t, pasid := s.pasidOf b, va := va, write := write, fetch := false,
                      tries := th.tries } with
  | .ok g s1 =>
    match g with
    | .remote _ off => if off / 2 ^ 44 % 4 = 3 then .exc .illegalAddress va else k g s1
    | _ => k g s1
  | .refused => .exc .illegalAddress va
  | .denied => .xfault s .protection va code 2
  | .fault c s1 => .xfault s1 .pageFault va code c
  | .wait page s1 => .stay (s1.suspend b t page false)
  | .hold => .held

/-- Whether a tile instruction of a thread that reads or writes its block's store has not done so: accesses of a thread to the
block store are performed in program order (R160). -/
def Thread.tileBusy (t : Thread) : Bool :=
  t.accs.any (fun a => match a.kind with
    | .tld e _ _ d => bits e 17 16 == 2 || bits d 220 219 == 2
    | .tst e d _ _ => !a.performed && (bits e 17 16 == 2 || bits d 220 219 == 2)
    | _ => false)

/-- A block store's bytes as a word, and whether a word that it touches is poisoned. -/
def Block.storeWord (x : Block) (off n : Nat) : W64 × Bool :=
  (BitVec.ofNat 64 (leVal (x.store.read off n)), x.store.bad (off / 8))

/-- A block with bytes written in its store: a word written whole loses its poison (08_memory_stacks.md R216). -/
def Block.storePut (x : Block) (off : Nat) (bs : List Byte) : Block :=
  let m := x.store.write off bs
  { x with store := if bs.length = 8 then m.setBad (off / 8) false else m }

/-- An access in the block store: bounds, and the order with tile loads (R136: 2 MiB). -/
def inStore (th : Thread) (off : W64) (n : Nat) (r : Res) : Res :=
  if off.toNat + n > twoMib then .exc .illegalAddress off else if th.tileBusy then .held else r

/-- The value that a load leaves in its register: sign-extended when SX is 1 (Table 5-5). -/
def loadVal (size : Nat) (sx : Bool) (v : W64) : W64 :=
  if sx then w64 (sext (8 * size) (v.toNat % 2 ^ (8 * size))) else BitVec.ofNat 64 (v.toNat % 2 ^ (8 * size))

/-- How many requests of a block are outstanding (07_caches_and_coherence.md R185). -/
def State.outCount (s : State) (b : Nat) : Nat := (s.bc b).out.length

/-- A new outstanding access joins a thread. -/
def State.addAcc (s : State) (b t : Nat) (kind : AccKind) (va : W64) (g : Target) (size : Nat) (data : W64) (left : Nat) : State :=
  let th := s.thr b t
  s.setThr b t { th with
    accs := th.accs ++ [{ id := th.nextId, ia := th.pc, kind := kind, va := va, tgt := g, size := size, data := data, res := 0,
                          asked := none, homed := false, performed := false, refused := false, left := left, buf := [], bad := false,
                          pages := [], want := [], got := [] }],
    nextId := th.nextId + 1 }

/-- An access leaves its thread. -/
def State.dropAcc (s : State) (b t id : Nat) : State :=
  let th := s.thr b t
  s.setThr b t { th with accs := th.accs.filter (fun a => a.id != id) }

/-- A read of a dead target comes back with DEAD_TARGET at once (R142, R173). -/
def State.deadRead (s : State) (b t : Nat) (ia va : W64) : State := s.defer b t (.deadTarget ia va)

/-- The sectors of a line that a request to the home names, for a target of this device or of the host. -/
def State.misses (s : State) (b : Nat) (g : Target) (own : Bool) : Bool :=
  match lineOfTgt g with
  | none => false
  | some (l, off) => if own then !(s.bcOn b && s.ownsB b l (1#4 <<< (off / 64))) else !(s.bcOn b && s.hasB b l (off / 64))

/-- A load from memory is accepted. -/
def State.acceptLoad (s : State) (b t : Nat) (th : Thread) (kind : AccKind) (va : W64) (g : Target) (size : Nat) : Res :=
  if (s.deadAt g).isSome then .done (s.deadRead b t th.pc va)
  else if s.misses b g false && decide (s.outCount b ≥ 64) then .held
  else match g with
    | .remote d off => .done ((s.addAcc b t kind va g size 0 1).netSend d.toNat (.acc b t th.nextId) [readPkt off size])
    | _ => .done ((s.addAcc b t kind va g size 0 0).kick b t)

/-- A store to memory is accepted: discarded at a dead target (R142, R173), sent to another device, or performed in the block's
cache or at its home. -/
def State.acceptStore (s : State) (b t : Nat) (th : Thread) (kind : AccKind) (va : W64) (g : Target) (size : Nat) (v : W64) : Res :=
  match s.deadAt g with
  | some d => .done (s.discard b t d va (if kind.whole then 4 else 1))
  | none =>
    if s.misses b g true && decide (s.outCount b ≥ 64) then .held
    else match g with
      | .remote d off => .done ((s.addAcc b t kind va g size v 1).netSend d.toNat (.acc b t th.nextId)
          (writePkts off (leBytes size v.toNat)))
      | _ => .done ((s.addAcc b t kind va g size v 0).kick b t)

/-- An instruction of the scalar memory family: held back by fences, and bracketed (R152, R162). -/
def memForm (bad wr : Bool) (regs : List (BitVec 6)) : Form :=
  { bad := bad, regs := regs, mem := true, wr := wr, brk := true, iof := true }

/-- LD: SIZE bytes from memory or the block store (R142). -/
def execLd (t : Th) (w : W0) (s : State) : Host.Outcome State Fault Refusal :=
  let b := t.blk.val
  let n := t.thr.val
  .next (issue t w (memForm false false [w.a, w.d]) (fun s th =>
    let va := addrM th w
    if va.toNat % sizeM w ≠ 0 then .exc .misaligned va
    else if spaceM w then inStore th va (sizeM w)
      (let v := (s.blk b).storeWord va.toNat (sizeM w)
       .done (if v.2 then s.defer b n (.poison th.pc va)
              else s.setThr b n (th.setReg w.d (loadVal (sizeM w) (sxM w) v.1))))
    else s.access b n th va false false (fun g s1 => s1.acceptLoad b n th (.ld w.d (sxM w)) va g (sizeM w))) s)

/-- ST: SIZE bytes of g[B] (R142). -/
def execSt (t : Th) (w : W0) (s : State) : Host.Outcome State Fault Refusal :=
  let b := t.blk.val
  let n := t.thr.val
  .next (issue t w (memForm false true [w.a, w.b]) (fun s th =>
    let va := addrM th w
    if va.toNat % sizeM w ≠ 0 then .exc .misaligned va
    else if spaceM w then inStore th va (sizeM w)
      (.done (s.setBlk b ((s.blk b).storePut va.toNat (leBytes (sizeM w) (th.reg w.b).toNat))))
    else s.access b n th va true false (fun g s1 => s1.acceptStore b n th .st va g (sizeM w) (th.reg w.b))) s)

/-- LDR: a load of 4 or 8 bytes that sets the thread's reservation (R143). -/
def execLdr (t : Th) (w : W0) (s : State) : Host.Outcome State Fault Refusal :=
  let b := t.blk.val
  let n := t.thr.val
  .next (issue t w { memForm false false [w.a, w.d] with ill := decide (sizeM w < 4) } (fun s th =>
    let va := addrM th w
    if va.toNat % sizeM w ≠ 0 then .exc .misaligned va
    else if spaceM w then .exc .illegalAddress va
    else s.access b n th va false false (fun g s1 => match g with
      | .remote _ _ => .exc .illegalAddress va
      | _ => (s1.clearResv b n).acceptLoad b n th (.ldr w.d (sxM w)) va g (sizeM w))) s)

/-- STC: a store of g[B] that takes place while the reservation stands, and writes 0 or 1 to g[D] (R143). Without a
reservation on the sector it fails at once. -/
def execStc (t : Th) (w : W0) (s : State) : Host.Outcome State Fault Refusal :=
  let b := t.blk.val
  let n := t.thr.val
  .next (issue t w { memForm false true [w.a, w.b, w.d] with ill := decide (sizeM w < 4) } (fun s th =>
    let va := addrM th w
    if va.toNat % sizeM w ≠ 0 then .exc .misaligned va
    else if spaceM w then .exc .illegalAddress va
    else s.access b n th va true false (fun g s1 => match g with
      | .remote _ _ => .exc .illegalAddress va
      | _ =>
        if (s1.deadAt g).isSome then .done ((s1.clearResv b n).deadRead b n th.pc va)
        else if (match th.resv with | some r => sectorMeet false r g | none => false) ||
            th.accs.any (fun a => (match a.kind with | .ldr _ _ => true | _ => false) && sectorMeet false a.tgt g) then
          s1.acceptStore b n th (.stc w.d) va g (sizeM w) (th.reg w.b)
        else
          let s2 := s1.clearResv b n
          .done (s2.setThr b n ((s2.thr b n).setReg w.d 1)))) s)

/-- The atomics of AMO: codes 11 to 15 are reserved (R144). -/
def amoBad (w : W0) : Bool := decide (bits w.x 3 0 > 10)
/-- FADD at 64 bits is illegal (R144). -/
def amoIll (w : W0) : Bool := bits w.x 3 0 == 10 && bit w.x 4

/-- An atomic on device or host memory is accepted: near after RdOwn when the predictor says so, far by Atom otherwise
(07_caches_and_coherence.md R190, R191). -/
def State.acceptAmo (s : State) (b t : Nat) (th : Thread) (w : W0) (va : W64) (g : Target) (size : Nat) : Res :=
  let wide := bit w.x 4
  let op := BitVec.ofNat 4 (bits w.x 3 0)
  let kind : AccKind := .amo w.d op wide (th.reg w.c)
  if (s.deadAt g).isSome then .done (s.deadRead b t th.pc va)
  else if s.misses b g true && decide (s.outCount b ≥ 64) then .held
  else match g with
    | .remote d off => .done ((s.addAcc b t kind va g size (th.reg w.b) 1).netSend d.toNat (.acc b t th.nextId)
        [atomicPkt off op wide (th.reg w.b) (th.reg w.c)])
    | _ => .done ((s.addAcc b t kind va g size (th.reg w.b) 0).kick b t)

/-- AMO: an atomic read-modify-write at g[A], with the old value to g[D] (R144). -/
def execAmo (t : Th) (w : W0) (s : State) : Host.Outcome State Fault Refusal :=
  let b := t.blk.val
  let n := t.thr.val
  let size := if bit w.x 4 then 8 else 4
  .next (issue t w { memForm (amoBad w) true [w.a, w.b, w.c, w.d] with ill := amoIll w } (fun s th =>
    let va := th.reg w.a
    if va.toNat % size ≠ 0 then .exc .misaligned va
    else if bit w.x 5 then inStore th va size
      (let v := (s.blk b).storeWord va.toNat size
       if v.2 then .done (s.defer b n (.poison th.pc va))
       else
         let nw := amoNew (bits w.x 3 0) (bit w.x 4) v.1 (th.reg w.b) (th.reg w.c)
         .done ((s.setBlk b ((s.blk b).storePut va.toNat (leBytes size nw.1.toNat))).setThr b n ((th.setReg w.d v.1).flags nw.2)))
    else s.access b n th va true true (fun g s1 => s1.acceptAmo b n th w va g size)) s)

/-- ZLINE: zeros to the 256-byte line that holds the address (R144). A refused address is reported by its line's start. -/
def execZline (t : Th) (w : W0) (s : State) : Host.Outcome State Fault Refusal :=
  let b := t.blk.val
  let n := t.thr.val
  .next (issue t w (memForm false true [w.a]) (fun s th =>
    let va := BitVec.ofNat 64 ((addrM th w).toNat / 256 * 256)
    if spaceM w then .exc .illegalAddress va
    else s.access b n th va true false (fun g s1 => match g with
      | .remote _ _ => .exc .illegalAddress va
      | _ => s1.acceptStore b n th .zline va g 256 0)) s)

/-- A line is fetched into a block's cache, where it may hold the line and does not (R144). -/
def State.prefetch (s : State) (b : Nat) (l : LineId) (sec : Nat) : State :=
  let c : Instr := .rdshared (Fin.ofNat 100 b) l (1#4 <<< sec)
  if !(s.mayKeep b l) || s.hasB b l sec || (s.bc b).out.any (fun x => x.req == c) || decide (s.outCount b ≥ 64) then s
  else (s.setBc b { s.bc b with out := (s.bc b).out ++ [{ line := lkey l, req := c }] }).emit (.noc c)

/-- PREF: the line comes into the block cache; no exception, no page request, and nothing when the page has no translation (R144;
10_translation.md R274). -/
def execPref (t : Th) (w : W0) (s : State) : Host.Outcome State Fault Refusal :=
  let b := t.blk.val
  let n := t.thr.val
  .next (issue t w { mem := true, iof := true, regs := [w.a] } (fun s th =>
    if spaceM w then .done s
    else match s.translate { unit := b, who := .thread b n, pasid := s.pasidOf b, va := addrM th w, write := false, fetch := false,
                             tries := 0, pri := false } with
      | .ok g s1 => .done (match lineOfTgt g with
        | some (l, off) => if (s1.deadAt g).isNone then s1.prefetch b l (off / 64) else s1
        | none => s1)
      | .wait _ s1 => .stay (s1.suspend b n false false)
      | .fault _ s1 => .done s1
      | _ => .done s) s)

/-- What an access that has come back leaves in its thread: a register and flags, or a deferred exception with the register
unchanged (R142, R153). -/
def State.landed (s : State) (b t : Nat) (a : Acc) : State :=
  if a.refused then s.defer b t (.remoteError a.ia a.va)
  else if a.bad then
    if (s.deadAt a.tgt).isSome then s.defer b t (.deadTarget a.ia a.va)
    else (match a.tgt with
      | .remote _ _ => s.defer b t (.deadTarget a.ia a.va)
      | _ => s.defer b t (.poison a.ia a.va))
  else
    let th := s.thr b t
    match a.kind with
    | .ld d sx => s.setThr b t (th.setReg d (loadVal a.size sx a.res))
    | .ldr d sx => s.setThr b t (th.setReg d (loadVal a.size sx a.res))
    | .stc d => s.setThr b t (th.setReg d a.res)
    | .amo d _ _ _ => s.setThr b t (th.setReg d a.res)
    | _ => s

/-- The flags of a FADD, which merge when the old value returns (R144). -/
def Acc.amoFlags (a : Acc) : BitVec 5 :=
  match a.kind with
  | .amo _ op wide c => (amoNew op.toNat wide a.res a.data c).2
  | _ => 0

/-- An access that returns a value comes back, once it has taken effect and its answer is here. -/
def State.comeBack (s : State) (b t k : Nat) : State :=
  let s1 := s.kick b t
  match (s1.thr b t).accs.find? (fun a => a.id == k) with
  | none => s1
  | some a =>
    if a.performed = false then s1
    else
      let s2 := (s1.dropAcc b t k).landed b t a
      if a.refused || a.bad then s2 else s2.setThr b t ((s2.thr b t).flags a.amoFlags)

/-- Whether an access is the atomic of a SEMSIG. -/
def AccKind.isSig : AccKind → Bool
  | .sig _ => true
  | _ => false

/-- LOAD_DATA_RETURN: outstanding access k of a thread brings its data back: the register is written, or the late report is
made (R142, R158). -/
def execLoadDataReturn (t : Th) (k : Nat) (s : State) : Host.Outcome State Fault Refusal :=
  .next (match (s.thr t.blk.val t.thr.val).accs.find? (fun a => a.id == k) with
    | some a => if a.kind.dest.isSome || a.kind.isSig then s.comeBack t.blk.val t.thr.val k else s
    | none => s)

/-- Whether a thread's bytes still lie in write-combining buffers, or in drains that another device has not acknowledged. -/
def State.bufferedBy (s : State) (b t : Nat) : Bool :=
  let mine : Storer → Bool := fun k => k.live && k.b == b && k.t == t
  (s.wc (regionOf b)).any (fun l => l.who.any (fun x => mine x.2)) ||
    s.net.qp.any (fun x => (x.2.sent ++ x.2.unsent).any (fun y => match y.own with | .drain ths => ths.any (fun x => mine x.1) | _ => false))

/-- RESERVATION_HOLD_EXPIRY: the 128 ACLK cycles for which a block held snoops of a reserved line have passed: they are
answered, which takes the line (R168, R170). -/
def execReservationHoldExpiry (b : Fin 100) (l : LineId) (s : State) : Host.Outcome State Fault Refusal :=
  if (s.bc b.val).held.any (fun h => h.1 == lkey l) then .next ((s.unreserve b.val l).freeHeld b.val) else .next s

/-- HOME_RESERVATION_HOLD_EXPIRY: the 181 FCLK cycles of the oldest reservation of a line in a home's table are over: the writes that the
home holds for it come to the home again, and it clears; one that holds none is no longer young (07_caches_and_coherence.md R199). -/
def execHomeReservationHoldExpiry (r : Fin 5) (l : LineId) (s : State) : Host.Outcome State Fault Refusal :=
  .next (match (s.rc r.val).resv.find? (fun h => h.young && resvHit l 15 h.sector) with
    | none => s.retryYoung r.val
    | some h =>
      (if h.held.isEmpty then s.setRc r.val { s.rc r.val with
        resv := updWhere (fun x => decide (x = h)) (fun x => { x with young := false }) (s.rc r.val).resv }
      else
        let s1 := if (s.thr h.b h.t).resv = some h.sector then s.setThr h.b h.t { s.thr h.b h.t with resv := none } else s
        s1.dropHomeResv r.val (fun x => decide (x = h))).retryYoung r.val)

end Sys2Proof.Machine
end

