-- ==== Sys2Proof/Machine/TileOps.lean ====
section
/-! DEFINITION. Tile descriptors, their checks and addresses, conversions on a tile load, the rows of a cell, and the
write-combining buffers (04_blocks_and_threads.md R104 to R114; 05_veltur_instructions.md R135 to R137;
06_memory_ordering.md R166). -/
namespace Sys2Proof.Machine

/-! ### Elements packed in bytes (02_formats_and_coats.md R38) -/

/-- Words of k bytes. -/
def wordsOf (k : Nat) : Nat → List Byte → List Nat
  | 0, _ => []
  | n + 1, bs => leVal (bs.take k) :: wordsOf k n (bs.drop k)

/-- Elements of 4 bits, two to a byte. -/
def nibbles : List Byte → List Nat
  | [] => []
  | b :: t => bits b 3 0 :: bits b 7 4 :: nibbles t

/-- Elements of 6 bits, four to three bytes. -/
def sixes : List Byte → List Nat
  | a :: b :: c :: t =>
    let v := a.toNat + 256 * b.toNat + 65536 * c.toNat
    (v % 64) :: (v / 64 % 64) :: (v / 4096 % 64) :: (v / 262144) :: sixes t
  | _ => []

/-- The codes of the elements of width w that bytes hold. -/
def unpack (w : Nat) (bs : List Byte) : List Nat :=
  if w = 4 then nibbles bs else if w = 6 then sixes bs else wordsOf (w / 8) (bs.length / (w / 8)) bs

/-- Pairs of 4-bit codes as bytes. -/
def packNib : List Nat → List Byte
  | a :: b :: t => BitVec.ofNat 8 (a % 16 + 16 * (b % 16)) :: packNib t
  | [a] => [BitVec.ofNat 8 (a % 16)]
  | [] => []

/-- Fours of 6-bit codes as bytes. -/
def packSix : List Nat → List Byte
  | a :: b :: c :: d :: t => leBytes 3 (a + 64 * b + 4096 * c + 262144 * d) ++ packSix t
  | _ => []

/-- Codes of width w as bytes. -/
def pack (w : Nat) (cs : List Nat) : List Byte :=
  if w = 4 then packNib cs else if w = 6 then packSix cs else cs.flatMap (leBytes (w / 8))

/-! ### Tile descriptors (R104 to R108) -/

/-- Word k of a descriptor. -/
def dword (d : BitVec 512) (k : Nat) : W64 := BitVec.ofNat 64 (bits d (64 * k + 63) (64 * k))
/-- BASE. -/
def dBase (d : BitVec 512) : W64 := dword d 0
/-- SBASE. -/
def dSbase (d : BitVec 512) : W64 := dword d 1
/-- MFMT. -/
def dMfmt (d : BitVec 512) : Nat := bits (dword d 3) 19 16
/-- CFMT. -/
def dCfmt (d : BitVec 512) : Nat := bits (dword d 3) 23 20
/-- ND. -/
def dNd (d : BitVec 512) : Nat := bits (dword d 3) 26 24 + 1
/-- SPACE. -/
def dSpace (d : BitVec 512) : Nat := bits (dword d 3) 28 27
/-- SP. -/
def dSp (d : BitVec 512) : Bool := bit (dword d 3) 29
/-- EXP. -/
def dExp (d : BitVec 512) : Bool := bit (dword d 3) 30
/-- The extent of dimension k; 1 at or above ND. -/
def dExt (d : BitVec 512) (k : Nat) : Nat :=
  if k < dNd d then (if k = 4 then bits (dword d 3) 15 0 else bits (dword d 2) (16 * k + 15) (16 * k)) + 1 else 1
/-- STRIDE0, signed. -/
def dStride0 (d : BitVec 512) : Int := sext 32 (bits (dword d 3) 63 32)
/-- The stride of dimension k from 1 to 4, signed; 0 at or above ND. -/
def dStride (d : BitVec 512) (k : Nat) : Int := if k < dNd d then (dword d (3 + k)).toInt else 0
/-- The width of a format code in bits; 8 for a reserved code. -/
def fmtW (c : Nat) : Nat := match fmtOf c with | some f => f.w | none => 8
/-- The number of elements. -/
def dCount (d : BitVec 512) : Nat := dExt d 0 * dExt d 1 * dExt d 2 * dExt d 3 * dExt d 4
/-- The bytes of the tile in MFMT, densely packed. -/
def dBytes (d : BitVec 512) : Nat := dCount d * fmtW (dMfmt d) / 8
/-- The bytes of the tile as the cell or block store holds it. -/
def dCellBytes (d : BitVec 512) : Nat := dCount d * fmtW (dCfmt d) / 8
/-- How many scale bytes the tile has. -/
def dScales (d : BitVec 512) : Nat := if dSp d then dCount d / 32 else 0

/-- The pairs of formats of Table 4-5. -/
def pairOk (m c : Nat) (exp sp : Bool) : Bool :=
  if c = 3 ∧ (m = 5 ∨ m = 6 ∨ m = 7) then exp
  else !exp && (m == c || (m == 9 && c == 8) || ((m == 1 || m == 2) && c == 0) || (isMx m && c == 2 && !sp))

/-- The byte offset from BASE of row r: the elements of one index above dimension 0 (R105). -/
def dRowOff (d : BitVec 512) (r : Nat) : Int :=
  let i1 := r % dExt d 1
  let r2 := r / dExt d 1
  let i2 := r2 % dExt d 2
  let r3 := r2 / dExt d 2
  (i1 : Int) * dStride d 1 + (i2 : Int) * dStride d 2 + ((r3 % dExt d 3 : Nat) : Int) * dStride d 3
    + ((r3 / dExt d 3 : Nat) : Int) * dStride d 4

/-- The byte offset from BASE of the dense byte at position p of the tile (R105). -/
def dOff (d : BitVec 512) (p : Nat) : Int :=
  let w := fmtW (dMfmt d)
  if dStride0 d = 0 then
    let rb := dExt d 0 * w / 8
    dRowOff d (p / rb) + (p % rb : Nat)
  else
    let e := p / (w / 8)
    dRowOff d (e / dExt d 0) + ((e % dExt d 0 : Nat) : Int) * dStride0 d + (p % (w / 8) : Nat)

/-- The offset from SBASE of the scale of block j, in element order (R106). -/
def dScaleOff (d : BitVec 512) (j : Nat) : Int :=
  let w := fmtW (dMfmt d)
  let nb := dExt d 0 / 32
  (dRowOff d (j / nb) + ((j % nb * (4 * w) : Nat) : Int)) / ((4 * w : Nat) : Int)

/-- The lowest and the highest byte offset from BASE that the tile touches. -/
def dSpan (d : BitVec 512) : Int × Int :=
  let w := fmtW (dMfmt d)
  let one : Int × Int → Int → Int × Int := fun s x => (s.1 + (if x < 0 then x else 0), s.2 + (if x < 0 then 0 else x))
  let s := [1, 2, 3, 4].foldl (fun s k => one s (((dExt d k - 1 : Nat) : Int) * dStride d k)) ((0 : Int), (0 : Int))
  if dStride0 d = 0 then (s.1, s.2 + ((dExt d 0 * w / 8 - 1 : Nat) : Int))
  else
    let t := one s (((dExt d 0 - 1 : Nat) : Int) * dStride0 d)
    (t.1, t.2 + ((w / 8 - 1 : Nat) : Int))

/-- A range of block-store offsets leaves the store. -/
def outside (lo hi : Int) : Bool := decide (lo < 0) || decide (hi ≥ (twoMib : Int))

/-- Whether a descriptor makes a tile instruction raise a descriptor fault (R107, R265). store tells of TST, bs of kind 2
with its data and scale offsets. -/
def descBad (d : BitVec 512) (store : Bool) (bs : Option (Nat × Nat)) : Bool :=
  let m := dMfmt d
  let w := fmtW m
  let strides := [1, 2, 3, 4].map (dStride d)
  bit (dword d 3) 31 || dSpace d == 3 || decide (dNd d > 5) || decide (m > 9) || decide (dCfmt d > 9) ||
  !(pairOk m (dCfmt d) (dExp d) (dSp d)) ||
  (decide (dStride0 d ≠ 0) && (decide (w < 8) || dSp d)) ||
  (decide (w < 8) && dExt d 0 % 2 != 0) ||
  (w == 6 && (dExt d 0 % 4 != 0 || strides.any (fun x => decide (x % 3 ≠ 0)))) ||
  (dSp d && (dExt d 0 % 32 != 0 || strides.any (fun x => decide (x % ((4 * w : Nat) : Int) ≠ 0)))) ||
  decide (dCount d > 65536) ||
  ((store || bs.isSome) && decide (dCfmt d ≠ m)) ||
  (dSpace d == 1 && bits (dBase d) 63 62 != 3) ||
  (dSpace d == 2 && (bs.isSome || outside ((dBase d).toNat + (dSpan d).1) ((dBase d).toNat + (dSpan d).2) ||
    (dSp d && outside ((dSbase d).toNat + (dSpan d).1 / ((4 * w : Nat) : Int)) ((dSbase d).toNat + (dSpan d).2 / ((4 * w : Nat) : Int))))) ||
  (match bs with
    | some (o, so) => decide (o + dBytes d > twoMib) || (dSp d && decide (so + dScales d > twoMib))
    | none => false)

/-- A byte that a tile touches: its dense position, its address, and the number of its scale if it is one. -/
structure Touch where
  pos : Nat
  addr : W64
  scale : Option Nat

/-- What a tile touches from position p of n bytes on, in element order; a scale byte comes with its block's first element
(R113). -/
def touchFrom (d : BitVec 512) (p n : Nat) : List Touch :=
  (List.range n).flatMap (fun i =>
    let q := p + i
    let blk := 4 * fmtW (dMfmt d)
    let one : Touch := { pos := q, addr := dBase d + w64 (dOff d q), scale := none }
    if dSp d && q % blk == 0 then
      [{ pos := q, addr := dSbase d + w64 (dScaleOff d (q / blk)), scale := some (q / blk) }, one]
    else [one])

/-- Everything that a tile touches. -/
def touches (d : BitVec 512) : List Touch := touchFrom d 0 (dBytes d)

/-- A NaN made canonical, or a value widened exactly (Table 4-5): the code in the cell's format. -/
def widen (m c code : Nat) : Nat :=
  if m = c then code
  else match fmtOf m, fmtOf c with
    | some f, some g => (convert g 0 true 0 (decodeVal f code)).1
    | _, _ => code

/-- The bytes of a tile in the cell's format. -/
def toCell (d : BitVec 512) (bs : List Byte) : List Byte :=
  if dMfmt d = dCfmt d then bs
  else pack (fmtW (dCfmt d)) ((unpack (fmtW (dMfmt d)) bs).map (widen (dMfmt d) (dCfmt d)))

/-- Which bytes of the tile in the cell's format come of poisoned bytes of memory. -/
def toCellBad (d : BitVec 512) (bad : List Bool) : List Bool :=
  if dMfmt d = dCfmt d then bad
  else
    let wm := fmtW (dMfmt d)
    let wc := fmtW (dCfmt d)
    (List.range (dCellBytes d)).map (fun k =>
      (List.range ((k * 8 + 7) / wc + 1)).any (fun e => decide (k * 8 / wc ≤ e) &&
        (List.range ((e * wm + wm - 1) / 8 + 1)).any (fun j => decide (e * wm / 8 ≤ j) && bad.getD j false)))

/-! ### The rows of a cell (03_tensor_cells.md R63 to R66, R69) -/

/-- A row of a cell. -/
def Cell.row (c : Cell) (r : Nat) : Line := Tab.get 0 c.rows r

/-- n bytes from a row on. -/
def Cell.bytes (c : Cell) (r n : Nat) : List Byte :=
  ((List.range ((n + 255) / 256)).flatMap (fun k => (List.range 256).map (lineByte (c.row (r + k))))).take n

/-- Whether a range of bytes from a row on holds a poisoned word. -/
def Cell.badIn (c : Cell) (r n : Nat) : Bool :=
  (List.range ((n + 7) / 8)).any (fun k => !((Tab.get 0 c.good (r + k / 32)).getLsbD (k % 32)))

/-- Bytes are written from a row on: a word written whole loses its poison, and a word with a bad byte becomes poisoned
(R66). -/
def Cell.put (c : Cell) (r : Nat) (bs : List Byte) (bad : List Bool) : Cell :=
  let n := bs.length
  (List.range ((n + 255) / 256)).foldl (fun (c : Cell) k =>
    let part := (bs.drop (256 * k)).take 256
    let flags := (bad.drop (256 * k)).take 256
    let old := Tab.get 0 c.good (r + k)
    let p : Nat := (List.range 32).foldl (fun a j =>
      let isBad := (List.range 8).any (fun i => flags.getD (8 * j + i) false)
      let whole := decide (8 * j + 8 ≤ part.length)
      if !isBad && (old.getLsbD j || whole) then a + 2 ^ j else a) 0
    { c with rows := Tab.set 0 c.rows (r + k) (linePut (c.row (r + k)) 0 part), good := Tab.set 0 c.good (r + k) (BitVec.ofNat 32 p) }) c

/-- Rows become poisoned whole. -/
def Cell.spoil (c : Cell) (r n : Nat) : Cell :=
  (List.range n).foldl (fun (c : Cell) k => { c with good := Tab.del c.good (r + k) }) c

/-- The row of a tile or vector location: operand-store rows 0 to 511, then the two buffers. -/
def bufRow (buf row : Nat) : Nat := 512 + 64 * buf + row

/-- The physical cell of a logical number (04_blocks_and_threads.md R95). -/
def Block.phys (x : Block) (n : Nat) : Nat :=
  let p := if x.mapLost.toNat < 31 && decide (x.mapLost.toNat ≤ n) then n + 1 else n
  if p = x.mapSpare.toNat then 16 else p

/-- Whether a logical cell fails for the running task (R97). -/
def Block.failed (x : Block) (n : Nat) : Bool := x.lostNow.any (fun k => k == n)

/-! ### Write-combining buffers (06_memory_ordering.md R166) -/

/-- The line that holds a target, and the byte in it. -/
def tgtLine : Target → Target × Nat
  | .dev o => (.dev (o / 256 * 256), o % 256)
  | .host h => (.host (h / 256 * 256), h % 256)
  | .remote d o => (.remote d (o / 256 * 256), o % 256)
  | .bstore o => (.bstore (o / 256 * 256), o % 256)

/-- The number of the write-combining line of a target in region r that is not draining. -/
def State.wcFind (s : State) (r : Nat) (g : Target) : Option WLine :=
  (s.wc r).find? (fun x => decide (x.tgt = g) && !x.out)

/-- The bytes of a line that are written, as runs of consecutive bytes. -/
def runsOf (mask : LineMask) (d : Line) : List (Nat × List Byte) :=
  (List.range 256).foldr (fun k acc =>
    if mask.getLsbD k then
      match acc with
      | (j, bs) :: rest => if j = k + 1 then (k, lineByte d k :: bs) :: rest else (k, [lineByte d k]) :: acc
      | [] => [(k, [lineByte d k])]
    else acc) []

/-- The address of a target: its offset in this device or in the host, or a global address (10_translation.md R31). -/
def Target.addr : Target → W64
  | .dev o => BitVec.ofNat 64 o
  | .host h => BitVec.ofNat 64 h
  | .remote d o => BitVec.ofNat 64 (3 * 2 ^ 62 + d.toNat * 2 ^ 46 + o)
  | .bstore o => BitVec.ofNat 64 o

/-- The storers of a write-combining line, each with the first of its bytes that a test allows and the number of sectors of the line
in which it has such bytes. -/
def WLine.storers (x : WLine) (ok : Nat → Bool) : List (Storer × Nat × Nat) :=
  let who := x.who.filter (fun e => ok e.1)
  ((who.map (fun e => e.2)).eraseDups).map (fun k =>
    let at' := (who.filter (fun e => decide (e.2 = k))).map (fun e => e.1)
    (k, at'.headD 0, ((at'.map (fun n => n / 64)).eraseDups).length))

/-- The bytes of a write-combining line that a block wrote. -/
def WLine.maskOfBlock (x : WLine) (b : Nat) : LineMask :=
  (x.who.filter (fun e => e.2.b == b)).foldl (fun (m : LineMask) e => m ||| maskOf e.1 1) 0

/-- Whether two owners are drains of the same blocks. -/
def sameBlocks : Own → Own → Bool
  | .drain xs, .drain ys => xs.all (fun x => ys.all (fun y => x.1.b == y.1.b))
  | _, _ => false

/-- Whether a WRITE goes on where another ends, in the same 4 KiB of the target (12_umakin_transport.md R328). -/
def TxPkt.goesOn (p q : TxPkt) : Bool :=
  p.typ == 0 && q.typ == 0 && decide (p.addr.toNat + p.payload.length = q.addr.toNat) && decide (p.addr.toNat / 4096 = q.addr.toNat / 4096)

/-- A drained run joins the packets that wait for a device: the last of them, when that is a drain of the same block which it goes on
(12_umakin_transport.md R328). -/
def State.queueDrain (s : State) (dev : Nat) (ths : List (Storer × W64)) (p : TxPkt) : State :=
  let s1 := s.activate dev
  let q := s1.qp dev
  match q.unsent.getLast? with
  | some y => match y.own with
    | .drain xs =>
      if sameBlocks y.own (.drain ths) && y.pkt.goesOn p then
        s1.setQp dev { q with unsent := q.unsent.dropLast ++ [{ y with
          pkt := { y.pkt with payload := y.pkt.payload ++ p.payload },
          own := .drain (xs ++ ths.filter (fun k => !(xs.any (fun x => decide (x.1 = k.1))))) }] }
      else s1.setQp dev { q with unsent := q.unsent ++ [{ pkt := p, own := .drain ths, order := 0 }] }
    | _ => s1.setQp dev { q with unsent := q.unsent ++ [{ pkt := p, own := .drain ths, order := 0 }] }
  | none => s1.setQp dev { q with unsent := [{ pkt := p, own := .drain ths, order := 0 }] }

/-- A write-combining line starts to drain: to its home as one coherent write of its written bytes, or into the packets for another
device, the bytes of each block for themselves; behind an earlier drain of the same line it waits. At a dead target its stores are
discarded (R173), and at a lost host at the host port (09_host_port.md R261). -/
def State.startDrain (s : State) (r : Nat) (x : WLine) : State :=
  let gone : State → State := fun t => t.setWc r ((t.wc r).erase x)
  let at' : Nat → W64 := fun k => x.tgt.addr + BitVec.ofNat 64 k
  match s.deadAt x.tgt with
  | some d => (gone s).each (x.storers (fun _ => true)) (fun t k => t.discardOf k.1 d (at' k.2.1) k.2.2)
  | none =>
    match x.tgt with
    | .remote dev off =>
      (gone s).each ((x.who.map (fun e => e.2.b)).eraseDups.flatMap (fun b =>
          (runsOf (x.maskOfBlock b) x.data).map (fun p => (b, p)))) (fun t q =>
        let p := q.2
        let mine := (x.storers (fun k => decide (p.1 ≤ k) && decide (k < p.1 + p.2.length))).filter (fun k => k.1.b == q.1)
        (writePkts (off + p.1) p.2).foldl (fun (u : State) w => u.queueDrain dev.toNat (mine.map (fun k => (k.1, at' k.2.1))) w) t)
    | .bstore _ => gone s
    | _ =>
      match lineOfTgt x.tgt with
      | none => s
      | some (l, _) =>
        if l.host && s.hpt.hostLost then
          let t := gone s
          { t with hpt := { t.hpt with hlDiscard := satAdd t.hpt.hlDiscard (popc (maskSecs x.mask)) } }
        else if (s.home l).isNone || (l.host && s.hpt.flr) || (s.wc r).any (fun y => y.out && decide (y.tgt = x.tgt)) then s
        else
          let s1 := s.setWc r (updWhere (fun y => decide (y = x)) (fun y => { y with out := true }) (s.wc r))
          s1.toHome (.wrpart (Fin.ofNat 5 r) l x.mask x.data)

/-- Write-combining lines of a region start to drain, and what goes to other devices leaves as joined packets. -/
def State.drainLines (s : State) (r : Nat) (xs : List WLine) : State :=
  (s.each xs (fun t x => t.startDrain r x)).pumpQps
    ((xs.filterMap (fun x => match x.tgt with | .remote d _ => some d.toNat | _ => none)).eraseDups)

/-- A write-combining line starts to drain. -/
def State.drainLine (s : State) (r : Nat) (x : WLine) : State := s.drainLines r [x]

/-- The write-combining buffers of a region make room for a byte of a target: at 128 lines the oldest that does not drain starts to
(R166). -/
def State.wcRoom (s : State) (r : Nat) (g : Target) : State :=
  if (s.deadAt g).isSome || (s.wcFind r (tgtLine g).1).isSome || decide ((s.wc r).length < 128) then s
  else match (s.wc r).find? (fun x => !x.out) with
    | some x => s.drainLine r x
    | none => s

/-- Whether a byte of a target can enter the write-combining buffers of a region. -/
def State.wcFits (s : State) (r : Nat) (g : Target) : Bool :=
  (s.deadAt g).isSome || (s.wcFind r (tgtLine g).1).isSome || decide ((s.wc r).length < 128)

/-- A byte of a storer enters the write-combining buffers of a region; a line with all its bytes written starts to drain (R166). -/
def State.wcByte (s : State) (r : Nat) (g : Target) (b : Byte) (bad : Bool) (k : Storer) : State :=
  let at' := tgtLine g
  let put : WLine → WLine := fun x =>
    let p : BitVec 4 := if bad then x.pois ||| (1#4 <<< (at'.2 / 64)) else x.pois
    { x with mask := x.mask ||| maskOf at'.2 1, data := lineSet x.data at'.2 b, pois := p,
             who := Tab.ins (Tab.del x.who at'.2) at'.2 k }
  let s1 := match s.wcFind r at'.1 with
    | some x => s.setWc r (updWhere (fun y => decide (y = x)) put (s.wc r))
    | none => s.setWc r (s.wc r ++ [put { tgt := at'.1, mask := 0, data := 0, pois := 0, who := [], out := false }])
  match s1.wcFind r at'.1 with
  | some x => if x.mask = BitVec.allOnes 256 then s1.drainLine r x else s1
  | none => s1

/-- A tile store's byte reaches its target: discarded at a dead one, else into the write-combining buffers of the block's
region. -/
def State.tileByte (s : State) (b t : Nat) (g : Target) (va : W64) (v : Byte) (bad : Bool) : State :=
  match s.deadAt g with
  | some d => s.discard b t d va 1
  | none => s.wcByte (regionOf b) g v bad
      { b := b, t := t, kern := (s.blk b).task.map (fun k => (k.q, k.slot)), live := true }

/-- Bytes of a tile store enter the write-combining buffers in element order, as far as there is room: the position of the first
that must wait, if one must. -/
def State.tileBytes (b t : Nat) (at' : W64 → Target) (val : Touch → Byte × Bool) : List Touch → State → Option Nat × State
  | [], s => (none, s)
  | x :: rest, s =>
    let g := at' x.addr
    let s1 := s.wcRoom (regionOf b) g
    if s1.wcFits (regionOf b) g then State.tileBytes b t at' val rest (s1.tileByte b t g x.addr (val x).1 (val x).2)
    else (some x.pos, s1)

end Sys2Proof.Machine
end

