-- ==== Sys2Proof/Machine/CellOps.lean ====
section
/-! DEFINITION. What the instructions of a cell compute: the matrix product, the vector operations and the attention step
(03_tensor_cells.md; 05_veltur_instructions.md R138 to R141). -/
namespace Sys2Proof.Machine

/-! ### Operands in the stores of a cell (R69, R77) -/

/-- The FP32 or INT32 word in column c of a row. -/
def Cell.word (x : Cell) (r c : Nat) : Nat := (((x.row r) >>> (32 * c)).setWidth 32 : W32).toNat

/-- The words of a row. -/
def Cell.words (x : Cell) (r : Nat) : List Nat := (List.range 64).map (x.word r)

/-- A cell with words written from a row on, 64 to a row. -/
def Cell.putWords (x : Cell) (r : Nat) (ws : List Nat) : Cell := x.put r (ws.flatMap (leBytes 4)) []

/-- The values of n elements of a format from a row on; the scales of MX blocks stand from row srow on, or are all 2^0 (R40,
R69). -/
def Cell.values (x : Cell) (fmt row n : Nat) (srow : Option Nat) : List Val :=
  match fmtOf fmt with
  | none => []
  | some f =>
    let codes := unpack f.w (x.bytes row ((n * f.w + 7) / 8))
    let scales := match srow with | some r => x.bytes r (n / 32) | none => []
    codes.zipIdx.map (fun c =>
      if isMx fmt then mxVal f c.1 (match srow with | some _ => (scales.getD (c.2 / 32) 0).toNat | none => 127) else decodeVal f c.1)

/-- How many rows hold n bytes. -/
def rowsFor (n : Nat) : Nat := (n + 255) / 256

/-- The lane that converts element (r, c) (R77). -/
def laneOf (r c : Nat) : Nat := r % 2 * 64 + c

/-- One row of 64 values converted to a format by a rounding and an overflow field: the codes, the scale bytes of an MX format,
the flags and the cell, whose lanes have drawn (R41, R47, R49). -/
def Cell.convRow (x : Cell) (fmt rnd : Nat) (sat : Bool) (r : Nat) (vs : List Val) : List Nat × List Nat × BitVec 5 × Cell :=
  match fmtOf fmt with
  | none => ([], [], 0, x)
  | some f =>
    let dr := if draws f rnd then x.drawAll ((List.range 64).map (laneOf r)) else ([], x)
    if isMx fmt then
      let a := mxQuantise f rnd (dr.1.take 32) (vs.take 32)
      let b := mxQuantise f rnd (dr.1.drop 32) (vs.drop 32)
      (a.2.1 ++ b.2.1, [a.1, b.1], a.2.2 ||| b.2.2, dr.2)
    else
      let cs := vs.zipIdx.map (fun v => convert f rnd sat (dr.1.getD v.2 0) v.1)
      (cs.map (fun c => c.1), [], cs.foldl (fun a c => a ||| c.2) 0, dr.2)

/-! ### Which rows an instruction reads and writes (R63 to R66) -/

/-- Bytes from a row on: the row and how many bytes. -/
structure Span where
  row : Nat
  n : Nat
  deriving DecidableEq, Repr

/-- The rows of a span. -/
def Span.rows (p : Span) : Nat := rowsFor p.n

/-- Whether two ranges of rows meet. -/
def meets (a n b m : Nat) : Bool := decide (a < b + m) && decide (b < a + n)

/-- The row of a vector location (R140). -/
def locRow (l : Nat) : Nat := if l / 512 = 1 then bufRow (l % 2) (l / 2 % 64) else l % 512
/-- The first row past the store or buffer of a vector location. -/
def locEnd (l : Nat) : Nat := if l / 512 = 1 then bufRow (l % 2) 64 else 512
/-- A location whose bits [8:7] must be 0 and are not. -/
def locBad (l : Nat) : Bool := l / 512 == 1 && l / 128 % 4 != 0

/-- The fields of a vector instruction's EXT (Table 5-14). -/
def vNr (e : W64) : Nat := bits e 49 44 + 1
/-- DLOC. -/
def vD (e : W64) : Nat := bits e 13 4
/-- ALOC. -/
def vA (e : W64) : Nat := bits e 23 14
/-- BLOC. -/
def vB (e : W64) : Nat := bits e 33 24
/-- CLOC. -/
def vC (e : W64) : Nat := bits e 43 34
/-- RND. -/
def vRnd (e : W64) : Nat := bits e 51 50
/-- OVF. -/
def vSat (e : W64) : Bool := bit e 52
/-- DFMT. -/
def vFmt (e : W64) : Nat := bits e 59 56

/-- The locations that a vector operation reads, with how many bytes of each (R141). -/
def VOp.reads (v : VOp) (e : W64) : List (Nat × Nat) :=
  let n := 256 * vNr e
  match v with
  | .add | .sub | .mul | .min | .max | .cmp | .div => [(vA e, n), (vB e, n)]
  | .fma => [(vA e, n), (vB e, n), (vC e, n)]
  | .scale => [(vA e, n), (vB e, 4 * vNr e)]
  | _ => [(vA e, n)]

/-- The locations that a vector operation writes, with how many bytes of each (R141). -/
def VOp.writes (v : VOp) (e : W64) : List (Nat × Nat) :=
  match v with
  | .rmax | .rsum => [(vD e, 4 * vNr e)]
  | .cmp => [(vD e, 8 * vNr e)]
  | .cvt => (vD e, 8 * vNr e * fmtW (vFmt e)) :: (if isMx (vFmt e) then [(vC e, 2 * vNr e)] else [])
  | _ => [(vD e, 256 * vNr e)]

/-- A location's span. -/
def spanAt (p : Nat × Nat) : Span := { row := locRow p.1, n := p.2 }

/-- Whether a span at a location runs past the end of its store or buffer. -/
def pastEnd (p : Nat × Nat) : Bool := decide (locRow p.1 + rowsFor p.2 > locEnd p.1)

/-- The fields of TMMA's EXT (Table 5-13). -/
def mK (e : W64) : Nat := 32 * (bits e 54 50 + 1)
/-- AFMT. -/
def mAf (e : W64) : Nat := bits e 16 13
/-- BFMT. -/
def mBf (e : W64) : Nat := bits e 39 36
/-- The scale row of A, when it is an MX operand with scales. -/
def mAs (e : W64) : Option Nat := if bit e 26 && isMx (mAf e) then some (bits e 25 17) else none
/-- The scale row of B, when it is an MX operand with scales. -/
def mBs (e : W64) : Option Nat := if bit e 49 && isMx (mBf e) then some (bits e 48 40) else none
/-- The first row of the target buffer. -/
def mBuf (e : W64) : Nat := bufRow (bits e 55 55) 0

/-- The operand-store spans that TMMA reads. -/
def mReads (e : W64) : List Span :=
  let op : Nat → Nat → Option Nat → List Span := fun row f s =>
    { row := row, n := 8 * mK e * fmtW f } :: (match s with | some r => [{ row := r, n := 2 * mK e }] | none => [])
  op (bits e 12 4) (mAf e) (mAs e) ++ op (bits e 35 27) (mBf e) (mBs e)

/-- The largest K of a legal pair of formats; none for another pair (Table 3-3). -/
def pairLimit (a b : Nat) : Option Nat :=
  if a = 7 ∧ b = 7 then some 1024
  else if isMx a && isMx b then some 512
  else if a = 9 ∧ b = 9 then some 1024
  else if (a = 8 ∨ a = 9) ∧ (b = 8 ∨ b = 9) then some 512
  else if (a = 1 ∨ a = 2) ∧ (b = 1 ∨ b = 2) then some 256
  else if (a = 0 ∧ b ≤ 2) ∨ (b = 0 ∧ a ≤ 2) then some 128
  else none

/-! ### The outcome of a cell instruction -/

/-- What a cell instruction leaves: the cell, the flags that it raises, and whether it failed its checks in the cell. -/
structure CellOut where
  cell : Cell
  flags : BitVec 5
  refused : Bool

/-- The rows and buffers that an instruction wrote become poisoned after it read a poisoned word (R66). -/
def Cell.spoilAll (x : Cell) (ws : List Span) : Cell :=
  ws.foldl (fun (c : Cell) p => if p.row < 512 then c.spoil p.row p.rows else c.spoil (512 + (p.row - 512) / 64 * 64) 64) x

/-! ### TMMA (R69 to R74) -/

/-- The pieces of an FP32 operand, or the single piece of a narrower one (02_formats_and_coats.md R56, R59). -/
def pieces (fmt : Nat) (d : Dy) : List Dy :=
  if fmt = 0 then
    let k := 23 - Nat.log2 d.m
    let m := d.m * 2 ^ k
    let e := d.e - k
    [{ neg := d.neg, m := m / 65536, e := e + 16 }, { neg := d.neg, m := m / 256 % 256, e := e + 8 },
     { neg := d.neg, m := m % 256, e := e }]
  else [d]

/-- The terms of one product: itself, or the piece products that the coat count selects (Table 2-7); a zero product keeps
the sign of the unsplit one (R72). -/
def prodTerms (coats fa fb : Nat) (a b : Val) : List Val × BitVec 5 :=
  match a, b with
  | .num x, .num y =>
    if (fa ≠ 0 ∧ fb ≠ 0) ∨ x.m = 0 ∨ y.m = 0 then ([.num (x.mul y)], 0)
    else ((pieces fa x).zipIdx.flatMap (fun p => ((pieces fb y).zipIdx.filter (fun q => decide (p.2 + q.2 < coats))).map
      (fun q => .num (p.1.mul q.1))), 0)
  | _, _ => let p := mulV a b; ([p.1], p.2)

/-- The terms of a dot product and their flags. -/
def dotTerms (coats fa fb : Nat) (xs ys : List Val) : List Val × BitVec 5 :=
  let ps := (xs.zip ys).map (fun p => prodTerms coats fa fb p.1 p.2)
  (ps.flatMap (fun p => p.1), ps.foldl (fun a p => a ||| p.2) 0)

/-- An integer value. -/
def intOf : Val → Int
  | .num d => d.sm * 2 ^ d.e.toNat
  | _ => 0

/-- An INT32 result: saturated, with OF (R74). -/
def int32Sat (v : Int) : Nat × BitVec 5 :=
  if v > 2 ^ 31 - 1 then (2 ^ 31 - 1, fOF) else if v < -(2 ^ 31) then (2 ^ 31, fOF) else ((v % 2 ^ 32).toNat, 0)

/-- TMMA in a cell: one K-slice for each element of the target buffer (R71, R74). -/
def Cell.tmma (x : Cell) (e : W64) : CellOut :=
  let k := mK e
  let fa := mAf e
  let fb := mBf e
  let va := x.values fa (bits e 12 4) (64 * k) (mAs e)
  let vb := x.values fb (bits e 35 27) (64 * k) (mBs e)
  let acc := bit e 56
  let one : Nat → Nat → Nat × BitVec 5 := fun i j =>
    let xs := (va.drop (i * k)).take k
    let ys := (vb.drop (j * k)).take k
    let old := x.word (mBuf e + i) j
    if fa ≥ 8 then
      int32Sat ((xs.zip ys).foldl (fun s p => s + intOf p.1 * intOf p.2) (if acc then sext 32 old else 0))
    else
      let d := dotTerms (bits e 58 57) fa fb xs ys
      kslice (bits e 60 59) (bit e 61) (if acc then d.1 ++ [decodeVal fp32 old] else d.1) d.2
  let out := (List.range 64).flatMap (fun i => (List.range 64).map (one i))
  let y := x.putWords (mBuf e) (out.map (fun r => r.1))
  let bad := (mReads e).any (fun p => x.badIn p.row p.n) || (acc && x.badIn (mBuf e) 16384)
  { cell := if bad then y.spoil (mBuf e) 64 else y, flags := out.foldl (fun a r => a ||| r.2) 0, refused := false }

/-! ### Vector operations (R78, R141) -/

/-- One element of an element-wise operation: its code and its flags (Table 3-5). -/
def vecElem (v : VOp) (e : W64) (a b c : Val) : Nat × BitVec 5 :=
  let fin : Val × BitVec 5 → Nat × BitVec 5 := finish fp32 (vRnd e) (vSat e)
  match v with
  | .add => fin (addV a b)
  | .sub => fin (addV a (negV b))
  | .mul | .scale => fin (mulV a b)
  | .fma => fin (fmaV a b c)
  | .min => fin (minMax false a b, cmpFlags a b)
  | .max => fin (minMax true a b, cmpFlags a b)
  | .abs => match a with
    | .num d => fin (.num { d with neg := false }, 0)
    | .inf _ => (infCode fp32 false, 0)
    | .nan _ => (canonNan fp32, 0)
  | .neg => match a with
    | .nan _ => (canonNan fp32, 0)
    | _ => fin (negV a, 0)
  | .div => fin (divV a b)
  | .sqrt => fin (sqrtV a)
  | .rcp => rcpV (vSat e) a
  | .rsq => rsqV a
  | .exp2 => exp2V (vSat e) a
  | .exp => expV (vSat e) a
  | _ => (0, 0)

/-- The 64-bit mask of a compared row. -/
def cmpMask (c : Nat) (as bs : List Val) : Nat :=
  (as.zip bs).zipIdx.foldl (fun m p => if fpCond c p.1.1 p.1.2 then m + 2 ^ p.2 else m) 0

/-- VCVT: rows in turn, results dense from DLOC and scales dense from CLOC. -/
def Cell.cvtRows (x : Cell) (e : W64) (src : Nat → List Val) : List Nat × List Nat × BitVec 5 × Cell :=
  (List.range (vNr e)).foldl (fun (a : List Nat × List Nat × BitVec 5 × Cell) r =>
    let c := a.2.2.2.convRow (vFmt e) (vRnd e) (vSat e) r (src r)
    (a.1 ++ c.1, a.2.1 ++ c.2.1, a.2.2.1 ||| c.2.2.1, c.2.2.2)) ([], [], 0, x)

/-- A vector operation in a cell. -/
def Cell.vec (x : Cell) (v : VOp) (e : W64) : CellOut :=
  let rows := List.range (vNr e)
  let vals : Nat → Nat → List Val := fun loc r => (x.words (locRow loc + r)).map (decodeVal fp32)
  let d := locRow (vD e)
  let or' : List (BitVec 5) → BitVec 5 := fun fs => fs.foldl (fun a f => a ||| f) 0
  let res : Cell × BitVec 5 := match v with
    | .mov => (x.put d (x.bytes (locRow (vA e)) (256 * vNr e)) [], 0)
    | .cmp =>
      let as := rows.map (fun r => (vals (vA e) r, vals (vB e) r))
      (x.put d (as.flatMap (fun p => leBytes 8 (cmpMask (bits e 55 53) p.1 p.2))) [],
        or' (as.flatMap (fun p => (p.1.zip p.2).map (fun q => cmpFlags q.1 q.2))))
    | .rmax =>
      let as := rows.map (vals (vA e))
      (x.putWords d (as.map (fun l => (finish fp32 0 true (l.foldl (minMax true) (l.headD (.nan false)), 0)).1)),
        or' (as.flatMap (fun l => l.map (fun q => cmpFlags q q))))
    | .rsum =>
      let as := rows.map (fun r => kslice (vRnd e) (vSat e) (vals (vA e) r) 0)
      (x.putWords d (as.map (fun q => q.1)), or' (as.map (fun q => q.2)))
    | .cvt =>
      let src : Nat → List Val := fun r =>
        if bit e 60 then (x.words (locRow (vA e) + r)).map (fun w =>
          .num { neg := decide (sext 32 w < 0), m := (sext 32 w).natAbs, e := 0 })
        else vals (vA e) r
      let c := x.cvtRows e src
      let y := c.2.2.2.put d (pack (fmtW (vFmt e)) c.1) []
      (if isMx (vFmt e) then y.put (locRow (vC e)) (c.2.1.map (BitVec.ofNat 8)) [] else y, c.2.2.1)
    | _ =>
      let as := rows.flatMap (fun r =>
        let fac := decodeVal fp32 (x.word (locRow (vB e)) r)
        let bs := if v = .scale then List.replicate 64 fac else vals (vB e) r
        (((vals (vA e) r).zip bs).zip (vals (vC e) r)).map (fun q => vecElem v e q.1.1 q.1.2 q.2))
      (x.putWords d (as.map (fun q => q.1)), or' (as.map (fun q => q.2)))
  let bad := (v.reads e).any (fun p => x.badIn (locRow p.1) p.2)
  { cell := if bad then res.1.spoilAll ((v.writes e).map spanAt) else res.1, flags := res.2, refused := false }

/-! ### TATTN (R80 to R84) -/

/-- The attention control block as TATTN reads it (Table 3-6): its row and row 0's first 128 bytes. -/
structure Acb where
  row : Nat
  w : BitVec 1024
  deriving DecidableEq, Repr

/-- Bits hi to lo of the word at a byte offset of the ACB. -/
def Acb.at' (a : Acb) (off hi lo : Nat) : Nat := bits a.w (8 * off + hi) (8 * off + lo)

/-- The head dimension d. -/
def Acb.d (a : Acb) : Nat := 32 * (a.at' 0x20 19 16 + 1)
/-- QN. -/
def Acb.qn (a : Acb) : Nat := a.at' 4 29 24 + 1
/-- KN. -/
def Acb.kn (a : Acb) : Nat := a.at' 8 29 24 + 1
/-- The formats of Q, K, P and V. -/
def Acb.qf (a : Acb) : Nat := a.at' 0x20 3 0
/-- KF. -/
def Acb.kf (a : Acb) : Nat := a.at' 0x20 7 4
/-- PF. -/
def Acb.pf (a : Acb) : Nat := a.at' 0x20 11 8
/-- VF. -/
def Acb.vf (a : Acb) : Nat := a.at' 0x20 15 12
/-- DV: whether values are 128 wide. -/
def Acb.wide (a : Acb) : Bool := a.at' 0x20 20 20 == 1
/-- INIT. -/
def Acb.init (a : Acb) : Bool := a.at' 0x20 31 31 == 1
/-- The width of a value. -/
def Acb.cols (a : Acb) : Nat := if a.wide then 128 else 64
/-- The scratch rows. -/
def Acb.scratch (a : Acb) : Nat := a.at' 0x2C 8 0
/-- The position of query row i, and of key j. -/
def Acb.qpos (a : Acb) (i : Nat) : Nat := a.at' 0x0C 23 0 + a.at' 4 23 0 + i
/-- The position of key j. -/
def Acb.kpos (a : Acb) (j : Nat) : Nat := a.at' 0x10 23 0 + a.at' 8 23 0 + j
/-- The scale rows of Q, K and V, where they are present and used. -/
def Acb.scaleRow (a : Acb) (fmt flag lo : Nat) : Option Nat :=
  if isMx fmt && a.at' 0x28 flag flag == 1 then some (a.at' 0x28 (lo + 8) lo) else none
/-- Q's scale row. -/
def Acb.qs (a : Acb) : Option Nat := a.scaleRow a.qf 27 0
/-- K's scale row. -/
def Acb.ks (a : Acb) : Option Nat := a.scaleRow a.kf 28 9
/-- V's scale row. -/
def Acb.vs (a : Acb) : Option Nat := a.scaleRow a.vf 29 18
/-- The first row of O's buffer: columns 0 to 63, and from 64 on. -/
def Acb.orow (a : Acb) (c : Nat) : Nat := bufRow (if a.wide then c / 64 else a.at' 0x2C 9 9) 0

/-- An operand of n elements in the operand store, with its scales. -/
def attnOperand (row n f : Nat) (s : Option Nat) : List Span :=
  { row := row, n := n * fmtW f / 8 } :: (match s with | some r => [{ row := r, n := n / 32 }] | none => [])
/-- The operands of the score product: Q, K and their scales. -/
def Acb.scored (a : Acb) : List Span := attnOperand (a.at' 0x24 8 0) (64 * a.d) a.qf a.qs ++ attnOperand (a.at' 0x24 17 9) (64 * a.d) a.kf a.ks
/-- The operands of the value product in the operand store but P: V and its scales. -/
def Acb.valued (a : Acb) : List Span := attnOperand (a.at' 0x24 26 18) (64 * a.cols) a.vf a.vs
/-- The operands in the operand store: Q, K, V and their scales. -/
def Acb.operands (a : Acb) : List Span := a.scored ++ a.valued

/-- A reserved bit of row 0 that is not 0 (R80). -/
def Acb.rsv (a : Acb) : Bool :=
  a.at' 4 31 30 != 0 || a.at' 8 31 30 != 0 || a.at' 0x0C 31 24 != 0 || a.at' 0x10 31 24 != 0 || a.at' 0x14 31 28 != 0
    || a.at' 0x20 30 21 != 0 || a.at' 0x24 31 27 != 0 || a.at' 0x28 31 30 != 0 || a.at' 0x2C 31 10 != 0 || bits a.w 1023 384 != 0

/-- The checks of R80 and R81 on the ACB's contents. -/
def Acb.refused (a : Acb) : Bool :=
  a.rsv || decide (a.at' 0x14 2 0 > 4) || decide (a.at' 0x20 19 16 > 7)
    || [a.qf, a.kf, a.pf, a.vf].any (fun f => decide (f = 0 ∨ f > 7))
    || (pairLimit a.qf a.kf).isNone || (pairLimit a.pf a.vf).isNone || (a.wide && a.at' 0x2C 9 9 == 1)
    || a.operands.any (fun p => decide (p.row + p.rows > 512)) || decide (a.scratch + 96 > 512)
    || decide (a.qpos (a.qn - 1) > 0xFFFFFF) || decide (a.kpos (a.kn - 1) > 0xFFFFFF)

/-- Whether key j is visible to row i (R82, Table 3-7). -/
def Acb.visible (a : Acb) (qseg kseg : Nat → Nat) (i j : Nat) : Bool :=
  let causal := decide (a.kpos j ≤ a.qpos i)
  let also := a.at' 0x14 3 3 == 0 || causal
  decide (j < a.kn) && (match a.at' 0x14 2 0 with
    | 0 => true
    | 1 => causal
    | 2 => causal && decide (a.qpos i < a.kpos j + (a.at' 0x14 27 4 + 1))
    | 3 => a.at' 0x18 (i / 8 * 8 + j / 8) (i / 8 * 8 + j / 8) == 1 && also
    | _ => kseg j != 0xFFFFFFFF && qseg i == kseg j && also)

/-- Minus infinity, as an FP32 code. -/
def negInf : Nat := 0xFF800000

/-- What a TATTN computes for one row: m, l, O, the scores, the weights' codes and scales, the flags and the cell. -/
structure AttnRow where
  m : Nat
  l : Nat
  o : List Nat
  s : List Nat
  pq : List Nat
  ps : List Nat
  flags : BitVec 5
  cell : Cell

/-- One valid row of a TATTN (R83, R84). x is the cell whose lanes draw, q the row of Q, ks and vs the keys and the value columns,
m l o the codes of the row's state before, which a row with nothing visible keeps (Table 3-11). -/
def attnRow (a : Acb) (rnd : Nat) (sat : Bool) (x : Cell) (i : Nat) (vis : Nat → Bool) (q : List Val) (ks vs : List (List Val))
    (mc lc : Nat) (oc : List Nat) : AttnRow :=
  let m := decodeVal fp32 mc
  let l := decodeVal fp32 lc
  let scale := decodeVal fp32 (a.at' 0 31 0)
  let score : Nat → Nat × BitVec 5 := fun j =>
    if vis j then
      let t := dotTerms 1 a.qf a.kf q (ks.getD j [])
      let d := kslice rnd sat t.1 t.2
      let r := finish fp32 0 sat (mulV scale (decodeVal fp32 d.1))
      (r.1, r.2 ||| d.2)
    else (negInf, 0)
  let ss := (List.range 64).map score
  let sv := ss.map (fun c => decodeVal fp32 c.1)
  let nan := sv.any (fun v => v.isNan || v == .inf false)
  let mn := sv.foldl (minMax true) m
  let none' := decide (mn = .inf true) || !((List.range 64).any vis)
  let diff : Val → Nat × BitVec 5 := fun v =>
    let r := finish fp32 0 sat (addV v (negV mn))
    let p := exp2V sat (decodeVal fp32 r.1)
    (p.1, p.2 ||| r.2)
  let alpha : Nat × BitVec 5 := if none' then (pow2Code 0, 0) else diff m
  let ps := sv.map (fun v => if none' || v == .inf true then ((0 : Nat), (0 : BitVec 5)) else diff v)
  let c := x.convRow a.pf rnd sat i (ps.map (fun p => decodeVal fp32 p.1))
  let pv : List Val := match fmtOf a.pf with
    | none => []
    | some f => c.1.zipIdx.map (fun p => if isMx a.pf then mxVal f p.1 (c.2.1.getD (p.2 / 32) 0) else decodeVal f p.1)
  let al := decodeVal fp32 alpha.1
  let lt := mulV al l
  let ln := kslice rnd sat (lt.1 :: pv) lt.2
  let on := vs.zipIdx.map (fun v =>
    let t := dotTerms 1 a.pf a.vf pv v.1
    let p := mulV al (decodeVal fp32 (oc.getD v.2 0))
    kslice rnd sat (p.1 :: t.1) (p.2 ||| t.2))
  let sums := if none' then [] else [ln.2] ++ on.map (fun p => p.2)
  let fs := (ss.map (fun p => p.2)) ++ [cmpFlags m m, alpha.2] ++ ps.map (fun p => p.2) ++ [c.2.2.1] ++ sums
  let keep : Nat → Nat → Nat := fun old v => if nan then canonNan fp32 else if none' then old else v
  { m := keep mc (finish fp32 0 true (mn, 0)).1, l := keep lc ln.1, o := on.zipIdx.map (fun p => keep (oc.getD p.2 0) p.1.1),
    s := ss.map (fun p => p.1),
    pq := c.1, ps := c.2.1, flags := fs.foldl (fun b f => b ||| f) 0, cell := c.2.2.2 }

/-- A row at or above QN: its scores are −∞ and its weights +0, and its lanes draw (R84). -/
def attnIdle (a : Acb) (rnd : Nat) (sat : Bool) (x : Cell) (i : Nat) : AttnRow :=
  let c := x.convRow a.pf rnd sat i (List.replicate 64 (.num { neg := false, m := 0, e := 0 }))
  { m := 0, l := 0, o := [], s := List.replicate 64 negInf, pq := c.1, ps := c.2.1, flags := 0, cell := c.2.2.2 }

/-- The spans that a TATTN reads: the ACB, its operands, and the row state where it has one. -/
def Acb.reads (a : Acb) : List Span :=
  let state : List Span := if a.init then []
    else [{ row := a.row + 1, n := 4 * a.qn }, { row := a.row + 2, n := 4 * a.qn }, { row := a.orow 0, n := 256 * a.qn }]
      ++ (if a.wide then [{ row := a.orow 64, n := 256 * a.qn }] else [])
  let seg : List Span := if a.at' 0x14 2 0 = 4
    then [{ row := a.row + 3, n := 4 * a.qn }, { row := a.row + 4, n := 4 * a.kn }] else []
  { row := a.row, n := 128 } :: (state ++ seg ++ a.operands)

/-- The spans that a TATTN writes. -/
def Acb.writes (a : Acb) : List Span :=
  [{ row := a.row + 1, n := 256 }, { row := a.row + 2, n := 256 }, { row := a.orow 0, n := 16384 },
   { row := a.scratch, n := 16384 }, { row := a.scratch + 64, n := 512 * fmtW a.pf }]
    ++ (if a.wide then [{ row := a.orow 64, n := 16384 }] else []) ++ (if isMx a.pf then [{ row := a.row, n := 256 }] else [])

/-- TATTN in a cell (R80 to R84). -/
def Cell.tattn (x : Cell) (w : BitVec 26) : CellOut :=
  let row := bits w 12 4
  let rnd := bits w 16 15
  let sat := bit w 17
  let a : Acb := { row := row, w := BitVec.ofNat 1024 (leVal (x.bytes row 128)) }
  if a.refused then { cell := x, flags := 0, refused := true }
  else
    let q := x.values a.qf (a.at' 0x24 8 0) (64 * a.d) a.qs
    let k := x.values a.kf (a.at' 0x24 17 9) (64 * a.d) a.ks
    let v := x.values a.vf (a.at' 0x24 26 18) (64 * a.cols) a.vs
    let ks := (List.range 64).map (fun j => (k.drop (j * a.d)).take a.d)
    let vs := (List.range a.cols).map (fun c => (v.drop (c * 64)).take 64)
    let rows := (List.range 64).foldl (fun (acc : List AttnRow × Cell) i =>
      let r := if i < a.qn then
          attnRow a rnd sat acc.2 i (a.visible (x.word (row + 3)) (x.word (row + 4)) i) ((q.drop (i * a.d)).take a.d) ks vs
            (if a.init then negInf else x.word (row + 1) i)
            (if a.init then 0 else x.word (row + 2) i)
            ((List.range a.cols).map (fun c => if a.init then 0 else x.word (a.orow c + i) (c % 64)))
        else attnIdle a rnd sat acc.2 i
      (acc.1 ++ [r], r.cell)) ([], x)
    let live := rows.1.take a.qn
    let y0 := ((rows.2.putWords (row + 1) (live.map (fun r => r.m))).putWords (row + 2) (live.map (fun r => r.l)))
    let y1 := live.zipIdx.foldl (fun (c : Cell) r =>
      let c1 := c.putWords (a.orow 0 + r.2) (r.1.o.take 64)
      if a.wide then c1.putWords (a.orow 64 + r.2) (r.1.o.drop 64) else c1) y0
    let y2 := (y1.putWords a.scratch (rows.1.flatMap (fun r => r.s))).put (a.scratch + 64)
      (pack (fmtW a.pf) (rows.1.flatMap (fun r => r.pq))) []
    let y3 := if isMx a.pf then
        y2.put row (x.bytes row 128 ++ (rows.1.flatMap (fun r => r.ps)).map (BitVec.ofNat 8)) []
      else y2
    let bad := a.reads.any (fun p => x.badIn p.row p.n)
    { cell := if bad then y3.spoilAll a.writes else y3, flags := rows.1.foldl (fun b r => b ||| r.flags) 0, refused := false }

/-- Whether an instruction reads a poisoned word of its cell (R66). -/
def Cell.consumes (x : Cell) : CellOp → Bool
  | .tmma e => (mReads e).any (fun p => x.badIn p.row p.n) || (bit e 56 && x.badIn (mBuf e) 16384)
  | .tattn w =>
    let a : Acb := { row := bits w 12 4, w := BitVec.ofNat 1024 (leVal (x.bytes (bits w 12 4) 128)) }
    !a.refused && a.reads.any (fun p => x.badIn p.row p.n)
  | .vec v e => (v.reads e).any (fun p => x.badIn (locRow p.1) p.2)
  | _ => false

/-- Run an instruction in a cell. -/
def Cell.run (x : Cell) : CellOp → CellOut
  | .tmma e => x.tmma e
  | .tattn w => x.tattn w
  | .tseed s => { cell := { x with seed := s, gens := [] }, flags := 0, refused := false }
  | .vec v e => x.vec v e
  | _ => { cell := x, flags := 0, refused := false }

/-- The rows that an instruction reads and writes, as ranges of rows; a TATTN's are taken as the whole cell. -/
def CellOp.touches : CellOp → List (Nat × Nat) × List (Nat × Nat)
  | .tmma e =>
    ((mReads e).map (fun p => (p.row, p.rows)) ++ (if bit e 56 then [(mBuf e, 64)] else []), [(mBuf e, 64)])
  | .tattn _ => ([(0, 640)], [(0, 640)])
  | .tseed _ => ([], [])
  | .vec v e =>
    ((v.reads e).map (fun p => (locRow p.1, rowsFor p.2)), (v.writes e).map (fun p => (locRow p.1, rowsFor p.2)))
  | .load _ f n sf sn => ([], [(f, n), (sf, sn)])
  | .store _ f n sf sn => ([(f, n), (sf, sn)], [])

/-- Whether ranges of two lists meet. -/
def anyMeet (as bs : List (Nat × Nat)) : Bool := as.any (fun p => bs.any (fun q => meets p.1 p.2 q.1 q.2))

/-- Whether a later instruction of a cell must wait for an earlier one (R65). -/
def CellOp.waitsFor (later earlier : CellOp) : Bool :=
  let a := later.touches
  let b := earlier.touches
  anyMeet a.2 b.1 || anyMeet a.2 b.2 || anyMeet a.1 b.2

end Sys2Proof.Machine
end

