-- ==== Sys2Proof/Machine/Tile.lean ====
section
/-! DEFINITION. The tile instructions and the completion of a tile load (04_blocks_and_threads.md R104 to R114;
05_veltur_instructions.md R132, R135 to R137; 10_translation.md R265, R272 to R274). -/
namespace Sys2Proof.Machine

/-! ### Fields (Table 5-12) -/

/-- DKIND or SKIND. -/
def tKind (e : W64) : Nat := bits e 17 16
/-- The first row of kind 0 or 1, as a row of the cell. -/
def tRow (e : W64) : Nat := if tKind e = 1 then bufRow (bits e 18 18) (bits e 24 19) else bits e 26 18
/-- The first row past the store or buffer that kind 0 or 1 names. -/
def tEnd (e : W64) : Nat := if tKind e = 1 then bufRow (bits e 18 18) 64 else 512
/-- SROW. -/
def tSrow (e : W64) : Nat := bits e 35 27
/-- The cells that a tile instruction names: CMASK of TLD, CELL of TST. -/
def tCells (store : Bool) (e : W64) : List Nat :=
  if tKind e = 2 then [] else if store then [bits e 3 0] else ones (BitVec.ofNat 16 (bits e 15 0))
/-- Reserved bits and values of EXT. -/
def tBad (store : Bool) (e : W64) : Bool :=
  bits e 63 57 != 0 || tKind e == 3 || (tKind e == 1 && bits e 26 25 != 0) || (store && bits e 15 4 != 0)

/-- The rows that a tile of nb bytes with ns scales takes, or a span past the end. -/
def tRowsBad (e : W64) (nb ns : Nat) : Bool :=
  tKind e != 2 && (decide (tRow e + rowsFor nb > tEnd e) || (ns != 0 && decide (tSrow e + rowsFor ns > 512)))

/-! ### The pages of a tile (R111, R113) -/

/-- A target moved back or on in its memory. -/
def Target.minus (g : Target) (k : Nat) : Target :=
  match g with
  | .dev o => .dev (o - k)
  | .host h => .host (h - k)
  | .remote d o => .remote d (o - k)
  | .bstore o => .bstore (o - k)
/-- A target some bytes further on. -/
def Target.plus (g : Target) (k : Nat) : Target :=
  match g with
  | .dev o => .dev (o + k)
  | .host h => .host (h + k)
  | .remote d o => .remote d (o + k)
  | .bstore o => .bstore (o + k)

/-- Where a byte of a tile lies, by the pages that have been translated; a block-store tile lies at its own offsets. -/
def pageTarget (d : BitVec 512) (pages : List (Nat × Target)) (va : W64) : Target :=
  if dSpace d = 2 then .bstore va.toNat
  else match pages.find? (fun p => p.1 == va.toNat / 4096) with
    | some p => p.2.plus (va.toNat % 4096)
    | none => .bstore va.toNat

/-- Where a walk over the bytes of a tile ended: past the last, or at a byte with no translation. -/
inductive Walked where
  | all (pages : List (Nat × Target)) (s : State)
  | stop (why : XOut) (x : Touch) (pages : List (Nat × Target)) (s : State)

/-- Whether a requester waits on a page request, so that a page without a translation is known (R135). -/
def State.pageAsked (s : State) (who : Waiter) : Bool := s.xlt.pri.any (fun r => r.waiters.any (fun w => decide (w = who)))

/-- Translate the pages of a tile in element order. -/
def tileWalk (w : Want) : List Touch → List (Nat × Target) → State → Walked
  | [], pages, s => .all pages s
  | x :: rest, pages, s =>
    if pages.any (fun p => p.1 == x.addr.toNat / 4096) then tileWalk w rest pages s
    else match s.translate { w with va := x.addr } with
      | .ok g s1 => tileWalk w rest (pages ++ [(x.addr.toNat / 4096, g.minus (x.addr.toNat % 4096))]) s1
      | why => .stop why x pages s

/-- Whether an address falls in a class that a tile may not touch (R265). -/
def State.tileRefused (s : State) (pasid : BitVec 20) (va : W64) : Bool :=
  match s.classOf pasid va with
  | .refused => true
  | .local' off => (s.place off).isNone
  | .other _ off => off / 2 ^ 44 % 4 == 3
  | .virt _ => false

/-- The requester of a tile instruction. -/
def State.tileWant (s : State) (b t : Nat) (th : Thread) (write : Bool) : Want :=
  { unit := b, who := .thread b t, pasid := s.pasidOf b, va := 0, write := write, fetch := false, tries := th.tries }

/-! ### Markers in the cells' queues (R65) -/

/-- Whether an entry of a cell's queue is the marker of a tile instruction of a thread. -/
def CellEntry.marks (e : CellEntry) (t id : Nat) : Bool :=
  e.t.thr.val == t && (match e.op with
    | .load k _ _ _ _ => k == id
    | .store k _ _ _ _ => k == id
    | _ => false)

/-- Whether the marker of a tile instruction waits for nothing before it in a cell's queue. -/
def Cell.markFree (c : Cell) (t id : Nat) : Bool :=
  match c.queue.find? (fun e => e.marks t id) with
  | none => true
  | some m => (c.queue.takeWhile (fun e => !(e.marks t id))).all (fun e => !(m.op.waitsFor e.op))

/-- A block without the markers of a tile instruction. -/
def Block.unmark (x : Block) (t id : Nat) : Block :=
  (List.range 17).foldl (fun (y : Block) p =>
    let c := y.cell p
    if c.queue.any (fun e => e.marks t id) then y.setCell p { c with queue := c.queue.filter (fun e => !(e.marks t id)) } else y) x

/-- A block with an entry at the end of a logical cell's queue. -/
def Block.enqueue (x : Block) (e : CellEntry) : Block :=
  let p := x.phys e.logical.toNat
  let c := x.cell p
  x.setCell p { c with queue := c.queue ++ [e] }

/-! ### The block store (R93) -/

/-- A block with bytes written in its store, each with its poison: a word written whole stops being poisoned. -/
def Block.storeBytes (x : Block) (bs : List (Nat × Byte × Bool)) : Block :=
  let m := bs.foldl (fun (m : Memory) p => m.put p.1 p.2.1) x.store
  let ws := (bs.map (fun p => p.1 / 8)).eraseDups
  { x with store := ws.foldl (fun (m : Memory) w =>
      let mine := bs.filter (fun p => p.1 / 8 == w)
      if mine.any (fun p => p.2.2) then m.setBad w true
      else if (mine.map (fun p => p.1)).eraseDups.length = 8 then m.setBad w false else m) m }

/-! ### Moving a tile store (R109, R113, R166) -/

/-- The bytes and scales of a tile in a cell, with the poison of each. -/
def Block.tileOut (x : Block) (logical : Nat) (e : W64) (nb ns : Nat) : List (Byte × Bool) × List (Byte × Bool) :=
  let c := x.cell (x.phys logical)
  let get : Nat → Nat → List (Byte × Bool) := fun row n =>
    (c.bytes row n).zipIdx.map (fun p => (p.1, !((Tab.get 0 c.good (row + p.2 / 256)).getLsbD (p.2 % 256 / 8))))
  (get (tRow e) nb, get (tSrow e) ns)

/-- The bytes and scales of a tile in a block store, with the poison of each. -/
def Block.storeOut (x : Block) (bo so nb ns : Nat) : List (Byte × Bool) × List (Byte × Bool) :=
  let get : Nat → Nat → List (Byte × Bool) := fun o n =>
    (List.range n).map (fun k => (x.store.get (o + k), x.store.bad ((o + k) / 8)))
  (get bo nb, get so ns)

/-- Bytes of a tile go to where the tile lies, from a position up to another, as far as there is room: the position of the first that
must wait, if one must. -/
def State.tilePut (s : State) (b t : Nat) (d : BitVec 512) (pages : List (Nat × Target)) (first stop : Nat)
    (src : List (Byte × Bool) × List (Byte × Bool)) : Option Nat × State :=
  let ts := touchFrom d first (stop - first)
  let val : Touch → Byte × Bool := fun x => match x.scale with
    | some j => src.2.getD j (0, false)
    | none => src.1.getD x.pos (0, false)
  if dSpace d = 2 then (none, s.setBlk b ((s.blk b).storeBytes (ts.map (fun x => (x.addr.toNat, (val x).1, (val x).2)))))
  else State.tileBytes b t (pageTarget d pages) val ts s

/-- Where a tile store takes its bytes: rows of a cell, or the block store at the offsets that it keeps. -/
def Block.storeSrc (x : Block) (a : Acc) (e : W64) (d : BitVec 512) : List (Byte × Bool) × List (Byte × Bool) :=
  if tKind e = 2 then x.storeOut a.data.toNat a.res.toNat (dBytes d) (dScales d)
  else x.tileOut (bits e 3 0) e (dBytes d) (dScales d)

/-- A tile store moves its data, as far as the write-combining buffers have room: none from a cell that has failed (R97). -/
def State.moveStore (s : State) (b t : Nat) (a : Acc) : State :=
  match a.kind with
  | .tst e d first stop =>
    let x := s.blk b
    let c := bits e 3 0
    let fin : State → State := fun u => (u.setBlk b ((u.blk b).unmark t a.id)).updAcc b t a.id (fun y => { y with performed := true })
    if tKind e ≠ 2 && x.failed c then (fin s).defer b t (.cellLost a.ia (BitVec.ofNat 4 c))
    else match s.tilePut b t d a.pages first stop (x.storeSrc a e d) with
      | (none, u) => fin u
      | (some p, u) => u.updAcc b t a.id (fun y => { y with kind := .tst e d p stop })
  | _ => s

/-- The oldest tile store of a thread that has not moved its data. -/
def Thread.nextStore (t : Thread) : Option Acc :=
  t.accs.find? (fun a => match a.kind with | .tst _ _ _ _ => !a.performed | _ => false)

/-- Whether the oldest tile store of a thread that has not moved may move: nothing before it in its cell's queue holds it (R65). -/
def State.storeReady (s : State) (b t : Nat) : Option Acc :=
  match (s.thr b t).nextStore with
  | some a => match a.kind with
    | .tst e _ _ _ =>
      if decide (tKind e = 2) || (((s.blk b).cell ((s.blk b).phys (bits e 3 0))).markFree t a.id) then some a else none
    | _ => none
  | none => none

/-- The tile stores of a block's threads move as far as they may, in the order of each thread (R65, R160); a thread whose store has
found no room is stuck for now. -/
def State.flushStores (b : Nat) : Nat → List Nat → State → State
  | 0, _, s => s
  | n + 1, stuck, s =>
    match (List.range 128).find? (fun t => !(stuck.any (fun k => k == t)) && (s.storeReady b t).isSome) with
    | none => s
    | some t => match s.storeReady b t with
      | none => s
      | some a =>
        let u := s.moveStore b t a
        let still := match (u.thr b t).nextStore with | some y => y.id == a.id | none => false
        State.flushStores b n (if still then t :: stuck else stuck) u

/-- How many tile stores of a block have not moved. -/
def State.storesWaiting (s : State) (b : Nat) : Nat :=
  ((List.range 128).map (fun t => ((s.thr b t).accs.filter (fun a => match a.kind with
    | .tst _ _ _ _ => !a.performed
    | _ => false)).length)).foldl Nat.add 0

/-- The tile stores of a block that may move do. -/
def State.flush (s : State) (b : Nat) : State := State.flushStores b (2 * s.storesWaiting b) [] s

/-- The tile stores of every block of a region that wait for room move. -/
def State.moveOn (s : State) (r : Nat) : State :=
  s.each (blocksOf r) (fun t b => if t.storesWaiting b = 0 then t else t.flush b)

/-! ### Tile loads -/

/-- The runs of a tile that another device holds, each contiguous there and inside 4 KiB (12_umakin_transport.md R328). -/
def remoteRuns (gs : List Target) : List (W16 × Nat × Nat) :=
  (gs.foldl (fun (acc : List (W16 × Nat × Nat)) g =>
    match g with
    | .remote d o =>
      match acc with
      | (e, p, n) :: rest => if decide (d = e) && p + n == o && o % 4096 != 0 then (e, p, n + 1) :: rest else (d, o, 1) :: acc
      | [] => [(d, o, 1)]
    | _ => acc) []).reverse

/-- How many tile instructions the tile loader of a block holds (R110). -/
def State.tileHeld (s : State) (b : Nat) : Nat :=
  ((List.range 128).map (fun t => ((s.thr b t).accs.filter (fun a => match a.kind with
    | .tld _ _ _ _ => true
    | .tst _ _ _ _ => !a.performed
    | _ => false)).length)).foldl Nat.add 0

/-- A byte of a line that a tile load has read, and its poison. -/
def Acc.fed (a : Acc) (host : Bool) (o : Nat) : Byte × Bool :=
  match a.got.find? (fun x => x.1 == lineFor host o) with
  | some x => (lineByte x.2.1 (o % 256), x.2.2.getLsbD (o % 256 / 64))
  | none => (0, false)

/-- One byte of a tile as the tile load has read it, and its poison: other devices' bytes have come into the access's buffer. -/
def State.tileIn (s : State) (b : Nat) (a : Acc) : Target → Byte × Bool
  | .dev o => a.fed false o
  | .host h => a.fed true h
  | .remote d o => (Tab.get 0 a.buf (d.toNat * 2 ^ 46 + o), false)
  | .bstore o => ((s.blk b).store.get o, (s.blk b).store.bad (o / 8))

/-- A tile load writes its destination (R108, R110, R136); the cells that it names have not failed. -/
def State.tileWrite (s : State) (b : Nat) (a : Acc) (e boff soff : W64) (d : BitVec 512) : State :=
  let ts := touches d
  let got : Touch → Byte × Bool := fun x => s.tileIn b a (pageTarget d a.pages x.addr)
  let data := (ts.filter (fun x => x.scale.isNone)).map got
  let scales := (ts.filter (fun x => x.scale.isSome)).map got
  let bytes := toCell d (data.map (fun p => p.1))
  let bad := toCellBad d (data.map (fun p => p.2))
  let x := s.blk b
  if tKind e = 2 then
    s.setBlk b (x.storeBytes ((bytes.zip bad).zipIdx.map (fun p => (boff.toNat + p.2, p.1.1, p.1.2))
      ++ scales.zipIdx.map (fun p => (soff.toNat + p.2, p.1.1, p.1.2))))
  else
    s.setBlk b ((tCells false e).foldl (fun (y : Block) c =>
      let p := y.phys c
      let z := (y.cell p).put (tRow e) bytes bad
      y.setCell p (if scales = [] then z else z.put (tSrow e) (scales.map (fun q => q.1)) (scales.map (fun q => q.2)))) x)

/-- The first cell that a tile load names and that has failed for the task (R97). -/
def Block.failedOf (x : Block) (cs : List Nat) : Option Nat := cs.find? (fun c => x.failed c)

/-- The lines of a tile in the memory of this device or of the host, and the sectors of each that it touches. -/
def tileLines (gs : List Target) : List (LineId × BitVec 4) :=
  let ks : List (Nat × Nat) := gs.filterMap (fun g => (lineOfTgt g).map (fun x => (lkey x.1, x.2 / 64)))
  ((ks.map (fun k => k.1)).eraseDups).map (fun k =>
    (lineAt k, (ks.filter (fun x => x.1 == k)).foldl (fun a x => a ||| (1#4 <<< x.2)) (0 : BitVec 4)))

/-- TLD once its checks have passed: dead targets, the loader's queue, the markers, and the reads: RdCurr for each line that is not
another device's (01_architecture.md R23), and requests to other devices. -/
def State.acceptTld (s : State) (b t : Nat) (th : Thread) (e boff soff : W64) (d : BitVec 512) (pages : List (Nat × Target)) : Res :=
  let ts := touches d
  let at' : Touch → Target := fun x => pageTarget d pages x.addr
  match ts.find? (fun x => (s.deadAt (at' x)).isSome) with
  | some x => .done (s.defer b t (.deadTarget th.pc x.addr))
  | none =>
    if s.tileHeld b ≥ 32 then .held
    else
      let runs := remoteRuns ((ts.filter (fun x => x.scale.isNone)).map at' ++ (ts.filter (fun x => x.scale.isSome)).map at')
      let lines := tileLines (ts.map at')
      let s1 := s.addAcc b t (.tld e boff soff d) (dBase d) (.bstore 0) 0 0 runs.length
      let s2 := s1.updAcc b t th.nextId (fun a => { a with pages := pages, want := lines.map (fun x => x.1) })
      let mark : Nat → CellEntry := fun c =>
        { t := { blk := Fin.ofNat 100 b, thr := Fin.ofNat 128 t }, ia := th.pc, logical := BitVec.ofNat 4 c,
          op := .load th.nextId (tRow e) (rowsFor (dCellBytes d)) (tSrow e) (rowsFor (dScales d)) }
      let s3 := s2.setBlk b ((tCells false e).foldl (fun (y : Block) c => y.enqueue (mark c)) (s2.blk b))
      let s4 := s3.emits (lines.map (fun x => .noc (.rdcurr (.block (Fin.ofNat 100 b)) x.1 x.2)))
      .done (s4.each runs (fun s r => s.netSend r.1.toNat (.acc b t th.nextId) [readPkt r.2.1 r.2.2]))

/-- TLD: a tile of memory into cells or the block store (R135, R136). -/
def execTld (t : Th) (w : W0) (ext : W64) (s : State) : Host.Outcome State Fault Refusal :=
  let b := t.blk.val
  let n := t.thr.val
  .next (issue t w { long := true, bad := tBad false ext, regs := [w.a, w.b], mem := true, brk := true, iof := true } (fun s th =>
    let d := th.desc (tdn w)
    let boff := th.reg w.a + BitVec.ofNat 64 (bits ext 56 36)
    let soff := th.reg w.b
    let x := s.blk b
    let cs := tCells false ext
    if descBad d false (if tKind ext = 2 then some (boff.toNat, soff.toNat) else none) then .exc .descriptorFault (dBase d)
    else if (tKind ext != 2 && cs == []) || cs.any (fun c => decide (c ≥ x.cellsN)) || tRowsBad ext (dCellBytes d) (dScales d) then
      .exc .illegalOperand 0
    else if (tKind ext = 2 ∨ dSpace d = 2) ∧ th.tileBusy then .held
    else match x.failedOf cs with
    | some c => .done (s.defer b n (.cellLost th.pc (BitVec.ofNat 4 c)))
    | none =>
      if dSpace d = 2 then s.acceptTld b n th ext boff soff d []
      else if (touches d).any (fun y => s.tileRefused (s.pasidOf b) y.addr) then .exc .descriptorFault (dBase d)
      else match tileWalk (s.tileWant b n th false) (touches d) [] s with
        | .all pages s1 => s1.acceptTld b n th ext boff soff d pages
        | .stop why y _ _ => match why with
          | .fault c s1 => .xfault s1 .pageFault y.addr 0 c
          | .wait page s1 => .stay (s1.suspend b n page false)
          | .hold => .held
          | _ => .exc .descriptorFault (dBase d)) s)

/-- A tile load ends: every read that it made has returned, and nothing before it in a cell still reads or writes its rows
(R65, R110). -/
def State.tileLand (s : State) (b t : Nat) (a : Acc) (e boff soff : W64) (d : BitVec 512) : State :=
  let x := s.blk b
  let cs := tCells false e
  let dead := (touches d).find? (fun y => (s.deadAt (pageTarget d a.pages y.addr)).isSome)
  if (dead.isNone ∧ (a.left > 0 ∨ a.want ≠ [])) ∨ cs.any (fun c => !((x.cell (x.phys c)).markFree t a.id)) then s
  else
    let s1 := (s.setBlk b (x.unmark t a.id)).dropAcc b t a.id
    let s2 := match x.failedOf cs, dead with
      | some c, _ => s1.defer b t (.cellLost a.ia (BitVec.ofNat 4 c))
      | none, some y => s1.defer b t (.deadTarget a.ia y.addr)
      | none, none =>
        if a.refused then s1.defer b t (.remoteError a.ia a.va)
        else if a.bad then s1.defer b t (.deadTarget a.ia a.va)
        else s1.tileWrite b a e boff soff d
    s2.flush b

/-- TILE_LOAD_COMPLETE: every read of tile load k of a thread has returned, and its destination is written (R110). -/
def execTileLoadComplete (t : Th) (k : Nat) (s : State) : Host.Outcome State Fault Refusal :=
  .next (match (s.thr t.blk.val t.thr.val).accs.find? (fun a => a.id == k) with
    | none => s
    | some a => match a.kind with
      | .tld e boff soff d => s.tileLand t.blk.val t.thr.val a e boff soff d
      | _ => s)

/-! ### Tile stores -/

/-- The part of a tile store from a position up to another is accepted: it waits its turn in its cell, and moves as room allows. What it
takes from the block store it takes at the offsets bo and so. -/
def State.acceptTst (s : State) (b t : Nat) (th : Thread) (e : W64) (bo so : Nat) (d : BitVec 512) (pages : List (Nat × Target))
    (first stop : Nat) : State :=
  let s1 := s.addAcc b t (.tst e d first stop) (dBase d) (.bstore 0) 0 (BitVec.ofNat 64 bo) 0
  let s2 := s1.updAcc b t th.nextId (fun a => { a with pages := pages, res := BitVec.ofNat 64 so })
  let mark : CellEntry :=
    { t := { blk := Fin.ofNat 100 b, thr := Fin.ofNat 128 t }, ia := th.pc, logical := BitVec.ofNat 4 (bits e 3 0),
      op := .store th.nextId (tRow e) (rowsFor (dBytes d)) (tSrow e) (rowsFor (dScales d)) }
  (if tKind e = 2 then s2 else s2.setBlk b ((s2.blk b).enqueue mark)).flush b

/-- The saved tile offset of a thread that resumes at its tile store (R114). -/
def Thread.toff (t : Thread) : Nat := if bit t.sts0 43 && decide (t.sts2 = t.pc) then bits t.sts0 63 44 else 0

/-- A tile store stops at a byte: the offset and the program address are kept (R113, R114). -/
def State.keepToff (s : State) (b t : Nat) (pc : W64) (off : Nat) : State :=
  s.setThr b t { ((s.thr b t).sts 43 43 1).sts 63 44 off with sts2 := pc }

/-- TST: a tile of a cell or of the block store to memory, up to the first byte that has no translation (R113, R135, R136). -/
def execTst (t : Th) (w : W0) (ext : W64) (s : State) : Host.Outcome State Fault Refusal :=
  let b := t.blk.val
  let n := t.thr.val
  .next (issue t w { long := true, bad := tBad true ext, regs := [w.a, w.b], mem := true, wr := true, brk := true, iof := true } (fun s th =>
    let d := th.desc (tdn w)
    let bo := (th.reg w.a + BitVec.ofNat 64 (bits ext 56 36)).toNat
    let so := (th.reg w.b).toNat
    let x := s.blk b
    let cs := tCells true ext
    let first := th.toff
    if descBad d true (if tKind ext = 2 then some (bo, so) else none) then .exc .descriptorFault (dBase d)
    else if cs.any (fun c => decide (c ≥ x.cellsN)) || tRowsBad ext (dBytes d) (dScales d) then .exc .illegalOperand 0
    else if (tKind ext = 2 ∨ dSpace d = 2) ∧ th.tileBusy then .held
    else match x.failedOf cs with
    | some c => .done (s.defer b n (.cellLost th.pc (BitVec.ofNat 4 c)))
    | none =>
      if s.tileHeld b ≥ 32 then .held
      else if dSpace d = 2 then .done (s.acceptTst b n th ext bo so d [] first (dBytes d))
      else if (touches d).any (fun y => s.tileRefused (s.pasidOf b) y.addr) then .exc .descriptorFault (dBase d)
      else match tileWalk (s.tileWant b n th true) (touchFrom d first (dBytes d - first)) [] s with
        | .all pages s1 => .done (s1.acceptTst b n th ext bo so d pages first (dBytes d))
        | .stop why y pages s0 =>
          let part : State → State := fun q =>
            (q.acceptTst b n th ext bo so d pages first y.pos).keepToff b n th.pc y.pos
          match why with
          | .fault c s1 => .xfault (part s1) .pageFault y.addr 1 c
          | .wait page s1 => .stay ((if s1.pageAsked (.thread b n) then part s1 else s1).suspend b n page false)
          | .hold => .held
          | .denied => .xfault s0 .protection y.addr 1 2
          | _ => .exc .descriptorFault (dBase d)) s)

/-- Sectors of a line come into the region cache of its home: nothing where they are, or where another agent owns them, and a request
at the home otherwise (R137). -/
def State.bringIn (s : State) (l : LineId) (secs : BitVec 4) : State :=
  match s.home l with
  | none => s
  | some r =>
    let have' : Bool := match s.rline r l with
      | some e => e.own.isSome || e.hst.toNat == 2 || (!e.dirOnly && (secs &&& ~~~e.valid) == 0)
      | none => false
    if have' || (!l.host && (s.deadDev (l.line.toNat * 256)).isSome) || !((s.rc r).allocates (rset l)) then s
    else s.atHome (.fetch secs) l

/-- What the pages of a tile prefetch give: the targets of those that have a translation, or a wait for the host's. -/
def prefWalk (w : Want) : List W64 → List (Nat × Target) → State → Option (List (Nat × Target)) × State
  | [], pages, s => (some pages, s)
  | va :: rest, pages, s =>
    match s.translate { w with va := va } with
    | .ok g s1 => prefWalk w rest (pages ++ [(va.toNat / 4096, g.minus (va.toNat % 4096))]) s1
    | .wait _ s1 => (none, s1)
    | .fault _ s1 => prefWalk w rest pages s1
    | _ => prefWalk w rest pages s

/-- TPF: the lines of a tile come into the region caches of their homes. Its descriptor and the classes of its addresses are checked as
for any tile instruction (R107, R135, R265, notes/assumptions 47); its tile raises no exception, and every page that has no
translation is skipped, with no page request (R137, R274). -/
def execTpf (t : Th) (w : W0) (ext : W64) (s : State) : Host.Outcome State Fault Refusal :=
  let b := t.blk.val
  let n := t.thr.val
  .next (issue t w { long := true, bad := ext != 0, mem := true, iof := true } (fun s th =>
    let d := th.desc (tdn w)
    let ts := touches d
    if descBad d false none then .exc .descriptorFault (dBase d)
    else if dSpace d = 2 then .done s
    else if ts.any (fun y => s.tileRefused (s.pasidOf b) y.addr) then .exc .descriptorFault (dBase d)
    else
      let firsts := ((ts.map (fun y => y.addr.toNat / 4096)).eraseDups).map (fun k =>
        ((ts.find? (fun y => y.addr.toNat / 4096 == k)).map (fun y => y.addr)).getD 0)
      match prefWalk { s.tileWant b n th false with pri := false } firsts [] s with
      | (none, s1) => .stay (s1.suspend b n false false)
      | (some pages, s1) =>
        let there := ts.filter (fun y => pages.any (fun p => p.1 == y.addr.toNat / 4096))
        .done (s1.each (tileLines (there.map (fun y => pageTarget d pages y.addr))) (fun u x => u.bringIn x.1 x.2))) s)

/-- TDSET: word X[2:0] of t[D[3:0]] = g[A] (R132). -/
def execTdset (t : Th) (w : W0) (s : State) : Host.Outcome State Fault Refusal :=
  .next (issueThread t w { regs := [w.a] } (fun th =>
    let k := bits w.x 2 0
    th.setDesc (tdn w) (setBits (th.desc (tdn w)) (64 * k + 63) (64 * k) (th.reg w.a).toNat)) s)

/-- TDGET: g[D] = word X[2:0] of t[A[3:0]] (R132). -/
def execTdget (t : Th) (w : W0) (s : State) : Host.Outcome State Fault Refusal :=
  .next (issueThread t w { regs := [w.d] } (fun th => th.setReg w.d (dword (th.desc (w.a.setWidth 4)) (bits w.x 2 0))) s)

/-- TDADD: BASE of t[D[3:0]] += g[A], and SBASE += g[B] (R132). -/
def execTdadd (t : Th) (w : W0) (s : State) : Host.Outcome State Fault Refusal :=
  .next (issueThread t w { regs := [w.a, w.b] } (fun th =>
    let d := th.desc (tdn w)
    th.setDesc (tdn w) (setBits (setBits d 63 0 (dBase d + th.reg w.a).toNat) 127 64 (dSbase d + th.reg w.b).toNat)) s)

/-- WRITE_COMBINE_DRAIN: a line of a region's write-combining buffers, of those that do not drain yet, starts to drain
(06_memory_ordering.md R166). -/
def execWriteCombineDrain (r : Fin 5) (n : Nat) (s : State) : Host.Outcome State Fault Refusal :=
  .next (match ((s.wc r.val).filter (fun x => !x.out))[n]? with
    | none => s
    | some x => (s.drainLine r.val x).moveOn r.val)

/-- STORE_COMPLETE: outstanding store k of a thread is complete: a scalar store is performed at its home, a store to another
device has been acknowledged or refused, a tile store has drained (R158, Table 6-1). -/
def execStoreComplete (t : Th) (k : Nat) (s : State) : Host.Outcome State Fault Refusal :=
  let b := t.blk.val
  let n := t.thr.val
  .next (match (s.thr b n).accs.find? (fun a => a.id == k) with
    | none => s
    | some a => match a.kind with
      | .st | .zline =>
        let s1 := s.kick b n
        match (s1.thr b n).accs.find? (fun x => x.id == k) with
        | none => s1
        | some x =>
          if x.performed = false then s1
          else
            let s2 := s1.dropAcc b n k
            if x.refused then s2.setThr b n ((s2.thr b n).sts 39 39 1) else s2
      | .stc _ => s.comeBack b n k
      | .tst _ _ _ _ =>
        let s1 := s.flush b
        let moved := match (s1.thr b n).accs.find? (fun x => x.id == k) with | some x => x.performed | none => false
        if s1.bufferedBy b n || !moved then s1 else s1.dropAcc b n k
      | _ => s)

end Sys2Proof.Machine
end

