-- ==== Sys2Proof/Machine/Cell.lean ====
section
/-! DEFINITION. The instructions that a thread delivers to a cell, and their completion (05_veltur_instructions.md R132, R133, R138
to R141; 03_tensor_cells.md R63 to R66; 04_blocks_and_threads.md R96, R97; 02_formats_and_coats.md R49, R55). -/
namespace Sys2Proof.Machine

/-- Deliver an instruction to a logical cell: a number at or above the block's count is an illegal operand (R139), and a cell
that has failed for the task ends every instruction that names it (R97). -/
def State.toCell (s : State) (t : Th) (th : Thread) (logical : Nat) (op : CellOp) : Res :=
  let b := t.blk.val
  let x := s.blk b
  if logical ≥ x.cellsN then .exc .illegalOperand 0
  else if x.failed logical then .done (s.defer b t.thr.val (.cellLost th.pc (BitVec.ofNat 4 logical)))
  else .done (s.setBlk b (x.enqueue { t := t, ia := th.pc, logical := BitVec.ofNat 4 logical, op := op }))

/-- TMMA: one matrix product into an accumulator buffer (R138, R139, R71). -/
def execTmma (t : Th) (w : W0) (ext : W64) (s : State) : Host.Outcome State Fault Refusal :=
  let legal := match pairLimit (mAf ext) (mBf ext) with | some n => decide (mK ext ≤ n) | none => false
  let bad := bits ext 63 62 != 0 || bits ext 60 59 == 3 || decide (mAf ext > 9) || decide (mBf ext > 9)
  .next (issue t w { long := true, bad := bad, ill := bits ext 58 57 == 0 || !legal } (fun s th =>
    if (mReads ext).any (fun p => decide (p.row + p.rows > 512)) then .exc .illegalOperand 0
    else s.toCell t th (bits ext 3 0) (.tmma ext)) s)

/-- TATTN: one attention step (R138, R139, R83). -/
def execTattn (t : Th) (w : W0) (s : State) : Host.Outcome State Fault Refusal :=
  let bad := bits w.x 25 18 != 0 || bits w.x 16 15 == 3
  .next (issue t w { bad := bad, ill := bits w.x 14 13 == 0 } (fun s th =>
    if bits w.x 12 4 + 5 > 512 then .exc .illegalOperand 0 else s.toCell t th (bits w.x 3 0) (.tattn w.x)) s)

/-- TSEED: seeds the lane generators of cell X[3:0] with g[A][31:0], after every earlier instruction of the cell (R132, R139,
R49). -/
def execTseed (t : Th) (w : W0) (s : State) : Host.Outcome State Fault Refusal :=
  .next (issue t w { regs := [w.a] } (fun s th => s.toCell t th (bits w.x 3 0) (.tseed (BitVec.ofNat 32 (bits (th.reg w.a) 31 0)))) s)

/-- CWAIT: waits until every earlier cell instruction of the thread has completed (R132). -/
def execCwait (t : Th) (w : W0) (s : State) : Host.Outcome State Fault Refusal :=
  .next (issue t w {} (fun s _ => if s.cellsBusy t.blk.val t.thr.val then .held else .done s) s)

/-- A vector instruction is delivered to its cell once its fields and rows are checked (R139 to R141). -/
def issueVec (t : Th) (w : W0) (v : VOp) (ext : W64) (s : State) : State :=
  let locs := v.reads ext ++ v.writes ext
  let bad := bits ext 63 61 != 0 || vRnd ext == 3 || (v == .cvt && decide (vFmt ext > 9))
  issue t w { long := true, bad := bad, ill := locs.any (fun p => locBad p.1) } (fun s th =>
    if locs.any pastEnd then .exc .illegalOperand 0 else s.toCell t th (bits ext 3 0) (.vec v ext)) s

/-- VADD (R78). -/
def execVadd (t : Th) (w : W0) (ext : W64) (s : State) : Host.Outcome State Fault Refusal := .next (issueVec t w .add ext s)

/-- VSUB (R78). -/
def execVsub (t : Th) (w : W0) (ext : W64) (s : State) : Host.Outcome State Fault Refusal := .next (issueVec t w .sub ext s)

/-- VMUL (R78). -/
def execVmul (t : Th) (w : W0) (ext : W64) (s : State) : Host.Outcome State Fault Refusal := .next (issueVec t w .mul ext s)

/-- VFMA (R78). -/
def execVfma (t : Th) (w : W0) (ext : W64) (s : State) : Host.Outcome State Fault Refusal := .next (issueVec t w .fma ext s)

/-- VMIN (R78). -/
def execVmin (t : Th) (w : W0) (ext : W64) (s : State) : Host.Outcome State Fault Refusal := .next (issueVec t w .min ext s)

/-- VMAX (R78). -/
def execVmax (t : Th) (w : W0) (ext : W64) (s : State) : Host.Outcome State Fault Refusal := .next (issueVec t w .max ext s)

/-- VCMP: a mask of 64 bits for each row (R141). -/
def execVcmp (t : Th) (w : W0) (ext : W64) (s : State) : Host.Outcome State Fault Refusal := .next (issueVec t w .cmp ext s)

/-- VABS (R78). -/
def execVabs (t : Th) (w : W0) (ext : W64) (s : State) : Host.Outcome State Fault Refusal := .next (issueVec t w .abs ext s)

/-- VNEG (R78). -/
def execVneg (t : Th) (w : W0) (ext : W64) (s : State) : Host.Outcome State Fault Refusal := .next (issueVec t w .neg ext s)

/-- VSCALE: row n by element n of the row at BLOC (R141). -/
def execVscale (t : Th) (w : W0) (ext : W64) (s : State) : Host.Outcome State Fault Refusal := .next (issueVec t w .scale ext s)

/-- VDIV (R78). -/
def execVdiv (t : Th) (w : W0) (ext : W64) (s : State) : Host.Outcome State Fault Refusal := .next (issueVec t w .div ext s)

/-- VSQRT (R78). -/
def execVsqrt (t : Th) (w : W0) (ext : W64) (s : State) : Host.Outcome State Fault Refusal := .next (issueVec t w .sqrt ext s)

/-- VRCP (R78). -/
def execVrcp (t : Th) (w : W0) (ext : W64) (s : State) : Host.Outcome State Fault Refusal := .next (issueVec t w .rcp ext s)

/-- VRSQ (R78). -/
def execVrsq (t : Th) (w : W0) (ext : W64) (s : State) : Host.Outcome State Fault Refusal := .next (issueVec t w .rsq ext s)

/-- VEXP2 (R79). -/
def execVexp2 (t : Th) (w : W0) (ext : W64) (s : State) : Host.Outcome State Fault Refusal := .next (issueVec t w .exp2 ext s)

/-- VEXP (R79). -/
def execVexp (t : Th) (w : W0) (ext : W64) (s : State) : Host.Outcome State Fault Refusal := .next (issueVec t w .exp ext s)

/-- VRMAX: the largest element of each row (R141). -/
def execVrmax (t : Th) (w : W0) (ext : W64) (s : State) : Host.Outcome State Fault Refusal := .next (issueVec t w .rmax ext s)

/-- VRSUM: the sum of each row (R141). -/
def execVrsum (t : Th) (w : W0) (ext : W64) (s : State) : Host.Outcome State Fault Refusal := .next (issueVec t w .rsum ext s)

/-- VCVT: to format DFMT, with MX scales (R141). -/
def execVcvt (t : Th) (w : W0) (ext : W64) (s : State) : Host.Outcome State Fault Refusal := .next (issueVec t w .cvt ext s)

/-- VMOV: a copy (R141). -/
def execVmov (t : Th) (w : W0) (ext : W64) (s : State) : Host.Outcome State Fault Refusal := .next (issueVec t w .mov ext s)

/-- The oldest instruction of a cell's queue that is no marker. -/
def Cell.oldest (c : Cell) : Option CellEntry := c.queue.find? (fun e => !e.op.isMark)

/-- Whether the oldest instruction waits for a tile load or store before it (R65). -/
def Cell.blocked (c : Cell) (e : CellEntry) : Bool := (c.queue.takeWhile (fun x => x.op.isMark)).any (fun x => e.op.waitsFor x.op)

/-- The oldest instruction of a physical cell completes: its results are written and its flags merge (R55), poison that it read
marks what it wrote (R66), and a failed check of its ACB is reported (R139). -/
def State.cellDone (s : State) (b p : Nat) : State :=
  let c := (s.blk b).cell p
  match c.oldest with
  | none => s
  | some e =>
    if c.blocked e || s.blockDust b then s
    else
      let t := e.t.thr.val
      let r := c.run e.op
      let s1 := s.setBlk b ((s.blk b).setCell p { r.cell with queue := r.cell.queue.erase e })
      let s2 := s1.setThr b t ((s1.thr b t).flags r.flags)
      let s3 := if r.refused then s2.defer b t (.operand e.ia e.logical)
                else if c.consumes e.op then s2.defer b t (.cellPoison e.ia e.logical) else s2
      s3.flush b

/-- CELL_INSTRUCTION_COMPLETE: the oldest instruction of a physical cell completes, while ACLK runs (R55, R65;
17_power_clocks_startup.md R466). -/
def execCellInstructionComplete (b : Fin 100) (cell : Fin 17) (s : State) : Host.Outcome State Fault Refusal :=
  .next (if s.rst.plls.getLsbD 0 then s.cellDone b.val cell.val else s)

end Sys2Proof.Machine
end

