-- ==== Sys2Proof/Machine/Sync.lean ====
section
/-! DEFINITION. Fences, barriers, semaphores, late reports and the end of a thread (05_veltur_instructions.md R145 to R149, R152,
R153, R156; 06_memory_ordering.md R161 to R166). -/
namespace Sys2Proof.Machine

/-! ### What a fence covers (Tables 6-3 and R162) -/

/-- Whether an access reads. -/
def AccKind.reads : AccKind → Bool
  | .ld _ _ | .ldr _ _ | .amo _ _ _ _ | .tld _ _ _ _ => true
  | _ => false

/-- Whether a target is another device. -/
def Target.far : Target → Bool
  | .remote _ _ => true
  | _ => false

/-- Whether a tile access touches the block store. -/
def AccKind.inBlock : AccKind → Bool
  | .tld e _ _ d => bits e 17 16 == 2 || dSpace d == 2
  | .tst e d _ _ => bits e 17 16 == 2 || dSpace d == 2
  | _ => false

/-- Whether an access reaches memory of this device or the host. -/
def Acc.near (a : Acc) : Bool :=
  match a.kind with
  | .tld _ _ _ _ | .tst _ _ _ _ => a.pages.any (fun p => !p.2.far)
  | _ => !a.tgt.far

/-- Whether a fence of a scope covers an access (Table 6-3): at block scope what touches the block store, and the scalar accesses to memory
of this device or the host, which have reached the block cache once they are performed (R161); at device scope those and tile
loads. -/
def Acc.covered (a : Acc) (scope : Nat) : Bool :=
  let scalar : Bool := match a.kind with | .tld _ _ _ _ | .tst _ _ _ _ | .sig _ => false | _ => !a.tgt.far
  match scope with
  | 0 => a.kind.inBlock || scalar
  | 1 => a.kind.inBlock || scalar || (a.near && (match a.kind with | .tst _ _ _ _ => false | _ => true))
  | _ => true

/-- The accesses that a fence waits for: of a scope and a kind, 1 an acquire. -/
def Thread.coverIds (t : Thread) (scope kind : Nat) : List Nat :=
  ((t.accs.filter (fun a => a.covered scope && (kind != 1 || a.kind.reads))).map (fun a => a.id))

/-- Whether an access that a fence waits for has completed. An access is complete at block scope once it is performed; a tile store is
once its bytes have left the block, and at SYS and IO scope once none of them is buffered (Tables 6-1, 6-3). -/
def State.accDone (s : State) (b t scope : Nat) (a : Acc) : Bool :=
  match a.kind with
  | .tst _ d _ _ => a.performed && (decide (scope < 2) || dSpace d == 2 || !s.bufferedBy b t)
  | _ => scope == 0 && a.performed

/-- Whether everything that a fence waits for has completed: at SYS and IO scope, whatever its kind, the drains of the thread's buffered
lines too (R166). -/
def State.fenceDone (s : State) (b t : Nat) (f : Fence) : Bool :=
  ((s.thr b t).accs.filter (fun a => f.covers.any (fun k => k == a.id))).all (s.accDone b t f.scope.toNat) &&
    !(decide (f.scope.toNat ≥ 2) && s.bufferedBy b t)

/-- The write-combining lines that hold a thread's stores start to drain, and the tile stores that wait for room go on (R166). -/
def State.drainThread (s : State) (b t : Nat) : State :=
  (s.drainLines (regionOf b) ((s.wc (regionOf b)).filter (fun x =>
    !x.out && x.who.any (fun e => e.2.live && e.2.b == b && e.2.t == t)))).moveOn (regionOf b)

/-- A fence starts: its reservation clears (R168), and at SYS and IO scope the thread's buffered lines drain. -/
def State.startFence (s : State) (b t : Nat) (ia : W64) (scope kind : Nat) (sem : Option SemSig) : State :=
  let s1 := s.clearResv b t
  let th := s1.thr b t
  let f : Fence := { ia := ia, scope := BitVec.ofNat 2 scope, kind := BitVec.ofNat 2 kind, covers := th.coverIds scope kind, sem := sem }
  let s2 := s1.setThr b t { th with fences := th.fences ++ [f] }
  if scope ≥ 2 then s2.drainThread b t else s2

/-- FENCE: scope X[1:0] and kind X[3:2]; FENCE.IO is a full fence whatever its kind, sets IOF and clears IOP (R146, R152, R164). -/
def execFence (t : Th) (w : W0) (s : State) : Host.Outcome State Fault Refusal :=
  let b := t.blk.val
  let n := t.thr.val
  let scope := bits w.x 1 0
  .next (issue t w { bad := bits w.x 3 2 == 3 && scope != 3, mem := true, brk := scope != 3 } (fun s th =>
    let s1 := s.startFence b n th.pc scope (if scope = 3 then 0 else bits w.x 3 2) none
    .done (if scope = 3 then s1.setThr b n (((s1.thr b n).sts 42 42 1).sts 41 41 0) else s1)) s)

/-- The oldest fence of a thread completes with what STS0 tells, late or not: the code is written except at block scope. -/
def State.endFence (s : State) (b t : Nat) (f : Fence) (late : Bool) : State :=
  let th := s.thr b t
  let th1 := { th with fences := th.fences.drop 1 }
  s.setThr b t (if f.scope = 0 then th1 else th1.report late false)

/-- The semaphore's atomic of a SEMSIG goes to its home, or to another device, and the SEMSIG waits for its answer. A dead target is
reported late (R142, R148). -/
def State.signalSem (s : State) (b t : Nat) (f : Fence) (g : SemSig) : State :=
  if (s.deadAt g.tgt).isSome then s.defer b t (.deadTarget f.ia g.va)
  else
    let id := (s.thr b t).nextId
    let s1 := (s.addAcc b t (.sig g.isMax) g.va g.tgt 8 g.value (if g.tgt.far then 1 else 0)).updAcc b t id (fun a => { a with ia := f.ia })
    let th := s1.thr b t
    let s2 := s1.setThr b t { th with fences := { f with covers := [id], sem := none, scope := 0 } :: th.fences }
    match g.tgt with
    | .remote d off => s2.netSend d.toNat (.acc b t id) [atomicPkt off (if g.isMax then 7 else 0) true g.value 0]
    | _ => s2.kick b t

/-- Whether a fence is the wait of a SEMSIG for its atomic. -/
def State.sigFence (s : State) (b t : Nat) (f : Fence) : Bool :=
  (s.thr b t).accs.any (fun a => a.kind.isSig && f.covers.any (fun k => k == a.id))

/-- The answered atomics of SEMSIG leave the thread, with the late reports that they bring. -/
def State.landSigs (s : State) (b t : Nat) (f : Fence) : State :=
  s.each ((s.thr b t).accs.filter (fun a => a.kind.isSig && a.performed && f.covers.any (fun k => k == a.id)))
    (fun s a => (s.dropAcc b t a.id).landed b t a)

/-- A thread's oldest fence completes, and the semaphore operation that it precedes goes on. -/
def State.closeFence (s : State) (b t : Nat) (f : Fence) (late : Bool) : State :=
  match f.sem with
  | none => s.endFence b t f late
  | some g => (s.endFence b t f late).signalSem b t f g

/-- FENCE_COMPLETE: a thread's oldest fence completes, if every access that it waits for has completed, been discarded or been
refused (R146, R162, R163). -/
def execFenceComplete (t : Th) (s : State) : Host.Outcome State Fault Refusal :=
  let b := t.blk.val
  let n := t.thr.val
  .next (match (s.thr b n).fences with
    | [] => s
    | f :: _ =>
      let s0 := s.kick b n
      let s1 := if f.scope.toNat ≥ 2 then s0.drainThread b n else s0
      let s2 := s1.landSigs b n f
      if s2.fenceDone b n f then s2.closeFence b n f false else s2)

/-- FENCE_TIMEOUT_EXPIRY: a thread's oldest fence, or its SEMSIG, has waited for the time in FLT_FENCE_TIMEOUT: it completes with TIMEOUT
and a record, and leaves its accesses in flight (R146, R165, R174). -/
def execFenceTimeoutExpiry (t : Th) (s : State) : Host.Outcome State Fault Refusal :=
  let b := t.blk.val
  let n := t.thr.val
  .next (match (s.thr b n).fences with
    | [] => s
    | f :: _ =>
      let s1 := s.landSigs b n f
      if s1.fenceDone b n f then s1.closeFence b n f false
      else
        let open' := ((s.thr b n).accs.filter (fun a => f.covers.any (fun k => k == a.id) && !(s.accDone b n f.scope.toNat a))).length
        let s2 := if s1.sigFence b n f then s1.endFence b n { f with scope := 1 } true else s1.closeFence b n f true
        let s3 := s2.offer (s2.plainRec 3 b f.ia n open' []) (some (b, n))
        if s3.snag.waits.any (fun x => x.thread == some (b, n)) ∧ (s3.thr b n).stat = .ready
        then s3.setThr b n { s3.thr b n with stat := .snagWait } else s3)

/-! ### Barriers (R147) -/

/-- An empty barrier. -/
def Barrier.empty : Barrier := { count := 0, waiting := [] }

/-- The threads of a block's task that have not ended. -/
def State.unended (s : State) (b : Nat) : Nat :=
  ((List.range 128).filter (fun t => (s.thr b t).stat ≠ .off && (s.thr b t).stat ≠ .ended)).length

/-- The barriers of a block whose generation is complete let their threads go on. -/
def State.barCheck (s : State) (b : Nat) : State :=
  s.each (List.range 16) (fun s n =>
    let x := s.blk b
    let g := Tab.get Barrier.empty x.bars n
    if g.waiting ≠ [] ∧ g.waiting.length ≥ Nat.min g.count (s.unended b) then
      (s.setBlk b { x with bars := Tab.set Barrier.empty x.bars n Barrier.empty }).each g.waiting (fun s t =>
        let th := s.thr b t
        (s.setThr b t { th with stat := .ready }).retire b t (th.pc + 8) false)
    else s)

/-- A thread arrives at a barrier: the first of a generation fixes its count. -/
def State.arriveBar (s : State) (b t n count : Nat) : State :=
  let x := s.blk b
  let g := Tab.get Barrier.empty x.bars n
  let g1 : Barrier := { count := if g.waiting = [] then count else g.count, waiting := g.waiting ++ [t] }
  let s1 := (s.setBlk b { x with bars := Tab.set Barrier.empty x.bars n g1 }).clearResv b t
  (s1.setThr b t { s1.thr b t with stat := .barrier (BitVec.ofNat 4 n) }).barCheck b

/-- BAR: barrier X[3:0]; every thread of the task takes part, or g[A] of them (R147). A thread arrives once its earlier accesses
at block scope have been performed, which is the release that BAR makes. -/
def execBar (t : Th) (w : W0) (s : State) : Host.Outcome State Fault Refusal :=
  let b := t.blk.val
  let n := t.thr.val
  .next (issue t w { regs := [w.a], brk := true } (fun s th =>
    let all := bit w.x 4
    let count := if all then (match (s.blk b).task with | some k => k.threads | none => 1) else (th.reg w.a).toNat
    if !all && (decide (count < 1) || decide (count > 128)) then .exc .illegalOperand 0
    else if !((th.accs.filter (fun a => a.covered 0)).all (s.accDone b n 0)) then .held
    else .stay (s.arriveBar b n (bits w.x 3 0) count)) s)

/-! ### Semaphores (R148, R149) -/

/-- The scopes of SEMSIG and SEMWAIT: DEV and SYS. -/
def semScope (n : Nat) : Bool := n == 1 || n == 2

/-- SEMSIG: a release fence, and then a 64-bit atomic on the semaphore at g[A] (R148). -/
def execSemsig (t : Th) (w : W0) (s : State) : Host.Outcome State Fault Refusal :=
  let b := t.blk.val
  let n := t.thr.val
  .next (issue t w { bad := !(semScope (bits w.x 2 1)), regs := [w.a, w.b], mem := true, wr := true, brk := true } (fun s th =>
    let va := th.reg w.a
    if va.toNat % 8 ≠ 0 then .exc .misaligned va
    else s.access b n th va true true (fun g s1 =>
      .done (s1.startFence b n th.pc (bits w.x 2 1) 2
        (some { va := va, tgt := g, isMax := bit w.x 0, value := th.reg w.b })))) s)

/-- The conditions of SEMWAIT and WAIT: greater or equal, equal, not equal. -/
def semMeets (cond : Nat) (v x : W64) : Bool :=
  match cond with
  | 0 => decide (v.toNat ≥ x.toNat)
  | 1 => decide (v = x)
  | _ => decide (v ≠ x)

/-- A SEMWAIT ends: the value last read goes to g[D] if there is one, the code is written, and the thread goes on. -/
def State.endSemwait (s : State) (b t : Nat) (w : SemWait) (val : Option W64) (code : Nat) : State :=
  let th := s.thr b t
  let th1 := match val with | some v => th.setReg w.d v | none => th
  (s.setThr b t { th1.sts 7 0 code with sem := none, stat := .ready }).retire b t (w.ia + 8) false

/-- A SEMWAIT has read its semaphore. -/
def State.judgeSem (s : State) (b t : Nat) (w : SemWait) (v : W64) : State :=
  if semMeets w.cond.toNat v w.value then (s.endSemwait b t w (some v) 0).startFence b t w.ia w.scope.toNat 1 none
  else s.setThr b t { s.thr b t with sem := some { w with last := v, asked := false, got := false } }

/-- A thread that waits at SEMWAIT reads its semaphore (R149): at its home, at once where nobody else need be asked, or from another
device. -/
def State.semLook (s : State) (b t : Nat) (w : SemWait) : State :=
  let ask : State := s.setThr b t { s.thr b t with sem := some { w with asked := true } }
  if (s.deadAt w.tgt).isSome then s.endSemwait b t w none 1
  else if w.got then s.judgeSem b t w w.last
  else if w.asked then s
  else match w.tgt, lineOfTgt w.tgt with
    | .remote d off, _ => ask.netSend d.toNat (.look b t) [readPkt off 8]
    | _, some (l, off) =>
      let k : BitVec 4 := 1#4 <<< (off / 64)
      let c : Instr := .rdcurr (.block (Fin.ofNat 100 b)) l k
      let here : Bool := match s.home l with | some r => s.lineReady r l k false c | none => true
      if here then
        let now := s.lineNow l
        if now.2.getLsbD (off / 64) then s.defer b t (.poison w.ia w.va) else s.judgeSem b t w (lineVal now.1 off 8)
      else ask.emit (.noc c)
    | _, none => s

/-- SEMWAIT: waits until the semaphore at g[A] meets the condition (R149). The command comes again when the thread reads the
semaphore again. Before anything has been read, the value last read is a free one. -/
def execSemwait (t : Th) (w : W0) (s : State) : Host.Outcome State Fault Refusal :=
  let b := t.blk.val
  let n := t.thr.val
  .next (match (s.thr b n).sem with
    | some x => if (s.thr b n).stat = .semwait then s.semLook b n x else s
    | none =>
      let bad := bits w.x 1 0 == 3 || !(semScope (bits w.x 3 2))
      issue t w { bad := bad, regs := [w.a, w.b, w.c, w.d], mem := true, brk := true } (fun s th =>
        let va := th.reg w.a
        if va.toNat % 8 ≠ 0 then .exc .misaligned va
        else s.access b n th va false false (fun g s1 =>
          let x : SemWait := { ia := th.pc, va := va, tgt := g, cond := BitVec.ofNat 2 (bits w.x 1 0), value := th.reg w.b, d := w.d,
                               scope := BitVec.ofNat 2 (bits w.x 3 2), last := s1.freeVal, asked := false, got := false }
          let s2 := (s1.took 1).clearResv b n
          .stay ((s2.setThr b n { s2.thr b n with stat := .semwait, sem := some x }).semLook b n x))) s)

/-- SEMWAIT_TIMEOUT: the time of a waiting SEMWAIT has passed: the value last read, and CODE TIMEOUT (R149). -/
def execSemwaitTimeout (t : Th) (s : State) : Host.Outcome State Fault Refusal :=
  let b := t.blk.val
  let n := t.thr.val
  .next (match (s.thr b n).sem with
    | some x => if (s.thr b n).stat = .semwait then s.endSemwait b n x (some x.last) 3 else s
    | none => s)

/-! ### Late reports and the end of a thread (R145, R153) -/

/-- DEFERRED_EXCEPTION_REPORT: a late report reaches a thread, and is delivered at its next issue (R153, R155). -/
def execDeferredExceptionReport (t : Th) (e : Deferred) (s : State) : Host.Outcome State Fault Refusal :=
  .next (s.defer t.blk.val t.thr.val e)

/-- Whether an ending thread still waits for something: a load, a cell instruction, or a fence or SEMSIG (R145). -/
def State.endWaits (s : State) (b t : Nat) : Bool :=
  let th := s.thr b t
  th.accs.any (fun a => a.kind.reads || a.kind.dest.isSome || a.kind.isSig) || s.cellsBusy b t || !th.fences.isEmpty || !th.deferred.isEmpty

/-- END_COMPLETE: a thread at END ends, once every earlier cell instruction and load has reported (R145). -/
def execEndComplete (t : Th) (s : State) : Host.Outcome State Fault Refusal :=
  let b := t.blk.val
  let n := t.thr.val
  let th := s.thr b n
  if th.stat ≠ .ending ∨ th.ends.isSome ∨ s.endWaits b n then .next s
  else .next ((s.setThr b n { th with stat := .ended }).barCheck b)

end Sys2Proof.Machine
end

