-- ==== Sys2Proof/Machine/PowOps.lean ====
section
/-! DEFINITION. The power domains: which units each holds, on which it depends, how one is woken, and how a block comes back
(17_power_clocks_startup.md R449 to R459). -/
namespace Sys2Proof.Machine

/-- What a power domain holds (Table 17-1). -/
inductive DomKind where
  | always | site | host | control | skim
  | compute (r : Nat) (c : Nat)
  | mesh (r : Nat)
  | links (g : Nat)
  | net (r : Nat)
  deriving DecidableEq, Repr

/-- What domain d holds (Table 17-1). -/
def domKind (d : Nat) : DomKind :=
  match d with
  | 0 => .always
  | 1 => .site
  | 2 => .host
  | 3 => .control
  | 4 => .skim
  | k + 5 =>
    let r := k / 9
    let j := k % 9
    if j < 5 then .compute r j else if j = 5 then .mesh r else if j = 6 then .links (2 * r)
    else if j = 7 then .links (2 * r + 1) else .net r

/-- The compute domain of block b. -/
def computeDom (b : Nat) : Nat := 5 + 9 * (b / 20) + b % 20 / 4

/-- The blocks of a compute domain. -/
def domBlocks (d : Nat) : List Nat :=
  match domKind d with
  | .compute r c => (List.range 4).map (fun k => 20 * r + 4 * c + k)
  | _ => []

/-- The domain that a domain depends on. -/
def domParent (d : Nat) : Option Nat :=
  match domKind d with
  | .always => none
  | .site => some 0
  | .host => some 0
  | .control => some 2
  | .skim => some 2
  | .mesh _ => some 0
  | .compute r _ => some (10 + 9 * r)
  | .links g => some (10 + 9 * (g / 2))
  | .net r => some (10 + 9 * r)

/-- The domains that depend on a domain. -/
def domKids (d : Nat) : List Nat := (List.range 50).filter (fun k => domParent k == some d)

/-- Whether a domain is on: switched on, or draining. -/
def State.domOn (s : State) (d : Nat) : Bool :=
  decide ((s.dom d).state = .on) || decide ((s.dom d).state = .draining)

/-- Whether a register answers: its domain is on, and during a reset it is one of the component or device registers
(09_host_port.md R240, R255). -/
def State.answers (s : State) (d off : Nat) : Bool := s.domOn d && (decide (s.rst.phase = .none) || decide (off < 0x20000))

/-- A write of a register reaches it when it answers, no function-level reset runs and the device is not in D3hot: it is otherwise
discarded, and logged when the register does not answer (09_host_port.md R240, R255, R256; 17_power_clocks_startup.md R463). -/
def State.barWrite (s : State) (d off : Nat) (f : State → State) : State :=
  if s.hpt.flr || s.hpt.d3hot then s else if s.answers d off then f s else s.hostLog 2 off

/-- The controller powers up the first domain that waits for it (R453). -/
def State.kickWake (s : State) : State :=
  match s.pwr.waking with
  | [] => s
  | d :: _ => s.setDom d { s.dom d with state := .poweringUp }

/-- A domain joins the ones that wait to be powered up (R453, R455). -/
def State.wake (s : State) (d : Nat) : State :=
  if s.domOn d ∨ s.pwr.waking.any (fun k => k == d) then s
  else
    let s1 : State := { s with pwr := { s.pwr with waking := s.pwr.waking ++ [d] } }
    s1.kickWake

/-- A cell whose stores start poisoned, as after a power-up or a substitution (R453; 04_blocks_and_threads.md R96). -/
def Cell.spoiled (c : Cell) : Cell := { c with rows := [], good := [], seed := 0, gens := [], queue := [] }

/-- Every word of a cell's stores without poison, as when they are zeroed (14_skim_lanes.md R372). -/
def allGood : Tab W32 := (List.range 640).map (fun r => (r, 0xFFFFFFFF#32))

/-- A block cache with no lines; its retired frames and ways stay out of service. -/
def BCache.emptied (c : BCache) : BCache := { BCache.init with retired := c.retired, once := c.once, ways := c.ways }

/-- A block as it comes back from having no power (R453): its store zeroed, with no last PASID, its cell stores poisoned and its
cache invalid. -/
def State.blockFresh (s : State) (b : Nat) : State :=
  let x := (List.range 17).foldl (fun (y : Block) p => y.setCell p (y.cell p).spoiled) (s.blk b)
  (s.setBlk b { x with store := Memory.empty, lastPasid := none }).setBc b (s.bc b).emptied

/-- Bits 7 to 0 of region r's mode word (Table 17-10). -/
def State.modeOf (s : State) (r : Nat) : Byte := BitVec.ofNat 8 (bits s.pwr.modes (8 * r + 7) (8 * r))

/-- The state with region r's mode word replaced. -/
def State.setMode (s : State) (r : Nat) (m : Byte) : State :=
  { s with pwr := { s.pwr with modes := setBits s.pwr.modes (8 * r + 7) (8 * r) m.toNat } }

/-- The stretch level of block b (R459). -/
def State.level (s : State) (b : Nat) : Nat :=
  let x := s.blk b
  let base := if x.state = .skim then 0
    else Nat.min 16 (Nat.max (bits x.mode 3 0) (Nat.max s.pwr.sCap.toNat s.pwr.sTherm.toNat))
  if s.pwr.droops.any (fun d => d == computeDom b) then Nat.max 8 base else base

/-- Whether the front-end dispatches: no chip latch stands, no fallback takeover, and no reset runs (15_faults_and_dust_sheets.md
R407, R417; R475). -/
def State.dispatches (s : State) : Bool :=
  bits s.flt.chip 26 24 == 0 && !s.hpt.fallback && decide (s.rst.phase = .none) && !s.rst.stopped

end Sys2Proof.Machine
end

