-- ==== Sys2Proof/Machine/Tasks.lean ====
section
/-! DEFINITION. Placing, starting, ending and aborting block tasks (04_blocks_and_threads.md R88, R94 to R103, R115, R116;
17_power_clocks_startup.md R455, R457). -/
namespace Sys2Proof.Machine

/-- The kernel that a queue command launched. -/
def State.kernel (s : State) (q slot : Nat) : Option Kernel := s.blocks.kernels.find? (fun k => k.q == q && k.slot == slot)

/-- The state with a kernel changed. -/
def State.updKernel (s : State) (q slot : Nat) (f : Kernel → Kernel) : State :=
  { s with blocks := { s.blocks with kernels := updWhere (fun k => k.q == q && k.slot == slot) f s.blocks.kernels } }

/-! ### Placement (R100, R101, R457) -/

/-- How many tasks a kernel's grid holds. -/
def Kernel.total (k : Kernel) : Nat := k.gx * k.gy * k.gz

/-- Whether a block may take a task of a kernel that runs under a mode (R101, R455, R457). -/
def State.eligible (s : State) (k : Kernel) (mode : Byte) (b : Nat) : Bool :=
  let x := s.blk b
  let dom := (s.dom (computeDom b)).state
  (decide (x.state = .idle) || (decide (x.state = .off) && (decide (dom = .gated) || decide (dom = .poweringUp)))) && x.task.isNone &&
    x.reserved.isNone && !s.blockDust b && decide (dom ≠ .draining) && k.rmask.getLsbD (regionOf b) &&
    decide (s.modeOf (regionOf b) = mode)

/-- Whether a MODESET holds a kernel back: it has placed no task, and its regions meet the scope (11_queues_and_copy.md
R300). -/
def State.modeHolds (s : State) (k : Kernel) : Bool := k.next == 0 && s.pwr.transition && (k.rmask &&& s.pwr.scope) != 0

/-- The mode that a kernel runs under: that of the lowest region in its mask at its first placement (R457). -/
def State.kernelMode (s : State) (k : Kernel) : Byte := k.mode.getD (s.modeOf ((ones k.rmask).headD 0))

/-- The block that takes a kernel's next task: the lowest eligible one of the first region after the previous task's, in
cyclic order, that has one (R101). -/
def State.pickBlock (s : State) (k : Kernel) : Option Nat :=
  let m := s.kernelMode k
  ((List.range 5).flatMap (fun i => blocksOf ((s.blocks.prevRegion + 1 + i) % 5))).find? (s.eligible k m)

/-- The coordinates of the task of a linear index, x fastest (R100). -/
def Kernel.coord (k : Kernel) (i : Nat) : Nat × Nat × Nat := (i % k.gx, i / k.gx % k.gy, i / (k.gx * k.gy))

/-- A kernel's next task is placed on a block; a gated domain is woken for it (R455). -/
def State.placeTask (s : State) (k : Kernel) (b : Nat) : State :=
  let c := k.coord k.next
  let x := s.blk b
  let t : Task := { q := k.q, slot := k.slot, x := BitVec.ofNat 16 c.1, y := BitVec.ofNat 16 c.2.1, z := BitVec.ofNat 16 c.2.2,
                    threads := k.threads, pasid := k.pasid, prog := k.prog, args := k.args, cwmask := k.cwmask,
                    clear := decide (x.lastPasid ≠ some k.pasid), started := false }
  let s1 := s.setBlk b { x with task := some t, state := if x.state = .off then .off else .running }
  let s2 := s1.updKernel k.q k.slot (fun y => { y with next := y.next + 1, blocks := y.blocks ++ [b], mode := some (s.kernelMode k) })
  let s3 := { s2 with blocks := { s2.blocks with prevRegion := regionOf b } }
  if x.state = .off then s3.wake (computeDom b) else s3

/-- TASK_PLACE: the front-end places the next task of a kernel, if a block is eligible (R100, R101). -/
def execTaskPlace (q : Fin 1024) (slot : W16) (s : State) : Host.Outcome State Fault Refusal :=
  .next (match s.kernel q.val slot.toNat with
    | none => s
    | some k =>
      if k.aborted ∨ k.next ≥ k.total ∨ s.modeHolds k ∨ s.dispatches = false then s
      else match s.pickBlock k with
        | none => s
        | some b => s.placeTask k b)

/-! ### The start of a task (R94, R95, R97, R102, R413) -/

/-- The physical cells of a block by its registers: logical n of BLK_CELL_MAP (R95). -/
def mapCell (spare lost : BitVec 5) (n : Nat) : Nat :=
  let p := if lost.toNat < 31 && decide (lost.toNat ≤ n) then n + 1 else n
  if p = spare.toNat then 16 else p

/-- A cell that MAKE_GOOD returned is mapped back (15_faults_and_dust_sheets.md R413): LOST clears or the spare returns to idle;
a spare that covered the lost cell covers it again. -/
def Block.cellBack (x : Block) (p : Nat) : Block :=
  if p = 16 then
    if x.spareHad ≠ 31 ∧ x.lost = x.spareHad then
      { x.setCell 16 { x.cell 16 with state := 0 } with spareFor := x.spareHad, spareUsed := true, lost := 31, spareHad := 31 }
    else x.setCell 16 { x.cell 16 with state := 1, logical := 31 }
  else if x.spareFor.toNat = p then
    let y := x.setCell p { x.cell p with state := 0 }
    { y.setCell 16 { y.cell 16 with state := 1, logical := 31 } with spareFor := 31, spareUsed := false }
  else if x.lost.toNat = p then { x.setCell p { x.cell p with state := 0 } with lost := 31, spareHad := 31 }
  else x.setCell p { x.cell p with state := 0 }

/-- The logical numbers of a block's cells, under the mapping in force (Table 4-10). -/
def Block.renumber (x : Block) : Block :=
  (List.range 17).foldl (fun (y : Block) p =>
    let c := y.cell p
    let n := (List.range y.cellsN).find? (fun n => mapCell y.mapSpare y.mapLost n == p)
    y.setCell p { c with logical := if c.state = 0 then (match n with | some k => BitVec.ofNat 5 k | none => 31) else 31 }) x

/-- The mapping that a task of a block starts with (R95, R97). -/
def Block.remap (x : Block) : Block :=
  let y := x.back.foldl Block.cellBack x
  let z : Block := { y with back := [], cellsN := if y.lost.toNat < 31 then 15 else 16, mapSpare := y.spareFor, mapLost := y.lost,
                            lostNow := [] }
  z.renumber

/-- A thread at the start of its task (Table 4-3). -/
def startThread (k : Task) (b t cells : Nat) : Thread :=
  { Thread.init with
    stat := .ready, pc := k.prog,
    g := Tab.set 0 (Tab.set 0 (Tab.set 0 (Tab.set 0 [] 0 k.args) 1
           (BitVec.ofNat 64 (k.z.toNat * 2 ^ 32 + k.y.toNat * 2 ^ 16 + k.x.toNat))) 2
           (BitVec.ofNat 64 ((k.threads - 1) * 256 + t))) 3 (BitVec.ofNat 64 (regionOf b * 65536 + b * 256 + cells)) }

/-- TASK_START: the threads of a placed task begin (R102): the block store is cleared when the task's PASID is not the last one
(R94), the cells' lane generators start anew (02_formats_and_coats.md R49), and the cell map of R95 takes effect. -/
def execTaskStart (b : Fin 100) (s : State) : Host.Outcome State Fault Refusal :=
  let n := b.val
  let x := s.blk n
  .next (match x.task with
    | none => s
    | some k =>
      if k.started ∨ x.state ≠ .running then s
      else
        let y := x.remap
        let z := (List.range 17).foldl (fun (w : Block) p => w.setCell p { w.cell p with seed := 0, gens := [] }) y
        let s1 := s.setBlk n { z with
          task := some { k with started := true }, bars := [], lastPasid := some k.pasid,
          store := if k.clear then Memory.empty else z.store }
        s1.each (List.range 128) (fun t i =>
          t.setThr n i (if i < k.threads then startThread k n i z.cellsN else Thread.init)))

/-! ### The end of a task (R103, R116; 07_caches_and_coherence.md R183; 06_memory_ordering.md R168) -/

/-- The lines that a block holds in M go back to their homes, and it keeps them in E (07_caches_and_coherence.md R183). -/
def State.cleanBlock (s : State) (b : Nat) : State :=
  s.each (s.bc b).lines (fun t e => match e.2 with
    | some x => if x.modi = 0 then t
                else (t.mergeHome b (lineAt e.1)).setBline b (lineAt e.1) (some { x with modi := 0 })
    | none => t)

/-- The stores of a thread that its task leaves behind go on without it: those that their block cannot perform and has not sent yet go
to their homes, in their order. -/
def State.leaveStores (s : State) (b t : Nat) : State :=
  let s1 := s.kick b t
  let mine := (s1.thr b t).accs.filter (fun a => (a.kind.stores && a.kind.dest.isNone) && !a.performed && !a.homed && a.asked.isNone)
  s1.each mine (fun x a => match lineOfTgt a.tgt, x.reqOf b t a with
    | some (l, _), some c => (x.setBc b { x.bc b with out := (x.bc b).out ++ [{ line := lkey l, req := c }] }).emit (.noc c)
    | _, _ => x)

/-- The owner of a packet once its thread's task has ended. -/
def ghostOwn (s : State) (b : Nat) (kern : Option (Nat × Nat)) (o : Own) : Own :=
  match o with
  | .acc c t id =>
    if c ≠ b then o
    else match (s.thr b t).accs.find? (fun a => a.id == id && a.kind.stores) with
      | some a => .drain [({ b := b, t := t, kern := kern, live := false }, a.va)]
      | none => .reply
  | .look c _ => if c ≠ b then o else .reply
  | .drain ks => .drain (ks.map (fun k => if k.1.b = b then ({ k.1 with live := false }, k.2) else k))
  | _ => o

/-- A block's task leaves the block: its stores go on as stores of an ended task, its reservations and threads go, the kernel
counts it off, and the block is idle, or in SKIM when a lane has reserved it (R103). -/
def State.clearTask (s : State) (b : Nat) : State :=
  let kern := (s.blk b).task.map (fun k => (k.q, k.slot))
  let s0 := s.each (List.range 128) (fun t i => t.leaveStores b i)
  let s1 := s0.setBc b { s0.bc b with out := (s0.bc b).out.map (fun x => { x with kern := x.kern <|> kern }) }
  let own := ghostOwn s1 b kern
  let s2 : State := { s1 with net := { s1.net with qp := s1.net.qp.map (fun e =>
      (e.1, { e.2 with sent := e.2.sent.map (fun x => { x with own := own x.own }),
                       unsent := e.2.unsent.map (fun x => { x with own := own x.own }),
                       waits := e.2.waits.map (fun x => { x with own := own x.own }) })) } }
  let r := regionOf b
  let s3 := s2.setWc r ((s2.wc r).map (fun l => { l with
    who := l.who.map (fun e => (e.1, if e.2.b = b then { e.2 with live := false } else e.2)) }))
  let s4 := s3.each (List.range 128) (fun t i => (t.clearResv b i).setThr b i Thread.init)
  let s5 := match kern with
    | some k => s4.updKernel k.1 k.2 (fun y => { y with blocks := y.blocks.filter (fun c => c != b) })
    | none => s4
  let s6 : State := { s5 with
    xlt := { s5.xlt with refusedPages := s5.xlt.refusedPages.filter (fun x => match x.who with | .thread c _ => c != b | _ => true) },
    blocks := { s5.blocks with ghosts := s5.blocks.ghosts.filter (fun x => x.1 / 128 != b) },
    snag := { s5.snag with waits := s5.snag.waits.map (fun (w : SnagWait) => match w.thread with
      | some (c, _) => if c = b then { w with thread := none, counted := false } else w
      | none => w) } }
  let x := s6.blk b
  let y := (List.range 17).foldl (fun (w : Block) p => if (w.cell p).queue = [] then w else w.setCell p { w.cell p with queue := [] }) x
  s6.setBlk b { y with task := none, bars := [], state := if x.reserved.isSome then .skim else .idle }

/-- A task ends: it leaves its block, whose written lines go home. -/
def State.leaveTask (s : State) (b : Nat) : State := (s.clearTask b).cleanBlock b

/-- Whether every thread of a task has ended. -/
def State.allEnded (s : State) (b : Nat) (k : Task) : Bool :=
  (List.range k.threads).all (fun t => decide ((s.thr b t).stat = .ended) && (s.thr b t).ends.isNone)

/-- TASK_END: the last thread of a task has ended; the block is eligible again (R103). -/
def execTaskEnd (b : Fin 100) (s : State) : Host.Outcome State Fault Refusal :=
  .next (match (s.blk b.val).task with
    | none => s
    | some k => if k.started ∧ (s.blk b.val).state = .running ∧ s.allEnded b.val k then s.leaveTask b.val else s)

/-! ### Kernel abort (R115, R116) -/

/-- A tile store that waits for a page ends at its first unwritten byte, with a record and no suspension (R116, notes/assumptions 62). -/
def State.endSuspended (s : State) (b t : Nat) : State :=
  let th := s.thr b t
  if th.stat ≠ .pageWait ∨ bit th.sts0 43 = false ∨ th.sts2 ≠ th.pc then s
  else match s.xlt.pri.find? (fun r => r.wr && r.waiters.any (fun w => decide (w = .thread b t))) with
    | some r => s.xltRecord (s.pasidOf b) r.addr 1 1 (128 * b + t) b none (leBytes 4 (bits th.sts0 63 44))
    | none => s

/-- Whether an access of a thread that an abort reaches runs to completion: a store or an atomic, a tile store only once it has started
(Table 4-6). -/
def State.runsOn (s : State) (b t : Nat) (a : Acc) : Bool :=
  match a.kind with
  | .tld _ _ _ _ => false
  | .tst _ _ _ _ => a.performed || (match s.storeReady b t with | some y => y.id == a.id | none => false)
  | .ld _ _ | .ldr _ _ | .sig _ => false
  | _ => true

/-- KERNEL_ABORT: an abort reaches a block that runs a task of the kernel (Table 4-6): issue stops, cell and tile-loader
instructions that have not started are discarded, tile loads in flight write nothing, and the buffered stores start to
drain. The oldest instruction of a cell has started when nothing holds it. -/
def State.abortBlock (s : State) (b : Nat) : State :=
  let s0 := s.each (List.range 128) (fun t i => t.endSuspended b i)
  let on := s0.runsOn b
  let x := s0.blk b
  let y := (List.range 17).foldl (fun (w : Block) p =>
    let c := w.cell p
    let q := match c.oldest with | some e => if c.blocked e then [] else [e] | none => []
    if decide (c.queue = q) then w else w.setCell p { c with queue := q }) x
  let s1 := s0.setBlk b { y with state := .aborting, bars := [] }
  let s2 := s1.each (List.range 128) (fun t i =>
    let th := t.thr b i
    let u := t.clearResv b i
    if th.stat = .off then t
    else u.setThr b i { (u.thr b i) with
      stat := .ended, ends := none, sem := none, deferred := [], fences := [], accs := th.accs.filter (on i) })
  s2.each (List.range 128) (fun t i => t.drainThread b i)

/-- KERNEL_ABORT: the abort of its kernel arrives at a block (R115, R116). -/
def execKernelAbort (b : Fin 100) (s : State) : Host.Outcome State Fault Refusal :=
  .next (match (s.blk b.val).task with
    | none => s
    | some k => match s.kernel k.q k.slot with
      | some y => if y.aborted ∧ (s.blk b.val).state ≠ .aborting then s.abortBlock b.val else s
      | none => s)

/-- Whether stores of a block's running task still lie in write-combining buffers, or are on their way to a home or to another device. -/
def State.stillDrains (s : State) (b : Nat) : Bool :=
  (List.range 128).any (fun t => s.bufferedBy b t ||
    (s.thr b t).accs.any (fun a => (a.kind.stores || a.kind.isAmo) && !a.performed))

/-- KERNEL_ABORT_DONE: the started cell instructions are complete and the stores have drained: the aborted task ends (the last
row of Table 4-6). -/
def execKernelAbortDone (b : Fin 100) (s : State) : Host.Outcome State Fault Refusal :=
  let x := s.blk b.val
  .next (if x.state ≠ .aborting ∨ x.task.isNone ∨ (List.range 17).any (fun p => !(x.cell p).queue.isEmpty) then s
    else
      let s1 := ((s.kickBlock b.val).flush b.val).each (List.range 128) (fun t i => t.drainThread b.val i)
      if s1.stillDrains b.val then s1 else s1.leaveTask b.val)

/-- KLAUNCH_TLIMIT_EXPIRY: the time limit of a kernel has passed: the kernel is aborted and completes with TIMEOUT (R115). -/
def execKlaunchTlimitExpiry (q : Fin 1024) (slot : W16) (s : State) : Host.Outcome State Fault Refusal :=
  .next (match s.kernel q.val slot.toNat with
    | none => s
    | some k => if k.tlimit = 0 then s else s.abortKernel q.val slot.toNat 6 0)

end Sys2Proof.Machine
end

