-- ==== Sys2Proof/Machine/Cohere.lean ====
section
/-! DEFINITION. The coherence messages as they arrive: requests at a home, snoops at a block, responses and data, the host's
requests, snoops and answers, and other devices' accesses at their home (07_caches_and_coherence.md R182 to R198;
01_architecture.md R27). -/
namespace Sys2Proof.Machine

/-! ### Requests at a home (Table 7-5) -/

/-- RDSHARED: a load's request arrives at its home (R188). -/
def execRdshared (b : Fin 100) (l : LineId) (secs : BitVec 4) (s : State) : Host.Outcome State Fault Refusal :=
  .next (s.toHome (.rdshared b l secs))

/-- RDOWN: a near atomic's request arrives at its home (R188). -/
def execRdown (b : Fin 100) (l : LineId) (secs : BitVec 4) (s : State) : Host.Outcome State Fault Refusal :=
  .next (s.toHome (.rdown b l secs))

/-- RDCURR: a non-caching read arrives at its home (R23, R188). -/
def execRdcurr (a : Agent) (l : LineId) (secs : BitVec 4) (s : State) : Host.Outcome State Fault Refusal :=
  .next (s.toHome (.rdcurr a l secs))

/-- WRLINE: a store's request arrives at its home (R188). -/
def execWrline (b : Fin 100) (l : LineId) (mask : LineMask) (data : Line) (s : State) : Host.Outcome State Fault Refusal :=
  .next (s.toHome (.wrline b l mask data))

/-- WRCOND: a conditional store's request arrives at its home (R188). -/
def execWrcond (t : Th) (l : LineId) (mask : LineMask) (data : Line) (s : State) : Host.Outcome State Fault Refusal :=
  .next (s.toHome (.wrcond t l mask data))

/-- WRPART: a drain of a write-combining line arrives at its home (R188, R194). -/
def execWrpart (r : Fin 5) (l : LineId) (mask : LineMask) (data : Line) (s : State) : Host.Outcome State Fault Refusal :=
  .next (s.toHome (.wrpart r l mask data))

/-- ZERO: a zero request arrives at its home (R198). -/
def execZero (b : Fin 100) (l : LineId) (s : State) : Host.Outcome State Fault Refusal := .next (s.toHome (.zero b l))

/-- ATOM: a far atomic arrives at its home (R188, R192). -/
def execAtom (t : Th) (l : LineId) (off : Byte) (op : BitVec 4) (wide : Bool) (a c : W64) (s : State) : Host.Outcome State Fault Refusal :=
  .next (s.toHome (.atom t l off op wide a c))

/-- WBLINE: a block's write-back arrives at the home, which performs it at once: the directory lets the block go when OWN still
names it, and WbAck answers (R187, R188). -/
def execWbline (b : Fin 100) (l : LineId) (s : State) : Host.Outcome State Fault Refusal :=
  .next (match s.home l with
    | none => s
    | some r =>
      if !((s.bc b.val).wb.any (fun x => x.1 == lkey l)) then s
      else
        let s1 := match s.rline r l with
          | some e => if e.own = some b.val then s.setRline r l (some { e with own := none, pres := e.pres &&& ~~~(presBits l 15 b.val) }) else s
          | none => s
        s1.emit (.noc (.wback b l)))

/-- WBACK: a write-back is acknowledged, and its buffer entry is free (R189). -/
def execWback (b : Fin 100) (l : LineId) (s : State) : Host.Outcome State Fault Refusal :=
  let c := s.bc b.val
  .next (s.setBc b.val { c with wb := c.wb.eraseP (fun x => x.1 == lkey l) })

/-! ### Snoops at a block (R170, R182) -/

/-- SNPINV: a block gives up its copy (R182). -/
def execSnpinv (b : Fin 100) (l : LineId) (s : State) : Host.Outcome State Fault Refusal := .next (s.snoop b.val l (.snpinv b l))

/-- SNPFWD: the F holder sends its data to a reader (R182). -/
def execSnpfwd (b : Fin 100) (l : LineId) (dst : Fin 100) (s : State) : Host.Outcome State Fault Refusal :=
  .next (s.snoop b.val l (.snpfwd b l dst))

/-- RECALL: the owner returns the line, and keeps a shared copy when toS is true (R189, R191). -/
def execRecall (b : Fin 100) (l : LineId) (toS : Bool) (s : State) : Host.Outcome State Fault Refusal :=
  .next (s.snoop b.val l (.recall b l toS))

/-- SNPCUR: the owner sends its current data and keeps the line (R188). -/
def execSnpcur (b : Fin 100) (l : LineId) (s : State) : Host.Outcome State Fault Refusal := .next (s.snoop b.val l (.snpcur b l))

/-! ### The host's snoops (R195) -/

/-- A host sector's answer once the blocks have given theirs: from the region cache's state at that moment (R195). -/
def State.answerHost (s : State) (r : Nat) (c : Instr) (hpa : Nat) : State :=
  let l := lineFor true hpa
  let k := hpa % 256 / 64
  let sec : BitVec 4 := 1#4 <<< k
  let e := s.rline r l
  let has := match e with | some x => x.valid.getLsbD k | none => false
  let dirty := match e with | some x => x.dirty.getLsbD k | none => false
  let now := s.lineNow l
  let d := sectorOf now.1 k
  let back : State → State := fun t => if dirty then t.setBacking true (t.hpt.mem.putLine l.line.toNat (secMask sec) now.1 now.2) else t
  let upd : (RLine → RLine) → State → State := fun f t => match e with | some x => t.setRline r l (some (f x)) | none => t
  match c with
  | .hostSnpinv _ =>
    let t := ((back s).dropCopies l sec none).breakResv l sec none
    let t1 := upd (fun x => { x with
      valid := x.valid &&& ~~~sec, excl := x.excl &&& ~~~sec, dirty := x.dirty &&& ~~~sec,
      pois := x.pois &&& ~~~sec, pres := x.pres &&& ~~~(BitVec.ofNat 400 ((2 ^ 100 - 1) * 2 ^ (100 * k))), own := none }) t
    t1.emit (.d2h (if dirty then .rspIFwdM else if has then .rspIHitSE else .rspIHitI) hpa 0 (if dirty then d else 0))
  | .hostSnpdata _ =>
    let t := upd (fun x => { x with excl := x.excl &&& ~~~sec, dirty := x.dirty &&& ~~~sec, own := none }) (back s)
    t.emit (.d2h (if dirty then .rspSFwdM else if has then .rspSHitSE else .rspIHitI) hpa 0 (if dirty then d else 0))
  | _ => (back s).emit (.d2h (if dirty then .rspVFwdV else if has then .rspVHitV else .rspIHitI) hpa 0 (if dirty then d else 0))

/-- The host's snoops of a line that wait for no block any more are answered. -/
def State.answerReady (s : State) (r : Nat) : State :=
  let ready := (s.rc r).hsnp.filter (fun x => x.waits.isEmpty)
  let s1 := s.setRc r { s.rc r with hsnp := (s.rc r).hsnp.filter (fun x => !x.waits.isEmpty) }
  s1.each ready (fun t x => match x.req with
    | .msg (.hostSnpinv a) => t.answerHost r (.hostSnpinv a) a.toNat
    | .msg (.hostSnpdata a) => t.answerHost r (.hostSnpdata a) a.toNat
    | .msg (.hostSnpcur a) => t.answerHost r (.hostSnpcur a) a.toNat
    | _ => t)

/-- A sector of host memory that the eviction buffer of a region cache holds (R189): of any, since the share of one that has left service
moves (R179). -/
def State.evicted (s : State) (hpa : Nat) : Option (Nat × Nat × BitVec 512) :=
  (List.range 5).findSome? (fun r => ((s.rc r).evict.find? (fun x => x.1 / 64 == hpa / 64)).map (fun x => (r, x)))

/-- A snoop of the host reaches the region cache that holds its sector (R179, R189, R195): a sector that waits for the host's own
answer is in I, one in the eviction buffer is answered from there, and the blocks that hold the sector are asked first. -/
def State.hostSnoop (s : State) (c : Instr) (hpa : Nat) : State :=
  let l := lineFor true hpa
  let k := hpa % 256 / 64
  match s.home l with
  | none => s.emit (.d2h .rspIHitI hpa 0 0)
  | some r =>
    let awaiting := match s.txn r l with | some x => x.waits.any (fun w => w == Expect.go k) | none => false
    if awaiting then s.emit (.d2h .rspIHitI hpa 0 0)
    else match s.evicted hpa with
      | some (_, x) => s.emit (.d2h .rspIFwdM hpa 0 x.2)
      | none =>
        match s.rline r l with
        | none => s.answerHost r c hpa
        | some e =>
          let has : List Nat := (List.range 100).filter (fun b => e.pres.getLsbD (100 * k + b) && e.own != some b)
          let own : List Nat := e.own.toList
          let inval := match c with | .hostSnpinv _ => true | _ => false
          let waits : List Expect := (if inval then has.map .inv else []) ++ own.map .recall
          let msgs : List Emit := (if inval then has.map (fun b => .noc (.snpinv (Fin.ofNat 100 b) l)) else []) ++
            own.map (fun b => .noc (.recall (Fin.ofNat 100 b) l (!inval)))
          let x : Txn := { line := lkey l, req := .msg c, waits := waits, asked := false, served := false, fwdData := none, queued := [] }
          ((s.setRc r { s.rc r with hsnp := (s.rc r).hsnp ++ [x] }).emits msgs).answerReady r

/-- HOST_SNPINV: the host takes a sector of its memory away (R195). -/
def execHostSnpinv (hpa : W64) (s : State) : Host.Outcome State Fault Refusal := .next (s.hostSnoop (.hostSnpinv hpa) hpa.toNat)

/-- HOST_SNPDATA: the host asks for a sector to be shared (R195). -/
def execHostSnpdata (hpa : W64) (s : State) : Host.Outcome State Fault Refusal := .next (s.hostSnoop (.hostSnpdata hpa) hpa.toNat)

/-- HOST_SNPCUR: the host asks for the current data of a sector (R195). -/
def execHostSnpcur (hpa : W64) (s : State) : Host.Outcome State Fault Refusal := .next (s.hostSnoop (.hostSnpcur hpa) hpa.toNat)

/-! ### Responses (R187) -/

/-- A block's response reaches what waits for it: the line's transaction, or a snoop of the host. -/
def State.blockResp (s : State) (l : LineId) (e : Expect) : State :=
  match s.home l with
  | none => s
  | some r =>
    match s.txn r l with
    | some x => if x.waits.any (fun w => decide (w = e)) then s.gotResp l e
      else (s.setRc r { s.rc r with hsnp := updWhere (fun (y : Txn) => y.line == lkey l) (fun y => { y with waits := y.waits.erase e }) (s.rc r).hsnp }).answerReady r
    | none =>
      (s.setRc r { s.rc r with hsnp := updWhere (fun (y : Txn) => y.line == lkey l) (fun y => { y with waits := y.waits.erase e }) (s.rc r).hsnp }).answerReady r

/-- INVACK: a block has given up its copy (R187). -/
def execInvack (b : Fin 100) (l : LineId) (s : State) : Host.Outcome State Fault Refusal := .next (s.blockResp l (.inv b.val))

/-- A home reads a line from its stack after its F holder had dropped its copy (R182). -/
def State.readInstead (s : State) (r b : Nat) (l : LineId) : State :=
  let s1 := match s.rline r l with
    | some e => s.setRline r l (some { e with fwdr := none, pres := e.pres &&& ~~~(presBits l 15 b) })
    | none => s
  match s1.txn r l, s1.place (l.line.toNat * 256) with
  | some x, some p =>
    let y := s1.stackSend p.port (.rd256 l.line.toNat)
    let s2 := y.2.setTxn r l { x with waits := x.waits.map (fun w => if w = .fwd b then .stack p.port y.1 else w) }
    s2.go r l
  | _, _ => s1.gotResp l (.fwd b)

/-- RSPMISS: a snooped block held no copy: the home goes on as if it had answered from an invalid one (R182). -/
def execRspmiss (b : Fin 100) (l : LineId) (s : State) : Host.Outcome State Fault Refusal :=
  let n := b.val
  .next (match s.home l with
    | none => s
    | some r =>
      let waits : Expect → Bool := fun e => match s.txn r l with | some x => x.waits.any (fun w => decide (w = e)) | none => false
      if waits (.fwd n) then s.readInstead r n l
      else
        let s1 := match s.rline r l with
          | some e => if e.own = some n then s.setRline r l (some { e with own := none, pres := e.pres &&& ~~~(presBits l 15 n) }) else s
          | none => s
        if waits (.inv n) then s1.blockResp l (.inv n)
        else if waits (.recall n) then s1.blockResp l (.recall n)
        else if waits (.cur n) then s1.blockResp l (.cur n)
        else ((s1.blockResp l (.inv n)).blockResp l (.recall n)).blockResp l (.cur n))

/-- RSPPOISON: the port of a dead block answers a recall of a line that the block had written: the home poisons all of it and
counts it (R204, Table 7-8). -/
def execRsppoison (b : Fin 100) (l : LineId) (s : State) : Host.Outcome State Fault Refusal :=
  let n := b.val
  .next (match s.home l, s.bline n l with
    | some r, some x =>
      if x.modi = 0 ∨ s.blockDust n = false then s
      else
        let s1 := (s.setBline n l none).poisonLine r l (if l.host then x.modi else 15) (!l.host)
        let s2 := match s1.rline r l with
          | some e => s1.setRline r l (some { e with own := if e.own = some n then none else e.own, pres := e.pres &&& ~~~(presBits l 15 n) })
          | none => s1
        s2.blockResp l (.recall n)
    | _, _ => s)

/-- A request of a block leaves its list. -/
def State.dropReq (s : State) (b : Nat) (c : Instr) : State :=
  let x := s.bc b
  s.setBc b { x with out := x.out.eraseP (fun y => y.req == c) }

/-- Whether a home has served a request and waits for its block's CmpAck. -/
def State.awaitsAck (s : State) (l : LineId) (b : Nat) (c : Instr) : Bool :=
  match s.home l with
  | none => false
  | some r => match s.txn r l with
    | some x => x.served && x.waits.any (fun w => w == .ack b) && decide (x.req = .msg c)
    | none => false

/-- CmpAck goes back for an answer that a block no longer waits for, as it has lost its power or been placed under a dust sheet since
it asked, where the home waits for it. -/
def State.ackFor (s : State) (b : Fin 100) (l : LineId) : State :=
  match s.home l with
  | none => s
  | some r => match s.txn r l with
    | some x => if x.served && x.waits.any (fun w => w == .ack b.val) && !((s.bc b.val).out.any (fun y => HReq.msg y.req == x.req))
        then s.emit (.noc (.cmpack b l)) else s
    | none => s

/-- The request of a block that data for a line answers: one that its home has served and waits for, or the oldest non-caching read
whose load has read the line there. -/
def State.dataFor (s : State) (b : Nat) (l : LineId) : Option Instr :=
  ((s.bc b).out.find? (fun x => x.line == lkey l && (match x.req with
    | .rdshared _ _ _ | .rdown _ _ _ => s.awaitsAck l b x.req
    | .rdcurr _ _ _ => (List.range 128).any (fun t => (s.thr b t).accs.any (fun a => a.asked == some x.req && a.homed && !a.performed))
    | _ => false))).map (fun x => x.req)

/-- The accesses of a block that a request carried go on as its answer comes: those that have taken effect at the home are performed,
those that the block can now perform are, and the others ask again. -/
def State.landAll (s : State) (b : Nat) (c : Instr) : State :=
  let mine : List (Nat × Nat) := (List.range 128).flatMap (fun t =>
    ((s.thr b t).accs.filter (fun a => a.asked == some c && !a.performed)).map (fun a => (t, a.id)))
  s.each mine (fun u x => match (u.thr b x.1).accs.find? (fun a => a.id == x.2) with
    | none => u
    | some a =>
      if a.homed then u.updAcc b x.1 x.2 (fun y => { y with performed := true })
      else match u.hit b x.1 a with
        | some v => v
        | none => u.updAcc b x.1 x.2 (fun y => { y with asked := none }))

/-- Data reaches a block that asked for a line (R187): where the home's tag records the block, the sectors that it asked for are
installed in the state that the home gave (R177), the loads and near atomics that wait for them take effect, and CmpAck goes
back; a non-caching read leaves no copy. While the write-back buffer has no room for the line's victim the data waits. -/
def State.arriveData (s : State) (b : Nat) (l : LineId) : State :=
  match s.dataFor b l with
  | none => s.ackFor (Fin.ofNat 100 b) l
  | some c =>
    let put : BitVec 4 → Bool → State := fun secs own =>
      let tag := (s.home l).bind (fun r => s.rline r l)
      let recorded : Bool := match tag with | some e => e.pres &&& presBits l secs b != 0 || e.own == some b | none => false
      let fwd : Bool := match tag with | some e => e.dirOnly && e.fwdr == some b | none => false
      if recorded && s.canHold b l then s.install b l secs own fwd else s
    let ack : State → State := fun u => (((u.landAll b c).dropReq b c).emit (.noc (.cmpack (Fin.ofNat 100 b) l))).kickBlock b
    match c with
    | .rdshared _ _ k => if s.wbFull b l then s.emit (.noc (.data (Fin.ofNat 100 b) l)) else ack (put k false)
    | .rdown _ _ k => if s.wbFull b l then s.emit (.noc (.data (Fin.ofNat 100 b) l)) else ack (put k true)
    | _ => ((s.landAll b c).dropReq b c).kickBlock b

/-- DATA: a home's data arrives at the block that asked for it (R187). -/
def execData (b : Fin 100) (l : LineId) (s : State) : Host.Outcome State Fault Refusal := .next (s.arriveData b.val l)

/-- FWDDATA: the F holder's data arrives at the reader, whose read is then served (R188). -/
def execFwddata (b : Fin 100) (l : LineId) (s : State) : Host.Outcome State Fault Refusal :=
  .next (match s.home l with
    | none => s
    | some r => match s.txn r l with
      | none => s
      | some x =>
        match x.waits.find? (fun w => match w with | .fwd _ => true | _ => false), x.req with
        | some w, .msg (.rdshared c _ _) =>
          if c ≠ b then s
          else ((s.setTxn r l { x with fwdData := some (s.lineNow l).1 }).gotResp l w).arriveData b.val l
        | _, _ => s)

/-- RECALLDATA: an owner's data arrives at the home (R189). -/
def execRecalldata (b : Fin 100) (l : LineId) (s : State) : Host.Outcome State Fault Refusal :=
  let n := b.val
  .next (match s.home l with
    | none => s
    | some r =>
      let waits : Expect → Bool := fun e => match s.txn r l with | some x => x.waits.any (fun w => decide (w = e)) | none => false
      if waits (.recall n) then s.blockResp l (.recall n)
      else if waits (.cur n) then s.blockResp l (.cur n)
      else (s.blockResp l (.recall n)).blockResp l (.cur n))

/-- A block's copy of a line takes what the home holds of its sectors, but for those that it has written (R177). -/
def State.refresh (s : State) (b : Nat) (l : LineId) : State :=
  match s.bline b l with
  | none => s
  | some x =>
    let now := s.lineNow l
    let secs := x.valid &&& ~~~x.modi
    s.setBline b l (some { x with data := lineMerge x.data now.1 (secMask secs), pois := (x.pois &&& ~~~secs) ||| (now.2 &&& secs) })

/-- CMP: a home tells a block that its write, zero, conditional store or atomic is performed; CmpAck goes back once the
block's copy is updated (R177, R187). -/
def execCmp (b : Fin 100) (l : LineId) (s : State) : Host.Outcome State Fault Refusal :=
  let isWrite : Instr → Bool := fun c => match c with
    | .wrline _ _ _ _ | .zero _ _ | .wrcond _ _ _ _ | .atom _ _ _ _ _ _ _ => true
    | _ => false
  .next (match (s.bc b.val).out.find? (fun x => x.line == lkey l && isWrite x.req && s.awaitsAck l b.val x.req) with
    | none => s.ackFor b l
    | some x => ((((s.refresh b.val l).landAll b.val x.req).dropReq b.val x.req).emit (.noc (.cmpack b l))).kickBlock b.val)

/-- CMPFAIL: a conditional store failed at the home: its STC writes nothing and gives 1 (R188). -/
def execCmpfail (t : Th) (l : LineId) (s : State) : Host.Outcome State Fault Refusal :=
  let b := t.blk.val
  let n := t.thr.val
  let isCond : Instr → Bool := fun c => match c with | .wrcond u _ _ _ => decide (u = t) | _ => false
  .next (match (s.bc b).out.find? (fun x => x.line == lkey l && isCond x.req) with
    | none => s
    | some x =>
      if (s.thr b n).resv.isSome ∨ s.awaitsAck l b x.req then s
      else
        let s1 := s.dropReq b x.req
        let th := s1.thr b n
        let failed := updWhere (fun (a : Acc) => a.asked == some x.req && !a.performed && !a.homed) (fun a => { a with res := 1, performed := true }) th.accs
        let s2 := s1.setThr b n { th with accs := failed }
        s2.kickBlock b)

/-- CMPACK: the requester has installed the data or merged its store; the line unblocks (R187). -/
def execCmpack (b : Fin 100) (l : LineId) (s : State) : Host.Outcome State Fault Refusal := .next (s.gotResp l (.ack b.val))

/-! ### The host's CXL.mem requests (R196, R206; 09_host_port.md R243, R245) -/

/-- Whether the device serves host accesses to its memory: memory is active, the host is not lost, CXL is not withheld, and no
committed decoder lost BI Enable since its commit. -/
def State.memServed (s : State) : Bool :=
  s.hpt.memActive && !s.hpt.hostLost && !(bit s.hpt.link 0) &&
    (List.range 4).all (fun n => !((s.hdm n).committed && (s.hdm n).stale))

/-- The device offset that a host access reaches, when it is served and its memory stands. -/
def State.hostTarget (s : State) (hpa : W64) : Option Nat :=
  match s.hdmOff hpa.toNat with
  | none => none
  | some o => if s.memServed && (s.place o).isSome && (s.deadDev o).isNone then some o else none

/-- HOST_MEMRD: a host read of device memory (R196); a refused one returns poisoned data (R206, 09_host_port.md R243, R245). -/
def execHostMemrd (hpa : W64) (m : HostMeta) (s : State) : Host.Outcome State Fault Refusal :=
  .next (match s.hostTarget hpa with
    | none => s.emit (.memData hpa 0 true)
    | some _ => s.toHome (.hostMemrd hpa m))

/-- HOST_MEMWR: a host write of device memory (R185, R187, R189); a refused one, or one in salvage mode, is discarded. -/
def execHostMemwr (hpa mask : W64) (data : BitVec 512) (m : HostMeta) (s : State) : Host.Outcome State Fault Refusal :=
  .next (match s.hostTarget hpa with
    | none => s.emit (.memCmp hpa)
    | some _ => if s.flt.readonly then s.emit (.memCmp hpa) else s.toHome (.hostMemwr hpa mask data m))

/-- BIRSP: the host answers a back-invalidate snoop; one that is not outstanding is discarded (R196, R197). -/
def execBirsp (l : LineId) (st : BiState) (s : State) : Host.Outcome State Fault Refusal :=
  .next (match s.home l with
    | none => s
    | some r =>
      if !((s.rc r).bi.any (fun k => k == lkey l)) then s
      else
        let s1 := s.setRc r { s.rc r with bi := (s.rc r).bi.erase (lkey l) }
        ((s1.setHold r l (match st with | .i => 0 | .s => 1)).gotResp l .host).retrySlots r)

/-- BI_SNOOP_TIMEOUT: a back-invalidate snoop has waited 10 ms: the line is treated as a dead host's (R197). -/
def execBiSnoopTimeout (l : LineId) (s : State) : Host.Outcome State Fault Refusal :=
  .next (match s.home l with
    | none => s
    | some r =>
      if !((s.rc r).bi.any (fun k => k == lkey l)) then s
      else
        let held := match s.rline r l with | some e => e.hst | none => 0
        let s1 := s.setRc r { s.rc r with bi := (s.rc r).bi.erase (lkey l) }
        let s2 := if held.toNat = 2 then s1.poisonLine r l 15 true else s1
        let s3 : State := { s2 with hpt := { s2.hpt with rasUnc := s2.hpt.rasUnc ||| 1 } }
        (((s3.setHold r l 0).report 5 2 2 (BitVec.ofNat 64 (l.line.toNat * 256))).gotResp l .host).retrySlots r)

/-! ### The host's answers to CXL.cache requests (R189, R194, R195) -/

/-- Whether what a transaction waits for from the host brings no data: the sector is zeroed, or the device's bytes go to the host
(Table 7-7). -/
def State.goBlind (s : State) (r : Nat) (l : LineId) (x : Txn) : Bool :=
  match x.req with
  | .msg (.zero _ _) => true
  | .msg (.wrpart _ _ _ _) => true
  | q => x.served || (q.bytes.isSome && (s.rline r l).isNone)

/-- Whether the answer that a transaction waits for from the host leaves nothing in the region cache: its read takes no copy, or the
sector is not granted (R194). -/
def goOnce (x : Txn) (st : GoState) : Bool :=
  (match x.req with | .msg (.rdcurr _ _ _) => true | .eng _ _ wr => !wr | _ => false) || decide (st = .i) || decide (st = .err)

/-- HOST_GO: the host's global observation of a request of the device, with data for a read: the sector is held as granted, or
its data is used once when the grant is I; an error gives poisoned data. -/
def execHostGo (hpa : W64) (st : GoState) (data : BitVec 512) (s : State) : Host.Outcome State Fault Refusal :=
  let h := hpa.toNat
  let l := lineFor true h
  let k := h % 256 / 64
  let sec : BitVec 4 := 1#4 <<< k
  .next (match s.home l with
    | none => s
    | some r => match s.txn r l with
      | none => s
      | some x =>
        if s.hpt.hostLost || !(x.waits.any (fun w => w == Expect.go k)) then s
        else
          let blind := s.goBlind r l x
          let zeroing : Bool := match x.req with | .msg (.zero _ _) => (s.rline r l).isSome | _ => false
          let d : Line := if zeroing then 0 else data.setWidth 2048 <<< (512 * k)
          let s1 := if blind then s
            else s.setBacking true (s.hpt.mem.putLine l.line.toNat (secMask sec) d (if st = .err then sec else 0))
          let s2 := if goOnce x st || (blind && !zeroing) then s1
            else match s1.rline r l with
              | none => s1
              | some e => s1.setRline r l (some { e with
                  data := lineMerge e.data d (secMask sec), valid := e.valid ||| sec,
                  excl := if st = .e ∨ st = .m then e.excl ||| sec else e.excl,
                  dirty := if st = .m then e.dirty ||| sec else e.dirty, pois := e.pois &&& ~~~sec })
          s2.gotResp l (Expect.go k))

/-- A write that goes through to host memory, or the eviction of a dirty sector, is pulled by the host: the data goes out and the
write is performed. -/
def State.pulled (s : State) (hpa : Nat) (drop : Bool) : State :=
  let l := lineFor true hpa
  let k := hpa % 256 / 64
  match s.evicted hpa with
  | some (r, x) =>
    let s1 := s.setRc r { s.rc r with evict := (s.rc r).evict.erase x }
    if drop then s1 else s1.emit (.d2h .pull hpa (BitVec.allOnes 64) x.2)
  | none =>
    match s.home l with
    | none => s
    | some r =>
      match s.txn r l with
      | some x =>
        if !(x.waits.any (fun w => w == Expect.go k)) then s
        else
          let img : Option (LineMask × Line) := match x.req with
            | .msg (.atom _ _ off _ wide _ _) => if x.served then some (maskOf off.toNat (if wide then 8 else 4), (s.lineNow l).1) else none
            | q => if s.goBlind r l x then q.bytes else none
          match img with
          | some (m, d) =>
            let out := if drop then s else s.emit (.d2h .pull hpa (BitVec.ofNat 64 (bits m (64 * k + 63) (64 * k))) (sectorOf d k))
            out.gotResp l (Expect.go k)
          | none => s
      | none => s

/-- GO_WRITEPULL: the host pulls the data of a write or an eviction (R189). -/
def execGoWritepull (hpa : W64) (s : State) : Host.Outcome State Fault Refusal := .next (s.pulled hpa.toNat false)

/-- GO_WRITEPULLDROP: the host needs no data of an eviction, and the buffer is released (R189). -/
def execGoWritepulldrop (hpa : W64) (s : State) : Host.Outcome State Fault Refusal := .next (s.pulled hpa.toNat true)

/-! ### Accesses of other devices at their home (01_architecture.md R27) -/

/-- REMOTE_READ: a read of another device is performed at its home; poisoned data answers with an error (R206). While another agent
must first give way, the command comes again (notes/assumptions 59). -/
def execRemoteRead (dev : W16) (off : W64) (len : Nat) (s : State) : Host.Outcome State Fault Refusal :=
  let o := off.toNat
  let n := Nat.min len 4096
  .next (if (s.place o).isNone ∨ (s.place (o + (n - 1))).isNone then s.emit (.remoteNo dev 2)
    else if (s.deadDev o).isSome then s.emit (.remoteNo dev 3)
    else
      let ls := secsOf false o n
      let a := s.atHomes (.remoteRead dev off len) ls false
      if a.1 = false then a.2
      else
        let t := a.2
        (if t.cohBad false o n then t.emit (.remoteNo dev 3) else t.emit (.remoteData dev (t.cohRead false o n) false)).releaseLines
          (.remoteRead dev off len) ls)

/-- REMOTE_WRITE: a write of another device is performed at its home, once its holders have given way. -/
def execRemoteWrite (dev : W16) (off : W64) (bytes : List Byte) (s : State) : Host.Outcome State Fault Refusal :=
  let o := off.toNat
  .next (if (s.place o).isNone ∨ (s.place (o + (bytes.length - 1))).isNone then s.emit (.remoteNo dev 2)
    else if (s.deadDev o).isSome then s.emit (.remoteNo dev 3)
    else
      let ls := secsOf false o bytes.length
      let a := s.atHomes (.remoteWrite dev off bytes) ls true
      if a.1 = false then a.2
      else ((a.2.lineWrite false o bytes (fun _ => 0)).emit (.remoteOk dev)).releaseLines (.remoteWrite dev off bytes) ls)

/-- An atomic of another device on this device's memory, whose line nobody else holds: the old value and the state
(12_umakin_transport.md R331). -/
def State.farAtomic (s : State) (o op : Nat) (wide : Bool) (a c : W64) : W64 × State :=
  let n := if wide then 8 else 4
  let old := BitVec.ofNat 64 (leVal (s.cohRead false o n))
  (old, s.lineWrite false o (leBytes n (amoNew op wide old a c).1.toNat) (fun _ => 0))

/-- REMOTE_ATOMIC: an atomic of another device is performed once at its home, and the old value goes back. -/
def execRemoteAtomic (dev : W16) (off : W64) (op : BitVec 4) (wide : Bool) (a c : W64) (s : State) : Host.Outcome State Fault Refusal :=
  let o := off.toNat
  let n := if wide then 8 else 4
  .next (if (s.place o).isNone then s.emit (.remoteNo dev 2)
    else if (s.deadDev o).isSome then s.emit (.remoteNo dev 3)
    else
      let ls := secsOf false o n
      let h := s.atHomes (.remoteAtomic dev off op wide a c) ls true
      if h.1 = false then h.2
      else
        let t := h.2
        let u := if t.cohBad false o n then t.emit (.remoteNo dev 3)
          else
            let x := t.farAtomic o op.toNat wide a c
            x.2.emit (.remoteOld dev x.1)
        u.releaseLines (.remoteAtomic dev off op wide a c) ls)

end Sys2Proof.Machine
end

