-- ==== Sys2Proof/Machine/Caches.lean ====
section
/-! DEFINITION. The walks of the caches: modes, way disabling, flushes, and the reclamation of a dead agent's lines
(07_caches_and_coherence.md R199 to R206). -/
namespace Sys2Proof.Machine

/-! ### Writing back and invalidating -/

/-- The BAR0 offset of a region's window. -/
def regionWin (r off : Nat) : Nat := 0x1000000 + r * 0x400000 + off

/-- A device line's dirty sectors are written to its stack, and stay valid and clean (R201; 11_queues_and_copy.md R299). -/
def State.writeClean (s : State) (r : Nat) (l : LineId) : State :=
  match s.rline r l with
  | none => s
  | some e =>
    if l.host || e.dirty == 0 then s
    else (s.setRline r l (some { e with dirty := 0 })).toStack l (secMask e.dirty) e.data e.pois

/-- A line that a block owns is taken back and written back once the owner has answered, behind what blocks the line; one that no
block owns is written back at once (R201; 11_queues_and_copy.md R299). -/
def State.recallClean (s : State) (r : Nat) (l : LineId) : State :=
  match s.rline r l with
  | none => s
  | some e => match e.own with
    | none => s.writeClean r l
    | some _ => match s.txn r l with
      | some x => s.setTxn r l { x with queued := x.queued ++ [.clean] }
      | none => s.startReq r l .clean []

/-- A line's owners give it up at once, and what it then holds dirty is written back: the walk that a reset, or the fallback
sequencer, makes before anything else goes on (Table 7-9). -/
def State.cleanNow (s : State) (r : Nat) (l : LineId) : State :=
  let s1 := (s.owners l).foldl (fun t b => t.takeBack b l false) s
  match s1.rline r l with
  | none => s1
  | some e => (s1.setRline r l (some { e with own := none })).writeClean r l

/-- Whether a host line holds something that the host has not: a dirty sector, or one that a block has taken. -/
def RLine.ahead (e : RLine) : Bool := e.host && (e.dirty != 0 || e.own.isSome)

/-- Every dirty line of a region cache is written back: device lines stay, host lines that hold dirty sectors go with DirtyEvict; with
pull, block owners are recalled too. -/
def State.cleanRegion (s : State) (r : Nat) (pull : Bool) : State :=
  s.each (s.rc r).lines (fun t k => match k.2 with
    | some e =>
      if e.host then (if e.dirty != 0 || (pull && e.own.isSome) then t.giveUp r (lineAt k.1) else t)
      else if pull then t.recallClean r (lineAt k.1) else t.writeClean r (lineAt k.1)
    | none => t)

/-- Every dirty line of a region cache, and what its blocks hold of its lines in M, is written back before anything else goes on
(Table 7-9). -/
def State.cleanRegionNow (s : State) (r : Nat) : State :=
  s.each (s.rc r).lines (fun t k => match k.2 with
    | some e => if e.host then (if e.ahead then t.dropNow r (lineAt k.1) else t) else t.cleanNow r (lineAt k.1)
    | none => t)

/-- Every tag of a region cache leaves it. -/
def State.emptyRegion (s : State) (r : Nat) : State := s.each (s.rc r).lines (fun t k => t.giveUp r (lineAt k.1))

/-- Every tag of a region cache leaves it before anything else goes on. -/
def State.emptyRegionNow (s : State) (r : Nat) : State := s.each (s.rc r).lines (fun t k => t.dropNow r (lineAt k.1))

/-- Every host sector leaves a region cache, dirty ones with DirtyEvict, once block copies are recalled (09_host_port.md R247). -/
def State.dropHost (s : State) (r : Nat) : State :=
  s.each (s.rc r).lines (fun t k => match k.2 with
    | some e => if e.host then t.giveUp r (lineAt k.1) else t
    | none => t)

/-- Host tags beyond the ways open to them leave their sets (R201). -/
def State.trimHost (s : State) (r : Nat) : State :=
  let here : State → Nat → List (Nat × RLine) := fun t k =>
    ((t.rc r).inSet (rset (lineAt k)) false).filter (fun x => x.2.host && !((t.rc r).txns.any (fun y => y.line == x.1 && y.req == .evict)))
  s.each (s.rc r).lines (fun t k => match k.2 with
    | some e => if e.host && decide ((here t k.1).length > bits (t.rc r).ctl 11 8 + 1) then t.giveUp r (lineAt k.1) else t
    | none => t)

/-- A block cache's written lines go home; with drop, every line is invalidated and the block's reservations are lost. -/
def State.walkBlock (s : State) (b : Nat) (drop : Bool) : State :=
  let s1 := s.cleanBlock b
  if drop then
    let s2 := s1.each (List.range 128) (fun t i => t.clearResv b i)
    s2.setBc b { s2.bc b with lines := [] }
  else s1

/-! ### Modes (R199 to R201) -/

/-- The reservations of running tasks that a change of a region's caches touches are lost: those of its blocks' threads, those on lines
that it is home for, and those in its table (R201). -/
def State.loseReservations (s : State) (r : Nat) : State :=
  let homed : Target → Bool := fun g => match lineOfTgt g with | some (l, _) => s.home l == some r | none => false
  let s1 := s.each s.blocks.thr (fun t e => match (t.thr (e.1 / 128) (e.1 % 128)).resv with
    | some g => if e.1 / 128 / 20 == r || homed g then t.clearResv (e.1 / 128) (e.1 % 128) else t
    | none => t)
  s1.dropHomeResv r (fun _ => true)

/-- CCH_CTL takes a value: what changed walks (R201). -/
def State.applyCtl (s : State) (r : Nat) (v : W32) : State :=
  let old := (s.rc r).ctl
  let new : W32 := v &&& 0xF03
  let bcCh := bit old 0 != bit new 0
  let naCh := bit old 1 != bit new 1
  let lower := decide (bits new 11 8 < bits old 11 8)
  let s1 := s.setRc r { s.rc r with ctl := new, walk := (s.rc r).walk || bcCh || naCh || lower }
  let s2 := if bcCh || naCh then s1.loseReservations r else s1
  let s3 := if bcCh then s2.each (blocksOf r) (fun t b => t.walkBlock b true) else s2
  let s4 := if naCh then (if bit new 1 then s3.emptyRegion r else s3.cleanRegion r true) else s3
  if lower then s4.trimHost r else s4

/-- A write of CCH_CTL: latched while a walk runs (R201). -/
def State.writeCtl (s : State) (r : Nat) (v : W32) : State :=
  if (s.rc r).walk then s.setRc r { s.rc r with latched := some v } else s.applyCtl r v

/-- CCH_CTL_WRITE: the modes of region r's caches (R199 to R201). -/
def execCchCtlWrite (r : Fin 5) (v : W32) (s : State) : Host.Outcome State Fault Refusal :=
  .next (s.barWrite (10 + 9 * r.val) (regionWin r.val 0x100000) (fun s => s.writeCtl r.val v))

/-- A write of CCH_WAYDIS: the tags in the ways that leave service go (R201). -/
def State.writeWaydis (s : State) (r : Nat) (v : W32) : State :=
  let new : W32 := v &&& 0xFFFFFF
  let rise := new &&& ~~~(s.rc r).waydis
  let s1 := s.setRc r { s.rc r with waydis := new, walk := (s.rc r).walk || rise != 0 }
  s1.each (s1.rc r).lines (fun t k => match k.2 with
    | some e => if rise.getLsbD e.way then t.giveUp r (lineAt k.1) else t
    | none => t)

/-- CCH_WAYDIS_WRITE: the disabled ways of region r's cache (R201). -/
def execCchWaydisWrite (r : Fin 5) (v : W32) (s : State) : Host.Outcome State Fault Refusal :=
  .next (s.barWrite (10 + 9 * r.val) (regionWin r.val 0x100018) (fun s => s.writeWaydis r.val v))

/-- A write of CCH_FLUSH with GO: every dirty line is written back; with INV, every line is invalidated and every owned line recalled
too (Table 7-12). -/
def State.flushRegion (s : State) (r : Nat) (inv : Bool) : State :=
  let s1 := if inv then s.emptyRegion r else s.cleanRegion r false
  s1.setRc r { s1.rc r with walk := true }

/-- CCH_FLUSH: every dirty line of region r's cache is written back (R201). -/
def execCchFlush (r : Fin 5) (s : State) : Host.Outcome State Fault Refusal :=
  .next (s.barWrite (10 + 9 * r.val) (regionWin r.val 0x100010) (fun s => s.flushRegion r.val false))

/-- CCH_FLUSH_INVALIDATE: the flush that also invalidates every line and recalls every owned line (R201). -/
def execCchFlushInvalidate (r : Fin 5) (s : State) : Host.Outcome State Fault Refusal :=
  .next (s.barWrite (10 + 9 * r.val) (regionWin r.val 0x100010) (fun s => s.flushRegion r.val true))

/-- CACHE_WALK_END: a walk of region r ends, and a latched write of CCH_CTL takes effect (R201). -/
def execCacheWalkEnd (r : Fin 5) (s : State) : Host.Outcome State Fault Refusal :=
  let n := r.val
  .next (if (s.rc n).walk = false then s
    else
      let s1 := s.setRc n { s.rc n with walk := false, latched := none }
      match (s.rc n).latched with
      | some v => s1.applyCtl n v
      | none => s1)

/-! ### Dead agents (R204, Table 7-8) -/

/-- Every region that is in service is to walk its directory for an agent that has died: CCH_STATUS.WALK reads 1 until it has
(R204, Table 7-11). -/
def State.agentDies (s : State) (a : DeadAgent) : State :=
  s.each (List.range 5) (fun t r =>
    if t.regionDust r || (t.rc r).reclaims.any (fun x => decide (x = a)) then t
    else t.setRc r { t.rc r with reclaims := (t.rc r).reclaims ++ [a] })

/-- The entries of region r's directory let a dead block go: lines that it had written are poisoned and counted. -/
def State.reclaimBlock (s : State) (r b : Nat) : State :=
  s.each (s.rc r).lines (fun t k => match k.2 with
    | none => t
    | some _ =>
      let l := lineAt k.1
      let written : BitVec 4 := match t.bline b l with | some x => x.modi | none => 0
      let t1 := if written = 0 then t else t.poisonLine r l (if l.host then written else 15) (!l.host)
      let t2 := match t1.rline r l with
        | some e => t1.setRline r l (some { e with
            own := if e.own = some b then none else e.own, fwdr := if e.fwdr = some b then none else e.fwdr,
            pres := e.pres &&& ~~~(presBits l 15 b) })
        | none => t1
      t2.setBline b l none)

/-- The responses that a lost host owes to a line's transaction are settled: its snoops as answered I, its reads with poisoned
data. -/
def State.settleTxn (s : State) (r : Nat) (x : Txn) : State :=
  let l := lineAt x.line
  let reads : Bool := match askAt x.req with | some a => a.read | none => false
  s.each (x.waits.filter (fun w => match w with | .host | .go _ => true | _ => false)) (fun t w => match w with
    | .go k => (if reads && !x.served then t.poisonLine r l (1#4 <<< k) false else t).gotResp l (Expect.go k)
    | e => (t.freeHold r l).gotResp l e)

/-- What region r awaits from a host that is lost is settled, and so is what waited for a snoop to be sent, or for Cache_Enable: each
transaction that goes on is answered for at once (R204). -/
def State.settleHost (s : State) (r : Nat) : State :=
  let s1 := s.each (s.rc r).txns (fun t x => t.settleTxn r x)
  (s1.setRc r { s1.rc r with bi := [], hsnp := [] }).retrySlots r

/-- Region r lets the host go: its holds end, lines that it may have written are poisoned and counted, host sectors are
invalidated, and the dirty ones among them, in caches and in the eviction buffer, are discarded and counted (Table 7-8). -/
def State.reclaimHost (s : State) (r : Nat) : State :=
  let s1 := s.each (s.rc r).lines (fun t k => match k.2 with
    | none => t
    | some e =>
      let l := lineAt k.1
      if e.host then
        let owned : BitVec 4 := (t.owners l).foldl (fun a b => match t.bline b l with | some x => a ||| x.modi | none => a) 0
        let n := popc (e.dirty ||| owned)
        let t1 := ((t.dropCopies l 15 none).breakResv l 15 none).setRline r l none
        t1.setRc r { t1.rc r with hlost := satAdd (t1.rc r).hlost n }
      else t.freeHold r l)
  let c := s1.rc r
  s1.setRc r { c with hlost := satAdd c.hlost c.evict.length, evict := [] }

/-- RECLAMATION_WALK: region r's directory has been walked for a dead agent (R204). -/
def execReclamationWalk (r : Fin 5) (a : DeadAgent) (s : State) : Host.Outcome State Fault Refusal :=
  let done : State → State := fun t => t.setRc r.val { t.rc r.val with reclaims := (t.rc r.val).reclaims.filter (fun x => decide (x ≠ a)) }
  .next (match a with
    | .block b => if s.blockDust b.val then done (s.reclaimBlock r.val b.val) else done s
    | .region q => if s.regionDust q.val then done (s.each (blocksOf q.val) (fun t b => t.reclaimBlock r.val b)) else done s
    | .host => if (s.rc r.val).hostDead then done (s.reclaimHost r.val) else done s)

end Sys2Proof.Machine
end

