-- ==== Sys2Proof/Machine/Stack.lean ====
section
/-! DEFINITION. The stack links: responses and alerts of the base dies, modules and ports that die, training and the map
(08_memory_stacks.md R212 to R227). -/
namespace Sys2Proof.Machine

/-! ### The death of a port (R223, R224; 06_memory_ordering.md R173) -/

/-- Whether a device line lies on a port. -/
def State.onPort (s : State) (mp : Nat) (l : LineId) : Bool :=
  !l.host && (match s.place (l.line.toNat * 256) with | some p => p.port == mp | none => false)

/-- The accesses of threads to lines that meet a test, which have taken effect at a home that will not answer any more, are
performed. -/
def State.landHomed (s : State) (p : LineId → Bool) : State :=
  let mine : Acc → Bool := fun a => a.homed && !a.performed && (match lineOfTgt a.tgt with | some (l, _) => p l | none => false)
  s.each s.blocks.thr (fun t e =>
    let b := e.1 / 128
    let i := e.1 % 128
    let th := t.thr b i
    if th.accs.any mine then t.setThr b i { th with accs := updWhere mine (fun a => { a with performed := true }) th.accs } else t)

/-- The outstanding accesses of every thread to dead targets come to their end: stores are discarded and loads told. -/
def State.endDead (s : State) : State :=
  s.each s.blocks.thr (fun t e =>
    let b := e.1 / 128
    let i := e.1 % 128
    if (t.thr b i).accs.any (fun a => !a.performed && (t.deadAt a.tgt).isSome) then t.kick b i else t)

/-- The write-combining lines bound for dead targets are discarded. -/
def State.drainDead (s : State) : State :=
  s.each (List.range 5) (fun t r => (t.each (t.wc r) (fun x l => if (x.deadAt l.tgt).isSome then x.drainLine r l else x)).moveOn r)

/-- The transactions on lines that meet a test end at a home, and the requests of the block caches for them; what waited for a way
that they held asks again. -/
def State.endRequests (s : State) (r : Nat) (p : LineId → Bool) : State :=
  let gone := (s.rc r).txns.filter (fun x => p (lineAt x.line))
  let s1 := s.setRc r { s.rc r with txns := (s.rc r).txns.filter (fun x => !p (lineAt x.line)) }
  let s2 := s1.each (gone.flatMap (fun x => (if x.served then [] else [x.req]) ++ x.queued)) State.failReq
  let s3 := s2.each s2.coh.bc (fun t e => t.setBc e.1 { t.bc e.1 with
    out := (t.bc e.1).out.filter (fun x => !p (lineAt x.line)), wb := (t.bc e.1).wb.filter (fun x => !p (lineAt x.1)) })
  (s3.landHomed p).each gone (fun t x =>
    let y := t.reopenAll r (.room x.line)
    y.2.goAll r y.1)

/-- The home drops a port's lines: block copies go, the host is snooped, and each dirty line is lost and counted (R224). -/
def State.dropPortLines (s : State) (mp : Nat) : State :=
  let r := mp / 4
  s.each (s.rc r).lines (fun t k => match k.2 with
    | none => t
    | some e =>
      let l := lineAt k.1
      if !t.onPort mp l then t
      else
        let c := t.rc r
        let dirty := e.dirty != 0 || !(t.owners l).isEmpty
        let t1 := if e.hst = 0 || t.hostGone || c.bi.any (fun x => x == k.1) then t
          else (t.setRc r { c with late := c.late ++ [k.1] }).sendLate r
        let t2 := ((t1.dropCopies l 15 none).breakResv l 15 none).setRline r l none
        if dirty then t2.setMap r { t2.map r with lostLines := satAdd (t2.map r).lostLines 1 } else t2)

/-- A port that is in service, or trains, is declared dead, for a cause of Table 8-9; a dead port keeps its cause. -/
def State.killPort (s : State) (mp cause : Nat) : State :=
  let p := s.mport mp
  if p.state ≠ 1 ∧ p.state ≠ 2 then s
  else
    let s1 := (s.dropPortLines mp).setMport mp { p with state := 3, cause := BitVec.ofNat 4 cause, reqs := [], ready := [] }
    let s2 := s1.endRequests (mp / 4) (s1.onPort mp)
    s2.endDead.drainDead

/-- A port dies of a failure of its own: the memory source group reports it, with the lines lost (Table 15-9: kind 3). -/
def State.failPort (s : State) (mp cause : Nat) : State :=
  if (s.mport mp).state ≠ 2 then s
  else
    let before := (s.map (mp / 4)).lostLines.toNat
    let t := s.killPort mp cause
    t.report 3 mp 3 (BitVec.ofNat 64 (cause * 2 ^ 32 + ((t.map (mp / 4)).lostLines.toNat - before)))

/-! ### Modules (R212, R213) -/

/-- The adapters of a link group have replayed flits since it was last looked at, a number that only they know (R213; Table 8-12). -/
def State.replays (s : State) (g : Nat) : State :=
  let x := s.lg g
  (s.setLg g { x with retry := satAdd x.retry (s.freeVal.toNat % 2 ^ 32) }).took 1

/-- A request is sent again, on the module that its line now takes. -/
def State.reissue (s : State) (mp : Nat) (q : StackReq) : State :=
  let p := s.mport mp
  let modl := (s.lg (mp / 2)).module (s.stackOff q.op)
  (s.setMport mp { p with reqs := updWhere (fun x : StackReq => x.tag == q.tag) (fun x => { x with modl := modl }) p.reqs }).emit
    (.stackReq mp q.tag (s.stackOff q.op) q.op)

/-- A request takes its place in a list in the order of first issue. -/
def insIssue (q : Nat × StackReq) : List (Nat × StackReq) → List (Nat × StackReq)
  | [] => [q]
  | x :: xs => if q.2.id ≤ x.2.id then q :: x :: xs else x :: insIssue q xs

/-- The requests of a link group's module, of both ports, in the order of first issue. -/
def State.moduleReqs (s : State) (g m : Nat) : List (Nat × StackReq) :=
  let all := [2 * g, 2 * g + 1].flatMap (fun mp => ((s.mport mp).reqs.filter (fun q => q.modl == m)).map (fun q => (mp, q)))
  all.foldr insIssue []

/-- A link group's module leaves service: its requests are reissued in the order of first issue; without a module, both ports
die (R213). -/
def State.loseModule (s : State) (g m : Nat) : State :=
  let x := s.lg g
  if !(x.modules.getLsbD m) then s
  else
    let s1 := ((s.setLg g { x with modules := x.modules &&& ~~~(1#10 <<< m) }).replays g).report 3 (20 + g) 2 (BitVec.ofNat 64 m)
    if (s1.lg g).modules = 0 then (s1.failPort (2 * g) 5).failPort (2 * g + 1) 5
    else s1.each (s1.moduleReqs g m) (fun t q => t.reissue q.1 q.2)

/-- UCIE_MODULE_FAILURE: a module has failed retraining, or its retry eight times in a row (R213). -/
def execUcieModuleFailure (g m : Fin 10) (s : State) : Host.Outcome State Fault Refusal :=
  .next (if s.domOn (11 + 9 * (g.val / 2) + g.val % 2) then s.loseModule g.val m.val else s)

/-! ### Responses of the base dies (R214 to R217) -/

/-- A response frees its request's tag, which a request that waits for one takes; what else is outstanding on the link group has heard of
its near base die (R214, R217). -/
def State.freeTag (s : State) (mp tag : Nat) : State :=
  let g := mp / 2
  let s1 := s.each [2 * g, 2 * g + 1] (fun t k =>
    let p := t.mport k
    t.setMport k { p with reqs := p.reqs.map (fun q => { q with heard := q.reissued }) })
  let p := s1.mport mp
  let s2 := s1.setMport mp { p with reqs := p.reqs.filter (fun q => q.tag != tag), ready := p.ready.drop 1 }
  match p.ready with
  | (id, op) :: _ => s2.issueStack mp id op
  | [] => s2

/-- The line and the sectors that a read asks for. -/
def StackOp.reads : StackOp → Option (Nat × BitVec 4)
  | .rd64 line k => some (line, 1#4 <<< k)
  | .rd256 line => some (line, 15)
  | _ => none

/-- RDAT: a sector or line comes from a stack, with the poison of each sector (R216). A sector that was not known as poisoned is
an uncorrectable error of the base die. -/
def execRdat (mp : Fin 20) (tag : BitVec 10) (bad : BitVec 4) (s : State) : Host.Outcome State Fault Refusal :=
  let n := mp.val
  .next (match (s.mport n).reqs.find? (fun q => q.tag == tag.toNat) with
    | none => s
    | some q => match q.op.reads with
      | some (line, secs) =>
        let l : LineId := { host := false, line := BitVec.ofNat 56 line }
        let new := bad &&& secs &&& ~~~(s.stk.mem.lineBad line)
        let mem := (ones new).foldl (fun (m : Memory) k => m.setBad (4 * line + k) true) s.stk.mem
        let s1 := (s.setBacking false mem).freeTag n tag.toNat
        let s2 := s1.setMport n { s1.mport n with uncorr := satAdd (s1.mport n).uncorr (popc new) }
        s2.gotResp l (.stack n q.id)
      | none => s)

/-- WACK: a write is performed at the stack, and its tag is free (R214). -/
def execWack (mp : Fin 20) (tag : BitVec 10) (s : State) : Host.Outcome State Fault Refusal :=
  let n := mp.val
  .next (match (s.mport n).reqs.find? (fun q => q.tag == tag.toNat) with
    | some q => (match q.op with | .wr _ _ _ _ => s.freeTag n tag.toNat | _ => s)
    | none => s)

/-- MRSP: a base die answers a maintenance request (R214). -/
def execMrsp (mp : Fin 20) (tag : BitVec 10) (value : W64) (ok : Bool) (s : State) : Host.Outcome State Fault Refusal :=
  let n := mp.val
  .next (match (s.mport n).reqs.find? (fun q => q.tag == tag.toNat) with
    | some q => (match q.op with
      | .mnt _ _ _ =>
        let s1 := s.freeTag n tag.toNat
        if ok then s1.setMport n { s1.mport n with lastMnt := value } else s1
      | _ => s)
    | none => s)

/-- ALERT: a base die reports errors, the loss of its relay, or a fatal stack (R216, R217). -/
def execAlert (mp : Fin 20) (kind : AlertKind) (count : W32) (s : State) : Host.Outcome State Fault Refusal :=
  let n := mp.val
  let p := s.mport n
  .next (if p.state ≠ 2 then s
    else match kind with
    | .corrected => (s.setMport n { p with corr := satAdd p.corr count.toNat }).report 3 n 0 (count.setWidth 64)
    | .uncorrectable => (s.setMport n { p with uncorr := satAdd p.uncorr count.toNat }).report 3 n 1 (count.setWidth 64)
    | .relayLost => s.failPort (n / 2 * 2 + 1) 4
    | .stackFatal => s.failPort n 2)

/-- Whether a near base die has stopped answering on every module, as a request shows that has timed out a second time: nothing has come
over the link group since it was reissued, and if it is the far port's, the near port's requests have timed out too (R217,
notes/assumptions 63). -/
def State.baseSilent (s : State) (mp : Nat) (q : StackReq) : Bool :=
  let near := (s.mport (mp / 2 * 2)).reqs
  !q.heard && (mp % 2 == 0 || (!near.isEmpty && near.all (fun x => x.reissued && !x.heard)))

/-- MEM_RSP_TIMEOUT_EXPIRY: a request went unanswered: its module is retrained and it is reissued, and the second time its port is
dead; both ports of the group are when the near base die answers on no module (R217). -/
def execMemRspTimeoutExpiry (mp : Fin 20) (tag : BitVec 10) (s : State) : Host.Outcome State Fault Refusal :=
  let n := mp.val
  let g := n / 2
  .next (match (s.mport n).reqs.find? (fun q => q.tag == tag.toNat) with
    | none => s
    | some q =>
      if q.reissued = false then
        let p := s.mport n
        let s1 := s.setMport n { p with reqs := updWhere (fun x : StackReq => x.tag == q.tag) (fun x => { x with reissued := true }) p.reqs }
        let x := s1.lg g
        (s1.setLg g { x with retrains := satAdd x.retrains 1 }).reissue n q
      else if s.baseSilent n q then (s.failPort (2 * g) 3).failPort (2 * g + 1) 3
      else s.failPort n 1)

/-! ### Training and the map (R218 to R221, R225, R227) -/

/-- A port is excluded at a start; a dead one stays dead until the reset that excludes it. -/
def State.exclude (s : State) (mp : Nat) : State :=
  let p := s.mport mp
  if p.state = 1 then s.setMport mp { p with state := 4, cause := 7 } else s

/-- TRAINING_STEP_TIMEOUT: a step of a link group's training ran over its time (Table 8-6). -/
def execTrainingStepTimeout (g : Fin 10) (step : TrainStep) (s : State) : Host.Outcome State Fault Refusal :=
  let n := g.val
  let x := s.lg n
  .next (if x.training = false then s
    else match step with
    | .modules failed =>
      let s1 := s.setLg n { x with modules := x.modules &&& ~~~failed }
      if (s1.lg n).modules = 0 then (s1.exclude (2 * n)).exclude (2 * n + 1) else s1
    | .baseDie => (s.exclude (2 * n)).exclude (2 * n + 1)
    | .relay => s.exclude (2 * n + 1)
    | .dram far => s.exclude (2 * n + b2n far))

/-- A link group begins to train, at a start or when its domain comes up: its modules and its populated ports, but those that are dead
or excluded (R227). -/
def State.train (s : State) (g : Nat) : State :=
  let s1 := s.setLg g { s.lg g with modules := 0x3FF, training := true }
  s1.each [2 * g, 2 * g + 1] (fun t mp =>
    let p := t.mport mp
    if p.state = 3 ∨ p.state = 4 then t
    else t.setMport mp { p with state := if t.pwr.populated.getLsbD mp then 1 else 0, reqs := [], ready := [] })

/-- The ports of a region that a start puts into the map: in service, and their region not under a dust sheet. -/
def State.mapPorts (s : State) (r : Nat) : List Nat :=
  if s.regionDust r then [] else (List.range 4).filter (fun j => (s.mport (4 * r + j)).state == 2)

/-- The populated device memory. -/
def State.totalMemory (s : State) : Nat := ((List.range 5).map s.capacity).foldl Nat.add 0

/-- Training is over: the ports that still train come into service. -/
def State.endTraining (s : State) : State :=
  let s1 := s.each (List.range 20) (fun t mp =>
    if (t.mport mp).state = 1 then t.setMport mp { t.mport mp with state := 2 } else t)
  s1.each (List.range 10) (fun t g => t.setLg g { t.lg g with training := false })

/-- MEMORY_MAP_BUILD: training is over; the map is laid out over the ports in service, in the primer's mode unless R218 refuses
it, and device memory becomes active (R218 to R221, R225; 09_host_port.md R243). A changed map leaves its contents
undefined. A group that trained while the device runs comes into service under the map in force (R218). -/
def execMemoryMapBuild (s : State) : Host.Outcome State Fault Refusal :=
  .next (if !(decide (s.rst.phase = .none) || decide (s.rst.phase = .start)) then s
    else if s.hpt.memActive then s.endTraining
    else
      let s2 := s.endTraining
      let ports := (List.range 5).map s2.mapPorts
      let ok := ports.all (fun l => l ≠ [])
      let spread := s2.pwr.askSpread && ok
      let same := (List.range 5).all (fun r => decide ((s2.map r).ports = ports.getD r []) && (s2.map r).spread == spread)
      let s3 := s2.each (List.range 5) (fun t r =>
        let m := t.map r
        t.setMap r { m with ports := ports.getD r [], spread := spread, refused := t.pwr.askSpread && !ok,
                            gen := if same then m.gen else m.gen + 1 })
      let s4 := if same then s3 else s3.setBacking false { era := s3.stk.mem.era + 1, cells := [], pois := [] }
      { s4 with hpt := { s4.hpt with
        memActive := true, infoValid := true, range1 := BitVec.ofNat 64 s4.totalMemory } })

end Sys2Proof.Machine
end

