-- ==== Sys2Proof/Machine/QueOps.lean ====
section
/-! DEFINITION. The operations of the queue front-end: rings, fetched descriptors, which command may start, malformed
descriptors, and semaphores (11_queues_and_copy.md R286 to R297). -/
namespace Sys2Proof.Machine

/-! ### Descriptors (R289, Tables 11-1 and 11-2) -/

/-- n bytes of a descriptor from byte k, as a number. -/
def dfield (d : BitVec 512) (k n : Nat) : Nat := bits d (8 * k + 8 * n - 1) (8 * k)

/-- The TAG of a command. -/
def Cmd.tag (c : Cmd) : Nat := dfield c.desc 4 4
/-- The CSEM of a command. -/
def Cmd.csem (c : Cmd) : W64 := BitVec.ofNat 64 (dfield c.desc 8 8)
/-- Whether a command is an ordering command: NOP, SIGNAL, WAIT, FLUSH, MODESET or SKIM_ARM (R290). -/
def Cmd.ordering (c : Cmd) : Bool := c.op == 0 || c.op == 4 || c.op == 5 || c.op == 6 || c.op == 8 || c.op == 10
/-- Whether a command starts only after every earlier one of its queue has completed. -/
def Cmd.ordered (c : Cmd) : Bool := c.ordering || bit c.desc 8

/-- The offset of the first field that offends. -/
def firstBad (l : List (Nat × Bool)) : Option Nat := (l.find? (fun x => x.2)).map (fun x => x.1)

/-- A reserved range of bytes that is not 0. -/
def rsvBad (d : BitVec 512) (k n : Nat) : Nat × Bool := (k, dfield d k n != 0)

/-- The element formats that a COPY converts (R304). -/
def copyFmt (f : Nat) : Bool := decide (f ≤ 4) || f == 8

/-- The bytes of an element of a format that a COPY converts. -/
def fmtBytes (f : Nat) : Nat := fmtW f / 8

/-- The entry of a collective group: its 64 bytes, none when they cannot be read or V is 0
(13_collectives_and_hawk_store.md R348). -/
def State.groupEntry (s : State) (g : Nat) : Option (BitVec 512) :=
  let a := bits (s.ceng ((s.nextRegion 0).getD 0)).gtab 45 12 * 4096 + 64 * g
  if g ≥ 4096 then none
  else match s.tableRead a 64 with
    | none => none
    | some v => if v / 2 ^ 63 % 2 = 1 then some (BitVec.ofNat 512 v) else none

/-- The member count of a group entry. -/
def groupN (e : BitVec 512) : Nat := bits e 47 32 + 1

/-- Whether a collective operation reduces. -/
def reduces (op : Nat) : Bool := op == 0 || op == 1 || op == 4

/-- How many elements SBUF and RBUF hold for an operation of n members (Table 13-2). -/
def bufElems (op n c : Nat) : Nat × Nat :=
  match op with
  | 1 => (n * c, c)
  | 2 => (c, n * c)
  | 5 => (n * c, n * c)
  | _ => (c, c)

/-- The checks of a COLL that need its group (13_collectives_and_hawk_store.md R348, R351, R352). -/
def State.collBad (s : State) (d : BitVec 512) : List (Nat × Bool) :=
  let op := dfield d 42 1
  let fmt := bits d 347 344
  let wf := bits d 351 348
  let red := reduces op
  let fmtBad := if red then !(decide (fmt ≤ 4) && (wf == fmt || wf == 0)) else !((fmtOf fmt).isSome && wf == fmt)
  let e := s.groupEntry (dfield d 40 2)
  let n := match e with | some x => groupN x | none => 1
  let el := bufElems op n (dfield d 32 8)
  let sb := (el.1 * fmtW fmt + 7) / 8
  let rb := (el.2 * fmtW wf + 7) / 8
  let opBad := decide (op > 5)
  [ (32, !opBad && !fmtBad && (decide (sb > 2 ^ 40) || decide (rb > 2 ^ 40) || (!red && dfield d 32 8 * fmtW fmt % 8 != 0))),
    (40, e.isNone), (42, opBad), (43, !opBad && fmtBad), (44, red && decide (dfield d 44 1 > 2)), (45, decide (dfield d 45 1 > 2)),
    (46, decide (dfield d 46 2 ≥ n)), rsvBad d 48 16 ]

/-- The fields of a descriptor in byte order, each with whether it offends (R289, Table 11-2). -/
def State.fieldsBad (s : State) (d : BitVec 512) : List (Nat × Bool) :=
  let f := dfield d
  let head := [ (1, bits d 15 11 != 0), rsvBad d 2 2, (8, bit d 10 && f 8 8 % 8 != 0) ]
  head ++ (match bits d 6 0 with
    | 0 => [ rsvBad d 16 48 ]
    | 1 => [ (16, f 16 8 % 8 != 0), (38, bit d 311), (39, decide (f 39 1 > 31) || f 39 1 == 0), rsvBad d 41 7, rsvBad d 52 12 ]
    | 2 =>
      let cvt := bit d 312
      let sf := bits d 307 304
      let df := bits d 311 308
      [ (32, f 32 4 == 0 || (cvt && copyFmt sf && f 32 4 % fmtBytes sf != 0)), (38, cvt && !(copyFmt sf && copyFmt df)),
        (39, bits d 319 313 != 0), rsvBad d 56 8 ]
    | 3 => s.collBad d
    | 4 => [ (16, f 16 8 % 8 != 0), (32, decide (f 32 1 > 1)), rsvBad d 33 31 ]
    | 5 => [ (16, f 16 8 % 8 != 0), (32, decide (f 32 1 ≥ 3)), rsvBad d 33 3, rsvBad d 40 24 ]
    | 6 => [ (16, decide (f 16 1 > 2)), rsvBad d 17 7, (24, f 16 1 == 1 && f 24 8 % 256 != 0), (32, f 16 1 == 1 && f 32 8 % 256 != 0),
             rsvBad d 40 24 ]
    | 8 => [ (16, decide (f 17 3 ≠ 0) || bits d 134 132 != 0 || decide (bits d 131 128 > 8)),
             (20, decide (f 20 1 > 31) || f 20 1 == 0), rsvBad d 21 43 ]
    | 9 => [ (16, f 16 8 % 256 != 0), (24, f 24 8 % 256 != 0 || f 24 8 == 0 || decide (f 24 8 > 2 ^ 46)), rsvBad d 32 32 ]
    | 10 => [ (16, decide (f 16 2 ≥ 16)), (18, decide (f 18 1 > 2)), rsvBad d 19 5, (24, f 24 8 % 4096 != 0), rsvBad d 32 32 ]
    | _ => [ (0, true) ])

/-- The byte offset of the first offending field of a descriptor; none when it is well formed. A reserved opcode offends at
byte 0. -/
def State.malformed (s : State) (d : BitVec 512) : Option Nat :=
  let op := bits d 6 0
  if decide (op ≤ 10) && op != 7 then firstBad (s.fieldsBad d) else some 0

/-! ### Rings (R286 to R288) -/

/-- The entries of a queue's rings. -/
def Queue.size (x : Queue) : Nat := 2 ^ Machine.bits x.cfg 27 24
/-- The PASID of a queue. -/
def Queue.pasid (x : Queue) : BitVec 20 := BitVec.ofNat 20 (Machine.bits x.cfg 19 0)
/-- Whether the descriptor ring lies in host memory. -/
def Queue.ringHost (x : Queue) : Bool := bit x.cfg 28
/-- Whether the completion ring lies in host memory. -/
def Queue.cplHost (x : Queue) : Bool := bit x.cfg 29
/-- The address of a descriptor slot; base bits below the ring's size are ignored. -/
def Queue.slotAddr (x : Queue) (i : Nat) : Nat := x.ring.toNat / (64 * x.size) * (64 * x.size) + 64 * i
/-- The address of a completion slot. -/
def Queue.cplAddr (x : Queue) (i : Nat) : Nat := x.cpl.toNat / (16 * x.size) * (16 * x.size) + 16 * i

/-- A read request of the device leaves on CXL.io with a free tag: at most 1,024 are outstanding, and tags have 14
bits in flit mode and 10 otherwise (09_host_port.md R232). -/
def State.ioRead (s : State) (addr len : Nat) (why : ReadWhy) : State :=
  if s.hpt.reads.length ≥ 1024 then s
  else
    let tags := if bits s.hpt.link 5 4 = 0 then 2 ^ 10 else 2 ^ 14
    let tag := (((List.range (s.hpt.reads.length + 1)).map (fun k => (s.hpt.nextTag + k) % tags)).find?
      (fun k => !s.hpt.reads.any (fun r => r.tag == k))).getD 0
    let rd : IoRead := { tag := tag, addr := addr, len := len, why := why, poisoned := false }
    let s1 : State := { s with hpt := { s.hpt with reads := s.hpt.reads ++ [rd], nextTag := (tag + 1) % tags } }
    s1.emit (.mrd tag addr len (bit s.hpt.cfg.devctl 4))

/-- Memory writes leave on CXL.io, none with a payload above Max_Payload_Size (09_host_port.md R232). -/
def State.mwr (s : State) (addr : Nat) (bs : List Byte) (ro : Bool) : State :=
  let mps := 128 * 2 ^ Nat.min 2 (bits s.hpt.cfg.devctl 7 5)
  s.emits ((chunksAt mps (bs.length / mps + 2) addr bs).map (fun x => .mwr x.1 x.2 (ro && bit s.hpt.cfg.devctl 4)))

/-- Bytes are written to host memory with CXL.io; ro is the attribute that the kind of traffic asks for (Table 9-8). -/
def State.ioWrite (s : State) (addr : Nat) (bs : List Byte) (ro : Bool) : State :=
  (s.cohWrite true addr bs).mwr addr bs ro

/-! ### Fetching (R293, R294) -/

/-- How many times a stale slot is read in all: at 0, 10, 30, 70, 150 and every 80 OCLK cycles more below the limit, and at the
limit (Table 11-5). -/
def staleReads (ticks : Nat) : Nat :=
  let t := Nat.max ticks 10
  2 + ([10, 30, 70].filter (fun x => decide (x < t))).length + (t - 150 + 79) / 80

/-- A slot has been read: a descriptor of the expected phase is taken, and a stale one starts or goes on with the series of
re-reads, whose last stops the queue (R294). none stands for bytes that could not be read. -/
def State.slotRead (s : State) (q : Nat) (d : Option (BitVec 512)) : State :=
  let x := s.q q
  if x.state ≠ .running ∨ x.ci = x.pi then s
  else
    let fresh := match d with | some w => bit w 7 == x.phase | none => false
    if fresh then
      let wrap := x.ci.toNat + 1 == x.size
      let c : Cmd := { slot := x.ci.toNat, desc := d.getD 0, stat := .waiting, left := 0, flags := 0, first := none, val := 0,
                       read := false, asked := false, tries := 0, recorded := false, near := none }
      s.setQ q { x with ci := if wrap then 0 else x.ci + 1, phase := if wrap then !x.phase else x.phase, rereads := 0,
                        cmds := x.cmds ++ [c] }
    else if x.rereads + 1 ≥ staleReads s.que.staleWait.toNat then (s.setQ q { x with rereads := 0 }).stopQ q 0
    else s.setQ q { x with rereads := x.rereads + 1 }

/-- Read the slot at CI: in device memory at once, in host memory with a read whose completion comes later. -/
def State.readSlot (s : State) (q : Nat) : State :=
  let x := s.q q
  let a := x.slotAddr x.ci.toNat
  if x.ringHost then
    if s.hpt.hostLost then s.hostStop q
    else if !s.busMaster || s.hpt.reads.any (fun r => r.why == .descriptor q) then s
    else s.ioRead a 64 (.descriptor q)
  else s.slotRead q ((s.tableRead a 64).map (fun v => BitVec.ofNat 512 v))

/-- Whether the front-end fetches for a queue: it runs, has slots to fetch, and dispatch is not stopped. -/
def State.fetches (s : State) (q : Nat) : Bool :=
  decide ((s.q q).state = .running) && decide ((s.q q).ci ≠ (s.q q).pi) && s.dispatches && !s.hpt.d3hot && !s.hpt.flr

/-! ### Starting (R290) -/

/-- Whether a command has ended and its record is not written yet. -/
def Cmd.isDone (c : Cmd) : Bool := match c.stat with | .done _ _ => true | _ => false

/-- The commands of a queue before one. -/
def Queue.before (x : Queue) (slot : Nat) : List Cmd := x.cmds.takeWhile (fun c => c.slot != slot)

/-- Whether a command is ready to start: its queue runs, commands start in ring order, an ordering command waits for every earlier one
and holds every later one back, at most 16 run at once, and a second MODESET waits for the first (R290, R300). -/
def State.cmdReady (s : State) (q : Nat) (c : Cmd) : Bool :=
  let x := s.q q
  let before := x.before c.slot
  decide (c.stat = .waiting) && decide (x.state = .running) && s.dispatches && !s.hpt.d3hot && !s.hpt.flr &&
    before.all (fun y => decide (y.stat ≠ .waiting) && !y.ordering) && (!c.ordered || before.isEmpty) &&
    decide (before.length < 16) && !(c.op == 8 && s.que.modeset.isSome)

/-- QUE_CFG.PRIO of a queue. -/
def Queue.prio (x : Queue) : Nat := Machine.bits x.cfg 31 30

/-- The queue that a priority served last (R287). -/
def State.lastServed (s : State) (p : Nat) : Nat := Tab.get 1023 s.que.turn p

/-- Whether the front-end serves queue a before queue b: the higher priority first, and within one the next in round-robin order (R287). -/
def State.servesFirst (s : State) (a b : Nat) : Bool :=
  let pa := (s.q a).prio
  let pb := (s.q b).prio
  let away : Nat → Nat := fun q => (q + 1023 - s.lastServed pb) % 1024
  decide (pb < pa) || (pa == pb && decide (away a < away b))

/-- Whether a command may start now: it is ready, and no queue that the front-end serves first has a command ready (R287). -/
def State.mayStart (s : State) (q : Nat) (c : Cmd) : Bool :=
  s.cmdReady q c && !(s.que.que.any (fun e => e.1 != q && s.servesFirst e.1 q && e.2.cmds.any (s.cmdReady e.1)))

/-- The front-end has served a queue (R287). -/
def State.served (s : State) (q : Nat) : State :=
  { s with que := { s.que with turn := Tab.set 1023 s.que.turn (s.q q).prio q } }

/-- A command of an opcode starts, when it may: a malformed one ends at once (R289), another does what f says. -/
def State.startCmd (s : State) (q slot op : Nat) (f : State → Queue → Cmd → State) : State :=
  match s.cmd q slot with
  | none => s
  | some c =>
    if c.op ≠ op ∨ s.mayStart q c = false then s
    else
      let t := s.served q
      match s.malformed c.desc with
      | some off => t.updCmd q slot (Cmd.ended 7 (BitVec.ofNat 64 off))
      | none => f t (s.q q) c

/-- The state in which a command runs. -/
def State.runCmd (s : State) (q slot : Nat) : State := s.updCmd q slot (fun c => { c with stat := .running })

/-! ### Semaphores (R296, R297) -/

/-- A queue command's access to its semaphore. -/
def queWant (q slot : Nat) (pasid : BitVec 20) (va : W64) (write : Bool) (tries : Nat) : Want :=
  { unit := queUnit, who := .queue q slot, pasid := pasid, va := va, write := write, fetch := false, tries := tries }

/-- What becomes of a semaphore access: a target, a status with its INFO, or a wait for translation. -/
inductive SemOut where
  | at' (g : Target) (s : State)
  | bad (status : Byte) (info : W64) (s : State)
  | wait (s : State)

/-- A queue command's semaphore: translated, and refused when it is dead (DEAD_TARGET) or in memory of a host that is lost; a failed
translation gives XLT_FAULT. -/
def State.semAt (s : State) (q slot : Nat) (pasid : BitVec 20) (va : W64) (write : Bool) (tries : Nat) : SemOut :=
  match s.translate (queWant q slot pasid va write tries) with
  | .ok g t =>
    if (t.deadAt g).isSome then .bad 1 va t
    else match g with
      | .host _ => if t.hpt.hostLost then .bad 5 0 (t.hostStop q) else .at' g t
      | _ => .at' g t
  | .refused => .bad 8 0 s
  | .denied => .bad 8 0 s
  | .fault c t => if c = 10 then .bad 5 0 (t.hostStop q) else .bad 8 0 t
  | .wait page t => .wait (if page then t.updCmd q slot (fun c => { c with tries := c.tries + 1 }) else t)
  | .hold => .wait s

/-- A unit of the device sends an access to the home of a line of this device, or of the host. -/
def State.toUnit (s : State) (g : Target) (own : Own) (op : Nat → UnitOp) : State :=
  match lineOfTgt g with
  | some (l, off) => s.atHome (.unit own (op off)) l
  | none => s

/-- A command's far atomic on its semaphore goes to its home: an addition, or the unsigned maximum; another device performs its own
(R296). The command waits for the answer. -/
def State.semSend (s : State) (q slot : Nat) (g : Target) (isMax : Bool) (v : W64) : State :=
  let t := s.updCmd q slot (fun c => { c with left := 1, asked := true })
  match g with
  | .remote d off => t.netSend d.toNat (.sem q slot) [atomicPkt off (if isMax then 7 else 0) true v 0]
  | _ => t.toUnit g (.sem q slot) (fun off => .sem off isMax v)

end Sys2Proof.Machine
end

