-- ==== Sys2Proof/Machine/Copy.lean ====
section
/-! DEFINITION. The copy engines: a COPY or ZERO_RANGE split into pieces, and each piece read, converted and written
(11_queues_and_copy.md R303 to R305; 12_umakin_transport.md R328). -/
namespace Sys2Proof.Machine

/-! ### What a COPY or ZERO_RANGE copies (Table 11-2) -/

/-- Whether a command copies with conversion. -/
def Cmd.cvt (c : Cmd) : Bool := c.op == 2 && bit c.desc 312
/-- SFMT. -/
def Cmd.sfmt (c : Cmd) : Nat := bits c.desc 307 304
/-- DFMT. -/
def Cmd.dfmt (c : Cmd) : Nat := bits c.desc 311 308
/-- Where a command's destination starts. -/
def Cmd.dst (c : Cmd) : W64 := BitVec.ofNat 64 (dfield c.desc (if c.op = 9 then 16 else 24) 8)
/-- The rows of a command. -/
def Cmd.rows (c : Cmd) : Nat := if c.op = 9 then 1 else dfield c.desc 36 2 + 1
/-- The source bytes of n destination bytes. -/
def Cmd.srcBytes (c : Cmd) (n : Nat) : Nat := if c.cvt then n / fmtBytes c.dfmt * fmtBytes c.sfmt else n
/-- The destination bytes of a row: as many elements as the source row holds (R304). -/
def Cmd.rowBytes (c : Cmd) : Nat :=
  if c.op = 9 then dfield c.desc 24 8
  else if c.cvt then dfield c.desc 32 4 / fmtBytes c.sfmt * fmtBytes c.dfmt else dfield c.desc 32 4
/-- The destination bytes of a command. -/
def Cmd.total (c : Cmd) : Nat := c.rows * c.rowBytes
/-- The address of destination byte o, counted over the rows. -/
def Cmd.dstAt (c : Cmd) (o : Nat) : W64 :=
  c.dst + BitVec.ofNat 64 (o / c.rowBytes) * (if c.op = 9 then 0 else BitVec.ofNat 64 (dfield c.desc 48 8)) + BitVec.ofNat 64 (o % c.rowBytes)
/-- The source address of destination byte o. -/
def Cmd.srcAt (c : Cmd) (o : Nat) : W64 :=
  BitVec.ofNat 64 (dfield c.desc 16 8) + BitVec.ofNat 64 (o / c.rowBytes) * BitVec.ofNat 64 (dfield c.desc 40 8)
    + BitVec.ofNat 64 (c.srcBytes (o % c.rowBytes))

/-- Whether an address is one of a COPY's destination bytes. -/
def Cmd.writes (c : Cmd) (a : W64) : Bool :=
  (List.range c.rows).any (fun r => decide ((a - c.dstAt (r * c.rowBytes)).toNat < c.rowBytes))

/-! ### Engines (R303, R305) -/

/-- Whether a copy engine is in service. -/
def State.engServes (s : State) (e : Nat) : Bool :=
  s.domOn 3 && !s.flt.dust.any (fun u => match u with | .engine k => k.val == e | _ => false)

/-- The engines that serve a destination: CE0 to CE7 for this device's memory, CE8 to CE15 for every other. -/
def State.engSet (s : State) (near : Bool) : List Nat :=
  ((List.range 8).map (fun k => if near then k else 8 + k)).filter s.engServes

/-- Where a command's destination lies: in this device's memory or not, as its translation says; while that is awaited it is not known
(R303). -/
def State.findNear (s : State) (q : Nat) (c : Cmd) : State :=
  if c.near.isSome then s
  else
    let know : State → Bool → State := fun t b => t.updCmd q c.slot (fun x => { x with near := some b, tries := 0 })
    match s.translate (queWant q c.slot (s.q q).pasid c.dst true c.tries) with
    | .ok (.dev _) t => know t true
    | .wait page t => if page then t.updCmd q c.slot (fun x => { x with tries := x.tries + 1 }) else t
    | .hold => s
    | .ok _ t => know t false
    | .fault _ t => know t false
    | _ => know s false

/-- The engine of a set with the fewest pieces, the lower on a tie. -/
def State.leastEng (s : State) : List Nat → Option Nat
  | [] => none
  | e :: es => match s.leastEng es with
    | none => some e
    | some f => if (s.eng f).pieces.length < (s.eng e).pieces.length then some f else some e

/-- Whether a status stops a COPY from handing out further pieces: ABORTED, XLT_FAULT, POISON and HOST_LOST. -/
def stopsCopy (st : Byte) : Bool := st == 5 || st == 8 || st == 9 || st == 10

/-- The piece of a command from destination byte o on: to the end of its row or of its 4 KiB of the destination. -/
def Cmd.piece (c : Cmd) (q : Nat) (pasid : BitVec 20) (o : Nat) : Piece :=
  let a := c.dstAt o
  let n := Nat.min (c.rowBytes - o % c.rowBytes) (4096 - a.toNat % 4096)
  { q := q, slot := c.slot, src := c.srcAt o, dst := a, len := n, off := o, zero := c.op == 9,
    cvt := if c.cvt then some (BitVec.ofNat 4 c.sfmt, BitVec.ofNat 4 c.dfmt) else none, pasid := pasid, tries := 0, stage := 0, left := 0,
    buf := [], spoilt := [], bad := none }

/-- A command hands out pieces while the engines of its set have room for them, 32 each: val is the next destination byte. -/
def State.handOut : Nat → Nat → Nat → State → State
  | 0, _, _, s => s
  | n + 1, q, slot, s =>
    match s.cmd q slot with
    | none => s
    | some c =>
      let stop := match c.first with | some (st, _) => stopsCopy st | none => false
      if stop || decide (c.val.toNat ≥ c.total) then s
      else match c.near with
        | none => s
        | some near => match s.leastEng (s.engSet near) with
          | none => s
          | some e =>
            if (s.eng e).pieces.length ≥ 32 then s
            else
              let p := c.piece q (s.q q).pasid c.val.toNat
              let s1 := s.setEng e { s.eng e with pieces := (s.eng e).pieces ++ [p] }
              State.handOut n q slot (s1.updCmd q slot (fun x => { x with val := x.val + BitVec.ofNat 64 p.len, left := x.left + 1 }))

/-- Every running COPY and ZERO_RANGE hands out what it can. -/
def State.handAll (s : State) : State :=
  s.each s.que.que (fun t e => t.each ((t.q e.1).cmds.filter (fun c => decide (c.stat = .running) && (c.op == 2 || c.op == 9)))
    (fun u c => State.handOut 256 e.1 c.slot (u.findNear e.1 c)))

/-- A running COPY or ZERO_RANGE goes on: where its destination lies is found, and pieces are handed out. A set with no engine left ends
it with DEAD_TARGET (15_faults_and_dust_sheets.md: a copy engine's dust sheet). -/
def State.goCopy (s : State) (q slot : Nat) : State :=
  match s.cmd q slot with
  | none => s
  | some c =>
    let s1 := s.findNear q c
    match (s1.cmd q slot).bind (fun x => x.near) with
    | some near => if s1.engSet near = [] ∧ c.val = 0 then s1.updCmd q slot (Cmd.ended 1 c.dst) else State.handOut 256 q slot s1
    | none => s1

/-- COPY: a copy, with or without conversion, by pieces of 4 KiB of its destination (R303, R304). -/
def execCopy (q : Fin 1024) (slot : W16) (s : State) : Host.Outcome State Fault Refusal :=
  .next (s.startCmd q.val slot.toNat 2 (fun t _ _ => (t.runCmd q.val slot.toNat).goCopy q.val slot.toNat))

/-- ZERO_RANGE: a range becomes zeros (R303). -/
def execZeroRange (q : Fin 1024) (slot : W16) (s : State) : Host.Outcome State Fault Refusal :=
  .next (s.startCmd q.val slot.toNat 9 (fun t _ _ => (t.runCmd q.val slot.toNat).goCopy q.val slot.toNat))

/-! ### A piece (R304, R305; 09_host_port.md Table 9-8) -/

/-- The source bytes of a piece. -/
def Piece.srcLen (p : Piece) : Nat :=
  match p.cvt with | some (sf, df) => p.len / fmtBytes df.toNat * fmtBytes sf.toNat | none => p.len

/-- The state with a piece of an engine changed. -/
def State.updPiece (s : State) (e : Nat) (p : Piece) (f : Piece → Piece) : State := s.editPiece e p.q p.slot p.off f

/-- A piece leaves its engine; its command counts it off, and engines take further pieces. -/
def State.dropPiece (s : State) (e : Nat) (p : Piece) : State :=
  let s1 := s.setEng e { s.eng e with pieces := (s.eng e).pieces.filter (fun x => !(x.q == p.q && x.slot == p.slot && x.off == p.off)) }
  ((s1.forgetOnce (fun w => decide (w = .piece e))).updCmd p.q p.slot (fun c => { c with left := c.left - 1 })).handAll

/-- A command learns of a piece that failed: INFO of XLT_FAULT and POISON is the lowest destination byte not assured written. -/
def Cmd.pieceFail (st : Byte) (info : W64) (c : Cmd) : Cmd :=
  match c.first with
  | none => { c with first := some (st, info) }
  | some (s0, i0) => if (s0 = 8 ∨ s0 = 9) ∧ (st = 8 ∨ st = 9) ∧ info.toNat < i0.toNat then { c with first := some (s0, info) } else c

/-- A piece ends with a status. -/
def State.failPiece (s : State) (e : Nat) (p : Piece) (st : Byte) (info : W64) : State :=
  (s.updCmd p.q p.slot (Cmd.pieceFail st info)).dropPiece e p

/-- The targets of a range of addresses, page by page, or why there are none. -/
inductive Ranges where
  | all (l : List (Nat × Nat × Target)) (s : State)
  | fault (cause : Nat) (va : W64) (s : State)
  | wait (page : Bool) (s : State)

/-- Translate a range of addresses for a copy engine. -/
def rangeTargets (w : Want) : List (W64 × Nat × Nat) → List (Nat × Nat × Target) → State → Ranges
  | [], acc, s => .all acc s
  | (va, skip, n) :: rest, acc, s =>
    match s.translate { w with va := va } with
    | .ok g t => rangeTargets w rest (acc ++ [(skip, n, g)]) t
    | .refused => .fault 0 va s
    | .denied => .fault 2 va s
    | .fault c t => .fault c va t
    | .wait page t => .wait page t
    | .hold => .wait false s

/-- A copy engine's access. -/
def pieceWant (e : Nat) (p : Piece) (write : Bool) : Want :=
  { unit := 100 + e, who := .piece e, pasid := p.pasid, va := 0, write := write, fetch := false, tries := p.tries }

/-- A translation of a piece failed: it is recorded, unless the address is of a refused class, and the piece ends with XLT_FAULT, or
with HOST_LOST and a stopped queue when the host is lost (10_translation.md R283; 09_host_port.md R261). -/
def State.pieceFault (s : State) (e : Nat) (p : Piece) (cause : Nat) (va : W64) (write : Bool) : State :=
  let s1 := if cause = 0 then s else s.xltRecord p.pasid va (b2n write) cause (32768 + e) e none
  if cause = 10 then (s1.hostStop p.q).failPiece e p 5 0
  else s1.failPiece e p 8 (BitVec.ofNat 64 p.off)

/-- The poison of n bytes of memory. -/
def State.badBytes (s : State) (host : Bool) (a n : Nat) : List Bool := (List.range n).map (fun k => s.cohBad host (a + k) 1)

/-- The parts of a range of device memory, line by line: the line, the first byte in it, how many bytes, and where they stand in the
range. -/
def lineParts (a n : Nat) : List (Nat × Nat × Nat × Nat) :=
  if n = 0 then [] else
  (List.range ((a % 256 + n + 255) / 256)).map (fun k =>
    let lo := if k = 0 then a % 256 else 0
    let hi := Nat.min 256 (a % 256 + n - 256 * k)
    (a / 256 + k, lo, hi - lo, if k = 0 then 0 else 256 * k - a % 256))

/-- The parts of a read of host memory, none longer than Max_Read_Request_Size (09_host_port.md R232): where each starts, how long it is,
and where it stands in the range. -/
def State.readParts (s : State) (a n : Nat) : List (Nat × Nat × Nat) :=
  let m := 128 * 2 ^ Nat.min 5 (bits s.hpt.cfg.devctl 14 12)
  if n = 0 then [] else
  (List.range ((a % m + n + m - 1) / m)).map (fun k =>
    let lo := if k = 0 then a % m else 0
    let hi := Nat.min m (a % m + n - m * k)
    ((a / m + k) * m + lo, hi - lo, if k = 0 then 0 else m * k - a % m))

/-- One part of a piece's source is read: line by line at its homes in device memory (R27), with CXL.io reads from the host, with READ_REQ
from another device. -/
def State.readPart (s : State) (e : Nat) (p : Piece) (x : Nat × Nat × Target) : State :=
  let more : Nat → State := fun k => s.updPiece e p (fun y => { y with left := y.left + k })
  match s.deadAt x.2.2 with
  | some _ => s.updPiece e p (fun y => { y with bad := some (y.bad.getD (1, y.src)) })
  | none => match x.2.2 with
    | .dev o =>
      let ls := lineParts o x.2.1
      (more ls.length).each ls (fun t l => t.atHome (.unit (.piece e p.q p.slot p.off) (.read (x.1 + l.2.2.2) l.2.1 l.2.2.1))
        (lineFor false (l.1 * 256)))
    | .host h =>
      if s.hpt.hostLost then (s.hostStop p.q).updPiece e p (fun y => { y with bad := some (y.bad.getD (5, 0)) })
      else
        let rs := s.readParts h x.2.1
        (more rs.length).each rs (fun t r => t.ioRead r.1 r.2.1 (.copy e p.q p.slot p.off (x.1 + r.2.2)))
    | .remote d o => (more 1).netSend d.toNat (.piece e p.q p.slot p.off) [readPkt o x.2.1]
    | .bstore _ => s

/-- Stage 0: the source of a piece is translated whole, and then read. -/
def State.readPiece (s : State) (e : Nat) (p : Piece) : State :=
  match rangeTargets (pieceWant e p false) (pagesOf p.src p.srcLen) [] s with
  | .fault c va t => t.pieceFault e p c va false
  | .wait page t => if page then t.updPiece e p (fun y => { y with tries := y.tries + 1 }) else t
  | .all l t =>
    let hosts := (l.map (fun x => match x.2.2 with | .host h => (t.readParts h x.2.1).length | _ => 0)).foldl Nat.add 0
    if decide (hosts > 0) && !t.hpt.hostLost && (!t.busMaster || t.hpt.flr || decide (t.hpt.reads.length + hosts > 1024)) then t
    else (t.updPiece e p (fun y => { y with stage := 1, tries := 0 })).each l (fun u x => u.readPart e p x)

/-- The bytes of a piece's data, and the poisoned ones. -/
def Piece.source (p : Piece) : List Byte × List Bool :=
  if p.zero then (List.replicate p.len 0, List.replicate p.len false)
  else ((List.range p.srcLen).map (fun k => Tab.get 0 p.buf k), (List.range p.srcLen).map (fun k => Tab.get false p.spoilt k))

/-- Source bytes converted by round-to-nearest-even in SAT mode: the destination bytes, which of them come of poisoned bytes, and
the flags (R304). -/
def convertBytes (sf df : Nat) (bs : List Byte) (bad : List Bool) : List Byte × List Bool × BitVec 5 :=
  let sw := fmtBytes sf
  let dw := fmtBytes df
  match fmtOf sf, fmtOf df with
  | some f, some g =>
    let outs := (List.range (bs.length / sw)).map (fun k =>
      let c := convert g 0 true 0 (decodeVal f (leVal ((bs.drop (k * sw)).take sw)))
      (leBytes dw c.1, List.replicate dw (((bad.drop (k * sw)).take sw).any id), c.2))
    (outs.flatMap (fun x => x.1), outs.flatMap (fun x => x.2.1), (outs.map (fun x => x.2.2)).foldl (fun a b => a ||| b) 0)
  | _, _ => (bs, bad, 0)

/-- The poisoned sectors of a line when bytes of it from lo on are written, those marked poisoned. -/
def badSecs (lo : Nat) (bad : List Bool) : BitVec 4 :=
  bad.zipIdx.foldl (fun m x => if x.1 then m ||| (1#4 <<< ((lo + x.2) / 64)) else m) 0

/-- Bytes are written in host memory, and the sectors that poisoned bytes go to become poisoned. -/
def State.hostPut (s : State) (a : Nat) (bs : List Byte) (bad : List Bool) : State :=
  s.each (lineParts a bs.length) (fun t l =>
    let part := (bs.drop l.2.2.2).take l.2.2.1
    t.ioLine (lineFor true (l.1 * 256)) (maskOf l.2.1 part.length) (linePut 0 l.2.1 part) (badSecs l.2.1 ((bad.drop l.2.2.2).take l.2.2.1)))

/-- Bytes are written by one of the device's units, and the sectors that poisoned bytes go to become poisoned. -/
def State.writeBad (s : State) (host : Bool) (a : Nat) (bs : List Byte) (bad : List Bool) : State :=
  if host then s.hostPut a bs bad
  else s.each (lineParts a bs.length) (fun t l =>
    let part := (bs.drop l.2.2.2).take l.2.2.1
    t.postLine (lineFor false (l.1 * 256)) (maskOf l.2.1 part.length) (linePut 0 l.2.1 part) (badSecs l.2.1 ((bad.drop l.2.2.2).take l.2.2.1)))

/-- The bytes of a piece go to the homes of the device lines that they lie in, each line as one write, with Zero requests for whole lines
of zeros (R303; 07_caches_and_coherence.md R198); the sectors that poisoned bytes go to become poisoned. The piece waits until they
stand there. -/
def State.devPut (s : State) (e : Nat) (p : Piece) (a : Nat) (bs : List Byte) (bad : List Bool) : State :=
  let ls := lineParts a bs.length
  (s.updPiece e p (fun y => { y with stage := 2, left := ls.length })).each ls (fun t l =>
    let part := (bs.drop l.2.2.2).take l.2.2.1
    t.atHome (.unit (.piece e p.q p.slot p.off) (.write (maskOf l.2.1 part.length) (linePut 0 l.2.1 part)
      (badSecs l.2.1 ((bad.drop l.2.2.2).take l.2.2.1)))) (lineFor false (l.1 * 256)))

/-- The byte that stands at an address now, where this device can look. -/
def State.byteNow (s : State) (pasid : BitVec 20) (va : W64) : Option Byte :=
  match (s.lookup queUnit pasid va).1 with
  | .hit (.dev o) _ => (s.cohRead false o 1).head?
  | .hit (.host h) _ => (s.cohRead true h 1).head?
  | _ => none

/-- Where a source byte lies in the destination, the copy takes the byte that was read or the one that stands there now, before or after
the copy has written it, and no rule says which (R304; notes/assumptions 17). -/
def State.overlapped (s : State) (c : Cmd) (p : Piece) (bs : List Byte) : List Byte × State :=
  let base := c.srcAt p.off
  let at' : Nat → W64 := fun k => base + BitVec.ofNat 64 k
  let hit := (List.range bs.length).map (fun k => c.writes (at' k))
  if p.zero || !(hit.any id) then (bs, s)
  else
    (bs.zipIdx.map (fun x =>
      if hit.getD x.2 false && (Config.freeValue (s.free + x.2)).getLsbD 0 then (s.byteNow p.pasid (at' x.2)).getD x.1 else x.1),
     s.took bs.length)

/-- The first poisoned byte of a piece's destination. -/
def firstBadByte (bad : List Bool) : Option Nat := (List.range bad.length).find? (fun k => bad.getD k false)

/-- A piece is written whole: the command counts its bytes, and learns of poison. -/
def State.endPieceOk (s : State) (e : Nat) (p : Piece) (bad : List Bool) : State :=
  let s1 := s.setEng e { s.eng e with bytes := satAdd (s.eng e).bytes p.len }
  let s2 := match firstBadByte bad with
    | some k => s1.updCmd p.q p.slot (Cmd.pieceFail 9 (BitVec.ofNat 64 (p.off + k)))
    | none => s1
  s2.dropPiece e p

/-- Stage 1: the data of a piece is written to its destination: at its homes in device memory, with CXL.io to the host, with WRITE packets
to another device. -/
def State.writePiece (s : State) (e : Nat) (p : Piece) (c : Cmd) : State :=
  match rangeTargets (pieceWant e p true) [(p.dst, 0, p.len)] [] s with
  | .fault k va t => t.pieceFault e p k va true
  | .wait page t => if page then t.updPiece e p (fun y => { y with tries := y.tries + 1 }) else t
  | .all l t0 =>
    match l with
    | [] => t0.endPieceOk e p []
    | (_, _, g) :: _ =>
      let src := p.source
      let ov := t0.overlapped c p src.1
      let out := match p.cvt with
        | some (sf, df) => convertBytes sf.toNat df.toNat ov.1 src.2
        | none => (ov.1, src.2, 0)
      let t := ov.2.updCmd p.q p.slot (fun x => { x with flags := x.flags ||| out.2.2 })
      match t.deadAt g with
      | some _ => t.failPiece e p 1 p.dst
      | none => match g with
        | .dev o => t.devPut e p o out.1 out.2.1
        | .host h =>
          if t.hpt.hostLost then
            let u : State := { t with hpt := { t.hpt with hlDiscard := satAdd t.hpt.hlDiscard ((h % 64 + p.len + 63) / 64) } }
            (u.hostStop p.q).failPiece e p 5 0
          else if t.hpt.flr then
            let u : State := { t with hpt := { t.hpt with flrLost := satAdd t.hpt.flrLost ((h % 64 + p.len + 63) / 64) } }
            u.failPiece e p 5 0
          else if !t.busMaster then t0
          else ((t.hostPut h out.1 out.2.1).mwr h out.1 true).endPieceOk e p out.2.1
        | .remote d o =>
          let ps := writePkts o out.1
          (t.updPiece e p (fun y => { y with stage := 2, left := ps.length })).netSend d.toNat (.piece e p.q p.slot p.off) ps
        | .bstore _ => t

/-- A piece goes on from where it stands. -/
def State.stepPiece (s : State) (e : Nat) (p : Piece) : State :=
  if p.left > 0 then s
  else match p.bad with
    | some (st, a) => s.failPiece e p st (if st = 8 ∨ st = 9 then BitVec.ofNat 64 p.off else a)
    | none =>
      if p.stage = 2 then s.endPieceOk e p (match p.cvt with
        | some (sf, df) => (convertBytes sf.toNat df.toNat p.source.1 p.source.2).2.1
        | none => p.source.2)
      else if p.stage = 0 ∧ p.zero = false then s.readPiece e p
      else match s.cmd p.q p.slot with
        | some c => s.writePiece e p c
        | none => s.dropPiece e p

/-- The oldest piece of an engine, as it stands. -/
def State.oldest (s : State) (e : Nat) : Option Piece := (s.eng e).pieces.head?

/-- A piece of an engine goes on while it comes a stage further. -/
def State.stepOn : Nat → Nat → Piece → State → State
  | 0, _, _, s => s
  | n + 1, e, p, s =>
    let t := s.stepPiece e p
    match t.oldest e with
    | some y => if y.q = p.q ∧ y.slot = p.slot ∧ y.off = p.off ∧ p.stage < y.stage then State.stepOn n e y t else t
    | none => t

/-- COPY_PIECE_COMPLETE: engine e goes on with its oldest piece, which is read, written, and complete once its data stands at its
destination (R303, R305). Where a home, the host or another device owes data or an acknowledgement, the piece waits for it. -/
def execCopyPieceComplete (e : Fin 16) (s : State) : Host.Outcome State Fault Refusal :=
  .next (if s.engServes e.val = false then s
    else match s.oldest e.val with
      | none => s
      | some p => State.stepOn 3 e.val p s)

end Sys2Proof.Machine
end

