-- ==== Sys2Proof/Machine/CollOps.lean ====
section
/-! DEFINITION. The operations of the collective engines: groups and nodes, claims and hawk-store slots, contributions and results,
and the endpoint algorithms (13_collectives_and_hawk_store.md). -/
namespace Sys2Proof.Machine

/-! ### Groups (R348 to R350, Table 13-1) -/

/-- The bytes of a list of device numbers, entry i. -/
def State.devList (s : State) (base i : Nat) : W16 := BitVec.ofNat 16 (leVal (s.cohRead false (base + 2 * i) 2))
/-- Member m of a group. -/
def State.gMember (s : State) (e : BitVec 512) (m : Nat) : W16 := s.devList (bits e 127 64) m
/-- Entry i of NLIST: 0 the system node, p the node of the p-th pod. -/
def State.gNode (s : State) (e : BitVec 512) (i : Nat) : W16 := s.devList (bits e 191 128) i
/-- The pod of a device number: bits [15:8] (01_architecture.md R30). -/
def podOf (d : W16) : Nat := d.toNat / 256
/-- The members of a group. -/
def State.gMembers (s : State) (e : BitVec 512) : List W16 := (List.range (groupN e)).map (s.gMember e)
/-- The pods present in a group, ascending. -/
def State.gPods (s : State) (e : BitVec 512) : List Nat := ((s.gMembers e).map podOf).eraseDups
/-- Whether a group spans several pods. -/
def State.gMulti (s : State) (e : BitVec 512) : Bool := decide ((s.gPods e).length > 1)
/-- This device's member index. -/
def gSelf (e : BitVec 512) : Nat := bits e 15 0
/-- NODE. -/
def gNodeKind (e : BitVec 512) : Nat := bits e 62 61
/-- MCAST. -/
def gMcast (e : BitVec 512) : Bool := bit e 60
/-- EPOCH. -/
def gEpoch (e : BitVec 512) : W32 := BitVec.ofNat 32 (bits e 319 288)
/-- STAGE. -/
def gStage (e : BitVec 512) : Nat := bits e 255 192
/-- STAGE_LEN in bytes. -/
def gStageLen (e : BitVec 512) : Nat := bits e 287 256 * 4096
/-- The position of a pod in NLIST. -/
def State.podPos (s : State) (e : BitVec 512) (pod : Nat) : Nat := (s.gPods e).idxOf pod + 1
/-- The member indices of the pod at position p of NLIST. -/
def State.podMembers (s : State) (e : BitVec 512) (p : Nat) : List Nat :=
  (List.range (groupN e)).filter (fun m => s.podPos e (podOf (s.gMember e m)) == p)
/-- The children of a role: pod nodes of the system node, members of a pod node. -/
def State.kids (s : State) (e : BitVec 512) (role : Nat) : List Nat :=
  if role = 0 then (List.range (s.gPods e).length).map (fun k => k + 1) else s.podMembers e role
/-- The device of a child of a role. -/
def State.kidDev (s : State) (e : BitVec 512) (role c : Nat) : W16 := if role = 0 then s.gNode e c else s.gMember e c
/-- The top role of a group. -/
def State.topRole (s : State) (e : BitVec 512) : Nat := if s.gMulti e then 0 else 1

/-- Whether a collective engine is in service: its region, its domain and itself. -/
def State.collServes (s : State) (r : Nat) : Bool :=
  !s.regionDust r && s.domOn (13 + 9 * r) && !s.flt.dust.any (fun u => match u with | .collective k => k.val == r | _ => false)

/-- The engine that serves a group: ENGINE, or the next region in service (R350). -/
def State.collEngine (s : State) (e : BitVec 512) : Option Nat :=
  ((List.range 5).map (fun k => (bits e 59 57 + k) % 5)).find? s.collServes

/-! ### What a collective is (Table 13-2, R351 to R355) -/

/-- The fields of a COLL descriptor. -/
def cOp (d : BitVec 512) : Nat := dfield d 42 1
/-- FMT. -/
def cFmt (d : BitVec 512) : Nat := bits d 347 344
/-- WFMT. -/
def cWf (d : BitVec 512) : Nat := bits d 351 348
/-- COUNT. -/
def cCount (d : BitVec 512) : Nat := dfield d 32 8
/-- RED. -/
def cRed (d : BitVec 512) : Nat := dfield d 44 1
/-- ROOT. -/
def cRoot (d : BitVec 512) : Nat := dfield d 46 2
/-- The digest: the CRC-32C of bytes 32 to 47 (R349). -/
def cDigest (d : BitVec 512) : W32 := crc32c (leBytes 16 (dfield d 32 16))
/-- The elements that a collective works on: those of its result, or of its inputs for reduce-scatter. -/
def cTotal (d : BitVec 512) (n : Nat) : Nat := if cOp d = 1 ∨ cOp d = 2 ∨ cOp d = 5 then n * cCount d else cCount d
/-- The elements of a chunk. -/
def chunkElems : Nat := 16384
/-- How many chunks a collective has. -/
def cChunks (d : BitVec 512) (n : Nat) : Nat := (cTotal d n + chunkElems - 1) / chunkElems
/-- How many elements chunk k has. -/
def cElems (d : BitVec 512) (n k : Nat) : Nat := Nat.min chunkElems (cTotal d n - k * chunkElems)

/-- The bytes of chunk k that a child of a role contributes, from and up to: of a gather the part of its blocks, of a broadcast all
when the root is below it. -/
def State.contribRange (s : State) (e : BitVec 512) (d : BitVec 512) (role c k : Nat) : Nat × Nat :=
  let n := groupN e
  let el := cElems d n k
  let mine := if role = 0 then s.podMembers e c else [c]
  if reduces (cOp d) then (0, el * (if role = 0 then 32 else fmtW (cWf d)) / 8)
  else if cOp d = 2 then
    let lo := Nat.max (k * chunkElems) (mine.headD 0 * cCount d)
    let hi := Nat.min (k * chunkElems + el) ((mine.getLastD 0 + 1) * cCount d)
    if lo < hi then ((lo - k * chunkElems) * fmtW (cFmt d) / 8, (hi - k * chunkElems) * fmtW (cFmt d) / 8) else (0, 0)
  else if mine.any (fun m => m == cRoot d) then (0, el * fmtW (cFmt d) / 8) else (0, 0)

/-- The bytes of a chunk's result. -/
def resultBytes (d : BitVec 512) (n k : Nat) : Nat := cElems d n k * fmtW (cWf d) / 8

/-- One step of a reduction in FP32 (R354). -/
def redStep (red : Nat) (a b : Nat) : Nat :=
  let x := decodeVal fp32 a
  let y := decodeVal fp32 b
  match red with
  | 0 => (finish fp32 0 false (addV x y)).1
  | 1 => (convert fp32 0 false 0 (minMax false x y)).1
  | _ => (convert fp32 0 false 0 (minMax true x y)).1

/-- A code widened exactly to FP32 (R354). -/
def widen32 (fmt code : Nat) : Nat :=
  match fmtOf fmt with | some f => (convert fp32 0 false 0 (decodeVal f code)).1 | none => 0

/-- The result code of an FP32 sum: rounded once to FMT in SAT mode when narrow (R355). -/
def resultCode (d : BitVec 512) (sum : Nat) : Nat :=
  if cWf d = 0 then sum
  else match fmtOf (cWf d) with | some f => (convert f 0 true 0 (decodeVal fp32 sum)).1 | none => 0

/-! ### Sending (R358, Table 13-4) -/

/-- A device offset in collective space. -/
def collAddr (g kind low : Nat) : Nat := 3 * 2 ^ 44 + g * 2 ^ 32 + kind * 2 ^ 28 + low
/-- Whether an address lies in collective space. -/
def isCollAddr (a : W64) : Bool := bits a 45 44 == 3
/-- What a packet of a collective is: a kind (0 CLAIM of a member, 1 its CONTRIB, 2 a node's RESULT, 3 DONE, 4 STAGE, 5 CLAIM of a
peer, 6 repair, 7 CLAIM of a pod node, 8 its CONTRIB), a role and a chunk. -/
def collWhat (kind role chunk : Nat) : Nat := kind + 16 * (role + 65536 * chunk)

/-- Packets of a collective go to a device: to another over the network, to a role of this one directly. -/
def State.collSend (s : State) (g : Nat) (seq : W16) (what : Nat) (dev : W16) (ps : List TxPkt) : State :=
  if dev = s.xlt.devnum then
    { s with col := { s.col with own := s.col.own ++ ps.map (fun p => { what := what, group := g, seq := seq.toNat, pkt := p }) } }
  else s.netSend dev.toNat (.coll g seq.toNat what) ps

/-- The 64-bit ATOMIC of a CLAIM. -/
def claimPkt (g : Nat) (seq : W16) (child : Nat) (digest : W32) (epoch : W32) (slots : Nat) : TxPkt :=
  atomicPkt (collAddr g 0 0) 0 true (BitVec.ofNat 64 (seq.toNat * 2 ^ 48 + child * 2 ^ 32 + digest.toNat))
    (BitVec.ofNat 64 (epoch.toNat % 65536 * 2 ^ 48 + slots))

/-- The WRITE packets of bytes of a chunk from byte lo on. -/
def chunkPkts (g kind k lo : Nat) (aux : W32) (bs : List Byte) : List TxPkt :=
  messageOf 0 aux (collAddr g kind (k % 4096 * 65536)) (chunksAt 4096 (bs.length / 4096 + 2) lo bs)

/-- The global address of a place in another device's collective space, as a completion's INFO gives it. -/
def collInfo (dev : W16) (a : W64) : W64 := BitVec.ofNat 64 (3 * 2 ^ 62 + dev.toNat * 2 ^ 46 + bits a 45 0)

/-! ### The parts of an engine -/

/-- The state with a member's collective changed. -/
def State.updMember (s : State) (r g : Nat) (seq : W16) (f : MemberColl → MemberColl) : State :=
  s.setCeng r { s.ceng r with members := updWhere (fun m : MemberColl => m.group == g && decide (m.seq = seq)) f (s.ceng r).members }
/-- The engine and the collective of a member. -/
def State.findMember (s : State) (g : Nat) (seq : W16) : Option (Nat × MemberColl) :=
  (List.range 5).findSome? (fun r => ((s.ceng r).members.find? (fun m => m.group == g && decide (m.seq = seq))).map (fun m => (r, m)))
/-- The state with a node's collective changed. -/
def State.updNode (s : State) (r g : Nat) (seq : W16) (role : Nat) (f : NodeColl → NodeColl) : State :=
  s.setCeng r { s.ceng r with nodes := updWhere (fun m : NodeColl => m.group == g && decide (m.seq = seq) && m.role == role) f (s.ceng r).nodes }
/-- A node's collective. -/
def State.findNode (s : State) (r g : Nat) (seq : W16) (role : Nat) : Option NodeColl :=
  (s.ceng r).nodes.find? (fun m => m.group == g && decide (m.seq = seq) && m.role == role)
/-- The state in which a node has forgotten a collective. -/
def State.dropNode (s : State) (r g : Nat) (seq : W16) (role : Nat) : State :=
  let left := (s.ceng r).nodes.filter (fun y => !(y.group == g && decide (y.seq = seq) && y.role == role))
  s.setCeng r { s.ceng r with nodes := left }
/-- The state with a slot changed. -/
def State.updSlot (s : State) (r : Nat) (x : Slot) (f : Slot → Slot) : State :=
  let out := updWhere
    (fun y : Slot => y.group == x.group && decide (y.seq = x.seq) && y.role == x.role && y.chunk == x.chunk) f (s.ceng r).slots
  s.setCeng r { s.ceng r with slots := out }
/-- The slots of a node's collective. -/
def State.slotsOf (s : State) (r g : Nat) (seq : W16) (role : Nat) : List Slot :=
  (s.ceng r).slots.filter (fun y => y.group == g && decide (y.seq = seq) && y.role == role)
/-- The hawk-store slots that an engine's collectives have claimed. -/
def CollEngine.used (c : CollEngine) : Nat := (c.nodes.map (fun n => n.slots)).foldl Nat.add 0
/-- Whether a node still runs a collective: it holds slots for it, or owes its children an answer (notes/assumptions 26). -/
def NodeColl.runs (n : NodeColl) : Bool := n.slots != 0 || (!n.failed && !n.timedOut && n.waiting != [])
/-- The collectives that an engine runs in any role, by group and SEQ. -/
def CollEngine.runs (c : CollEngine) : List (Nat × W16) :=
  (((c.nodes.filter NodeColl.runs).map (fun n => (n.group, n.seq))) ++ (c.members.map (fun m => (m.group, m.seq)))).eraseDups
/-- COL_CTL.SLOTS; 0 acts as 1. -/
def CollEngine.ctlSlots (c : CollEngine) : Nat := if bits c.ctl 7 4 = 0 then 1 else bits c.ctl 7 4

/-- A member's COLL ends with a status; one that did not end well sends nothing further. -/
def State.endMember (s : State) (r : Nat) (m : MemberColl) (st : Byte) (info : W64) : State :=
  let c := s.ceng r
  let s1 := s.setCeng r { c with
    members := c.members.filter (fun x => !(x.q == m.q && x.slot == m.slot)),
    stages := c.stages.filter (fun x => !(x.group == m.group && decide (x.seq = m.seq))) }
  (if st = 0 then s1 else s1.hush m.group m.seq.toNat).updCmd m.q m.slot (fun x => if x.op = 3 ∧ x.stat = .running then x.ended st info else x)

/-- A node lets a collective's slots go. -/
def State.freeSlots (s : State) (r g : Nat) (seq : W16) (role : Nat) : State :=
  let s1 := s.updNode r g seq role (fun n => { n with slots := 0 })
  let left := (s1.ceng r).slots.filter (fun y => !(y.group == g && decide (y.seq = seq) && y.role == role))
  s1.setCeng r { s1.ceng r with slots := left }

/-- A class-10 record of a collective: group, SEQ and the missing children (15_faults_and_dust_sheets.md Table 15-6). -/
def State.collRecord (s : State) (r code g : Nat) (seq : W16) (missing : Nat) : State :=
  s.offer (s.plainRec 10 r 0 code 0 (leBytes 2 g ++ leBytes 2 seq.toNat ++ leBytes 28 missing)) none

/-! ### Local memory of a member (R351, R357) -/

/-- A COLL's access to its buffers. -/
def collWant (q slot : Nat) (pasid : BitVec 20) (tries : Nat) : Want :=
  { unit := netUnit, who := .queue q slot, pasid := pasid, va := 0, write := false, fetch := false, tries := tries }

/-- A COLL's read or write of n bytes of its buffers. -/
def State.collMem (s : State) (m : MemberColl) (va : W64) (n : Nat) (w : Option (List Byte)) : VirtOut :=
  match s.cmd m.q m.slot with
  | none => .wait false s
  | some c =>
    if n = 0 then .ok [] s else
    let want := collWant m.q m.slot (s.q m.q).pasid c.tries
    let r := match w with
      | none => State.virtRead want (pagesOf va n) [] s
      | some bs => State.virtWrite want bs (pagesOf va n) s
    match r with
    | .wait true t => .wait true (t.updCmd m.q m.slot (fun c => { c with tries := c.tries + 1 }))
    | x => x

/-- The status and INFO of a COLL whose buffer could not be read or written. -/
def memStatus (st : Byte) (va : W64) : Byte × W64 := (st, if st = 1 then va else 0)

/-- SBUF of a COLL. -/
def cSbuf (d : BitVec 512) : W64 := BitVec.ofNat 64 (dfield d 16 8)
/-- RBUF of a COLL. -/
def cRbuf (d : BitVec 512) : W64 := BitVec.ofNat 64 (dfield d 24 8)

/-- Whether SBUF and RBUF of a COLL overlap other than in place for an all-reduce: RBUF is then undefined (R351). -/
def cOverlap (d : BitVec 512) (n : Nat) : Bool :=
  let el := bufElems (cOp d) n (cCount d)
  let sb := (el.1 * fmtW (cFmt d) + 7) / 8
  let rb := (el.2 * fmtW (cWf d) + 7) / 8
  !(cOp d == 0 && decide (cSbuf d = cRbuf d)) &&
    (decide ((cRbuf d - cSbuf d).toNat < sb) || decide ((cSbuf d - cRbuf d).toNat < rb))

/-- Bytes of RBUF, which are free values where RBUF is undefined (notes/assumptions 17). -/
def State.rbufBytes (s : State) (d : BitVec 512) (n : Nat) (bs : List Byte) : List Byte × State :=
  if cOverlap d n then (bs.zipIdx.map (fun x => (Config.freeValue (s.free + x.2)).setWidth 8), s.took bs.length) else (bs, s)

/-- Where in RBUF a range of result bytes of chunk k goes: the bytes that are kept and their offset. Reduce-scatter keeps its own
block, a reduction to a root is kept by the root alone. -/
def rbufPart (d : BitVec 512) (self k at' : Nat) (bs : List Byte) : Nat × List Byte :=
  let w := fmtW (cWf d)
  let pos := k * chunkElems * w / 8 + at'
  if cOp d = 4 ∧ self ≠ cRoot d then (0, [])
  else if cOp d = 1 then
    let lo := self * cCount d * w / 8
    let hi := (self + 1) * cCount d * w / 8
    let a := Nat.max lo pos
    let b := Nat.min hi (pos + bs.length)
    if a < b then (a - lo, (bs.drop (a - pos)).take (b - a)) else (0, [])
  else (pos, bs)

/-! ### A member on the tree (R361, R363, R364) -/

/-- The chunk of a member or node that a chunk number modulo 4,096 names, from the lowest chunk still open. -/
def chunkFrom (low m : Nat) : Nat := low + (m + 4096 - low % 4096) % 4096

/-- The lowest chunk that is not in a list. -/
def lowOpen : Nat → List Nat → Nat → Nat
  | 0, _, k => k
  | n + 1, got, k => if got.any (fun x => x == k) then lowOpen n got (k + 1) else k

/-- The lowest chunk that a member has not finished. -/
def MemberColl.low (m : MemberColl) : Nat := lowOpen (m.got.length + 1) m.got 0

/-- A member sends its chunks in order, while at most S are without a result. -/
def State.sendChunks : Nat → Nat → Nat → W16 → State → State
  | 0, _, _, _, s => s
  | fuel + 1, r, g, seq, s =>
    match s.findMember g seq with
    | none => s
    | some (_, m) =>
      match s.cmd m.q m.slot, s.groupEntry g with
      | some c, some e =>
        let d := c.desc
        let n := groupN e
        let total := cChunks d n
        let limit := Nat.min total (s.ceng r).ctlSlots
        if m.way ≠ .tree ∨ m.sent ≥ total ∨ m.sent - m.got.length ≥ limit then s
        else
          let k := m.sent
          let pos := s.podPos e (podOf s.xlt.devnum)
          let rg := s.contribRange e d pos (gSelf e) k
          let next : State → State := fun t => State.sendChunks fuel r g seq (t.updMember r g seq (fun x => { x with sent := x.sent + 1 }))
          if rg.1 ≥ rg.2 then next s
          else
            let w := fmtW (cFmt d)
            let ew := if reduces (cOp d) then fmtW (cWf d) else w
            let first := if cOp d = 2 then k * chunkElems * w / 8 + rg.1 - gSelf e * cCount d * w / 8 else k * chunkElems * w / 8
            let len := (rg.2 - rg.1) * w / ew
            match s.collMem m (cSbuf d + BitVec.ofNat 64 first) len none with
            | .wait _ t => t
            | .bad st t => t.endMember r m (memStatus st (cSbuf d + BitVec.ofNat 64 first)).1 (memStatus st (cSbuf d + BitVec.ofNat 64 first)).2
            | .ok bs t =>
              let out := if reduces (cOp d) ∧ ew ≠ w then (unpack w bs).flatMap (fun x => leBytes 4 (widen32 (cFmt d) x)) else bs
              next (t.collSend g seq (collWhat 1 0 k) (s.gNode e pos) (chunkPkts g 1 k rg.1 (BitVec.ofNat 32 (seq.toNat * 65536 + gSelf e)) out))
      | _, _ => s

/-- Whether a member has finished every chunk. -/
def State.treeDone (s : State) (r g : Nat) (seq : W16) : State :=
  match s.findMember g seq with
  | none => s
  | some (_, m) => match s.cmd m.q m.slot, s.groupEntry g with
    | some c, some e =>
      if m.way = .tree ∧ m.got.length ≥ cChunks c.desc (groupN e) then
        match m.poisonAt with
        | some o => s.endMember r m 9 (BitVec.ofNat 64 o)
        | none => s.endMember r m 0 0
      else s
    | _, _ => s

/-- What becomes of bytes of a result at a member: taken, or not yet because RBUF waits for its translation. -/
inductive Landed where
  | ok (s : State)
  | wait (s : State)

/-- Bytes of a result chunk reach a member: they are written to RBUF, and the last of a chunk finishes it, with DONE under
multicast (R361, R364). -/
def State.landResult (s : State) (g : Nat) (seq : W16) (mod at' : Nat) (bs : List Byte) : Landed :=
  match s.findMember g seq with
  | none => .ok s
  | some (r, m) => match s.cmd m.q m.slot, s.groupEntry g with
    | some c, some e =>
      let d := c.desc
      let n := groupN e
      let k := chunkFrom m.low mod
      if m.way ≠ .tree ∨ k ≥ cChunks d n ∨ m.got.any (fun x => x == k) ∨ m.parts.any (fun x => x.1 == k && x.2.1 == at') then .ok s
      else
        let part := rbufPart d (gSelf e) k at' bs
        let fb := s.rbufBytes d n part.2
        let va := cRbuf d + BitVec.ofNat 64 part.1
        match fb.2.collMem m va fb.1.length (some fb.1) with
        | .wait _ t => .wait t
        | .bad st t => .ok (t.endMember r m (memStatus st va).1 (memStatus st va).2)
        | .ok _ t =>
          let parts := m.parts ++ [(k, at', bs.length)]
          let have' := ((parts.filter (fun x => x.1 == k)).map (fun x => x.2.2)).foldl Nat.add 0
          if have' < resultBytes d n k then .ok (t.updMember r g seq (fun x => { x with parts := parts }))
          else
            let t1 := t.updMember r g seq (fun x => { x with parts := parts.filter (fun y => y.1 != k), got := x.got ++ [k] })
            let pos := s.podPos e (podOf s.xlt.devnum)
            let t2 := if gMcast e then
                t1.collSend g seq (collWhat 3 0 k) (s.gNode e pos) [atomicPkt (collAddr g 3 (k % 4096 * 65536)) 0 true
                  (BitVec.ofNat 64 (seq.toNat * 2 ^ 48 + gSelf e * 2 ^ 32)) 0]
              else t1
            .ok (t2.treeDone r g seq)
    | _, _ => .ok s

/-! ### A node (R359 to R361) -/

/-- The answer of a CLAIM goes to a child: as ATOMIC_RESP over the network, kept for retransmissions, or directly. -/
def State.answerClaim (s : State) (g : Nat) (seq : W16) (w : Nat × W16 × BitVec 24) (what : Nat) (v : Nat) : State :=
  if w.2.1 = s.xlt.devnum then
    let x : CollNews := { group := g, seq := seq.toNat, what := what, dev := w.2.1, addr := 0, old := some (BitVec.ofNat 64 v),
                          status := none, off := 0, bytes := [] }
    { s with col := { s.col with news := s.col.news ++ [x] } }
  else
    let n := w.2.1.toNat
    let s1 := s.setQp n { s.qp n with atomics := ((s.qp n).atomics ++ [(w.2.2, BitVec.ofNat 64 v)]).drop ((s.qp n).atomics.length + 1 - 16) }
    s1.netSend n .reply [mkPkt 5 0 (BitVec.ofNat 32 w.2.2.toNat) (leBytes 8 v)]

/-- A node's decision is known: the children that have claimed are answered, and a refused collective is forgotten once every child
has been; COL_BUSY counts it once (Table 13-5). -/
def State.settleClaims (s : State) (r : Nat) (e : BitVec 512) (x : NodeColl) : State :=
  let top := x.role == s.topRole e
  let all := (s.kids e x.role).all (fun c => x.claimed.any (fun y => y == c) || x.waiting.any (fun y => y.1 == c))
  let ready := if x.role = 0 then all else top || x.answer.isSome || !x.granted && x.answer.isSome
  if !ready || x.waiting = [] then s
  else
    let ok := x.granted && (top || x.answer == some 0)
    let what : Nat → Nat := fun c => if x.role = 0 then collWhat 7 c 0 else collWhat 0 x.role 0
    let ce := s.ceng r
    let s1 := if ok then s else (s.freeSlots r x.group x.seq x.role).setCeng r
      { (s.freeSlots r x.group x.seq x.role).ceng r with busy := satAdd ce.busy (b2n x.claimed.isEmpty) }
    let s2 := s1.each x.waiting (fun t w => t.answerClaim x.group x.seq w (what w.1) (if ok then 0 else 1))
    let s3 := s2.updNode r x.group x.seq x.role (fun y => { y with claimed := y.claimed ++ x.waiting.map (fun w => w.1), waiting := [] })
    let done := all && !ok
    if done then s3.dropNode r x.group x.seq x.role else s3

/-- What a packet of collective space gives. -/
inductive CollAns where
  | ok
  | refuse (st : Byte)
  | old (v : Nat)
  | later
  | hold
  | bytes (bs : List Byte)
  deriving DecidableEq, Repr

/-- A CLAIM arrives at a node: the first of its SEQ decides, and a pod node below a system node claims there (R360). A pod node that cannot
grant claims no slots there, so that every pod is answered BUSY. -/
def State.nodeClaim (s : State) (r : Nat) (e : BitVec 512) (g : Nat) (seq : W16) (role : Nat) (digest : W32) (slots : Nat)
    (w : Nat × W16 × BitVec 24) : CollAns × State :=
  match s.findNode r g seq role with
  | some x =>
    if x.failed then (.refuse 3, s)
    else if x.timedOut then (.refuse 1, s)
    else if x.digest ≠ digest then (.old 2, s)
    else
      let x1 := { x with waiting := x.waiting ++ [w], granted := x.granted && (role != 0 || slots != 0) }
      let s1 := s.updNode r g seq role (fun _ => x1)
      (.later, s1.settleClaims r e x1)
  | none =>
    let c := s.ceng r
    let n := Nat.min slots c.ctlSlots
    let ok := slots != 0 && bit c.ctl 0 && decide (c.used + n ≤ 128)
    let desc := (s.findMember g seq).bind (fun y => (s.cmd y.2.q y.2.slot).map (fun z => z.desc))
    let x : NodeColl := { group := g, seq := seq, role := role, digest := digest, claimed := [], waiting := [w], granted := ok, answer := none,
                          slots := if ok then n else 0, chunksDone := 0, failed := false, timedOut := false, desc := desc }
    let old := c.nodes.filter (fun y => !(y.group == g && (y.failed || y.timedOut) && decide ((seq - y.seq).toNat < 32768) &&
      decide ((seq - y.seq).toNat > 16384)))
    let s1 := s.setCeng r { c with nodes := old ++ [x] }
    let s2 := if role ≠ 0 ∧ s.gMulti e then
        s1.collSend g seq (collWhat 7 role 0) (s.gNode e 0) [claimPkt g seq role digest (gEpoch e) (if ok then n else 0)]
      else s1
    (.later, s2.settleClaims r e x)

/-- The bytes of child c that have come for a slot. -/
def Slot.gave (x : Slot) (c : Nat) : Nat := ((x.parts.filter (fun p => p.child == c)).map (fun p => p.bytes.length)).foldl Nat.add 0

/-- The sums of a slot in FP32, each element from the contributions in their order of arrival (R354, R361). -/
def Slot.sums (x : Slot) (d : BitVec 512) (elems : Nat) : List Nat :=
  let w := if x.role = 0 then 4 else fmtW (cWf d) / 8
  let val : Contrib → Nat → Option Nat := fun p i =>
    if p.at' ≤ i * w ∧ i * w + w ≤ p.at' + p.bytes.length then
      let code := leVal ((p.bytes.drop (i * w - p.at')).take w)
      some (if x.role = 0 then code else widen32 (cWf d) code)
    else none
  (List.range elems).map (fun i => (x.parts.foldl (fun (a : Option Nat) p => match val p i, a with
    | none, _ => a
    | some v, none => some v
    | some v, some u => some (redStep (cRed d) u v)) none).getD 0)

/-- The data of a slot that is gathered or broadcast, from byte lo up to hi. -/
def Slot.gathered (x : Slot) (lo hi : Nat) : List Byte :=
  let t : Tab Byte := x.parts.foldl (fun a p => p.bytes.zipIdx.foldl (fun b y => Tab.set 0 b (p.at' + y.2) y.1) a) []
  (List.range (hi - lo)).map (fun k => Tab.get 0 t (lo + k))

/-- The repair reads that waited for a slot's result are answered (R364). -/
def State.answerAsks (s : State) (r : Nat) (x : Slot) : State :=
  (s.updSlot r x (fun y => { y with asks := [] })).each x.asks (fun t a =>
    t.netSend a.1.toNat .reply (messageOf 2 (BitVec.ofNat 32 a.2.1.toNat) 0
      (chunksAt 4096 (a.2.2.2 / 4096 + 2) 0 ((List.range a.2.2.2).map (fun k => Tab.get 0 x.bytes (a.2.2.1 + k))))))

/-- A node's RESULT goes to its children: one multicast frame for each packet to the members of its pod, or a copy to each child
(R363, R364). -/
def State.sendResult (s0 : State) (r : Nat) (e : BitVec 512) (x : Slot) (len : Nat) : State :=
  let s := s0.answerAsks r x
  let bs := (List.range len).map (fun k => Tab.get 0 x.bytes k)
  let ps := chunkPkts x.group 2 x.chunk 0 (BitVec.ofNat 32 (x.seq.toNat * 65536)) bs
  let kids := s.kids e x.role
  let what := collWhat 2 x.role x.chunk
  if gMcast e ∧ x.role ≠ 0 then
    let mask : BitVec 256 := BitVec.ofNat 256 (kids.foldl (fun a m => a + 2 ^ ((s.gMember e m).toNat % 256)) 0)
    let pod := (s.gPods e).getD (x.role - 1) 0
    let i := ((List.range 20).find? (fun k => s.imask.getLsbD k && s.ifcServes k)).getD 0
    let s1 := s.updSlot r x (fun y => { y with result := true, owed := kids })
    let s2 := ps.zipIdx.foldl (fun (t : State) p =>
      let q : TxPkt := { p.1 with mcast := some (BitVec.ofNat 8 pod, mask), dst := BitVec.ofNat 16 (256 * pod), dstIfc := 0xFFFF,
                                  gen := (gEpoch e).setWidth 8, dqpn := s.xlt.devnum.toNat, sqpn := s.xlt.devnum.toNat, ts := s.nclk32,
                                  psn := Tab.get 0 s.col.mseq x.group + BitVec.ofNat 24 p.2 }
      t.sendPkt i q) s1
    let s3 := { s2 with col := { s2.col with mseq := Tab.set 0 s2.col.mseq x.group (Tab.get 0 s2.col.mseq x.group + BitVec.ofNat 24 ps.length) } }
    if kids.any (fun m => decide (s.gMember e m = s.xlt.devnum)) then s3.collSend x.group x.seq what s.xlt.devnum ps else s3
  else
    let s1 := s.updSlot r x (fun y => { y with result := true, owed := kids.flatMap (fun c => List.replicate ps.length c) })
    s1.each kids (fun t c => t.collSend x.group x.seq what (s.kidDev e x.role c) ps)

/-- A slot whose every child bit is set goes on: upward from a pod node below a system node, else it is rounded and its RESULT is
sent (R361). A node whose device takes no part in the collective does not know its operation: the result is free (notes/assumptions
25). -/
def State.slotFull (s : State) (r : Nat) (e : BitVec 512) (x : Slot) : State :=
  match s.findNode r x.group x.seq x.role with
  | none => s
  | some nd =>
    let kids := s.kids e x.role
    let up := x.role != 0 && s.gMulti e
    match nd.desc with
    | some d =>
      let n := groupN e
      let full := kids.all (fun c => let rg := s.contribRange e d x.role c x.chunk; decide (x.gave c ≥ rg.2 - rg.1))
      if !full || x.up || x.result then s
      else
        let el := cElems d n x.chunk
        if up then
          let rg := s.contribRange e d 0 x.role x.chunk
          let bs := if reduces (cOp d) then (x.sums d el).flatMap (leBytes 4) else x.gathered rg.1 rg.2
          let s1 := s.updSlot r x (fun y => { y with up := true })
          if bs = [] then s1
          else s1.collSend x.group x.seq (collWhat 8 x.role x.chunk) (s.gNode e 0)
            (chunkPkts x.group 1 x.chunk rg.1 (BitVec.ofNat 32 (x.seq.toNat * 65536 + x.role)) bs)
        else
          let bs := if reduces (cOp d) then pack (fmtW (cWf d)) ((x.sums d el).map (resultCode d)) else x.gathered 0 (resultBytes d n x.chunk)
          let y := { x with bytes := bs.zipIdx.foldl (fun a z => Tab.set 0 a z.2 z.1) [] }
          (s.updSlot r x (fun _ => y)).sendResult r e y bs.length
    | none =>
      let full := kids.all (fun c => x.parts.any (fun p => p.child == c && p.last))
      if !full || x.up || x.result then s
      else
        let len := (x.parts.map (fun p => p.at' + p.bytes.length)).foldl Nat.max 0
        let bs : List Byte := (List.range len).map (fun k => (Config.freeValue (s.free + k)).setWidth 8)
        let y := { x with bytes := bs.zipIdx.foldl (fun a z => Tab.set 0 a z.2 z.1) [] }
        let t := s.took len
        if up then (t.updSlot r x (fun z => { z with up := true })).collSend x.group x.seq (collWhat 8 x.role x.chunk) (s.gNode e 0)
          (chunkPkts x.group 1 x.chunk 0 (BitVec.ofNat 32 (x.seq.toNat * 65536 + x.role)) bs)
        else (t.updSlot r x (fun _ => y)).sendResult r e y len

/-- A slot frees once nothing is owed for it, and the last chunk ends the collective at the node (R361). -/
def State.slotFree (s : State) (r : Nat) (e : BitVec 512) (x : Slot) : State :=
  if !(x.result && x.owed.isEmpty) then s
  else
    let left := (s.ceng r).slots.filter
      (fun y => !(y.group == x.group && decide (y.seq = x.seq) && y.role == x.role && y.chunk == x.chunk))
    let s1 := s.setCeng r { s.ceng r with slots := left }
    let s2 := s1.updNode r x.group x.seq x.role (fun n => { n with chunksDone := n.chunksDone + 1 })
    match s2.findNode r x.group x.seq x.role with
    | some nd => match nd.desc with
      | some d => if nd.chunksDone ≥ cChunks d (groupN e) then s2.dropNode r x.group x.seq x.role else s2
      | none => s2
    | none => s2

/-- The slot that a chunk number names at a node: held, or entered in chunk order while the collective has a slot left (R361). -/
def State.slotFor (s : State) (r : Nat) (nd : NodeColl) (mod : Nat) : Option (Slot × State) :=
  let mine := s.slotsOf r nd.group nd.seq nd.role
  match mine.find? (fun y => y.chunk % 4096 == mod) with
  | some x => some (x, s)
  | none =>
    let next := nd.chunksDone + mine.length
    if mine.length ≥ nd.slots ∨ chunkFrom nd.chunksDone mod > next + nd.slots then none
    else
      let x : Slot := { group := nd.group, seq := nd.seq, role := nd.role, chunk := chunkFrom nd.chunksDone mod, parts := [], up := false,
                        bytes := [], result := false, owed := [], asks := [] }
      some (x, s.setCeng r { s.ceng r with slots := (s.ceng r).slots ++ [x] })

/-- Whether a packet's sender was refused for its SEQ: a failed collective with POISON, one that timed out with WINDOW. -/
def State.nodeRefuses (s : State) (r g : Nat) (seq : W16) (role : Nat) (e : BitVec 512) : Option Byte :=
  match s.findNode r g seq role with
  | some x => if x.failed then some 3 else if x.timedOut then some 1 else none
  | none => if bits e 59 57 = r then some 1 else some 3

/-- A CONTRIB arrives at a node: added once for each child (R361). -/
def State.nodeContrib (s : State) (r : Nat) (e : BitVec 512) (g : Nat) (seq : W16) (role child mod at' : Nat) (bs : List Byte) (last : Bool) :
    CollAns × State :=
  match s.nodeRefuses r g seq role e with
  | some st => (.refuse st, s)
  | none => match s.findNode r g seq role with
    | none => (.refuse 1, s)
    | some nd =>
      if nd.slots = 0 then (.refuse 1, s)
      else match s.slotFor r nd mod with
        | none => (.hold, s)
        | some (x, t) =>
          if x.parts.any (fun p => p.child == child && p.at' == at') then (.ok, t)
          else
            let y := { x with parts := x.parts ++ [{ child := child, at' := at', bytes := bs, last := last }] }
            (.ok, (t.updSlot r x (fun _ => y)).slotFull r e y)

/-- A RESULT of the system node arrives at a pod node, which holds it and passes it on (R363). -/
def State.nodeResult (s : State) (r : Nat) (e : BitVec 512) (g : Nat) (seq : W16) (role mod at' : Nat) (bs : List Byte) (last : Bool) : State :=
  match (s.findNode r g seq role).bind (fun nd => s.slotFor r nd mod) with
  | none => s
  | some (x, t) =>
    if x.result then s
    else
      let y := { x with bytes := bs.zipIdx.foldl (fun a z => Tab.set 0 a (at' + z.2) z.1) x.bytes,
                        owed := x.owed ++ List.replicate bs.length 0 ++ (if last then [at' + bs.length] else []) }
      let s1 := t.updSlot r x (fun _ => y)
      let total := (y.owed.filter (fun k => k != 0)).headD 0
      let have' := (y.owed.filter (fun k => k == 0)).length
      if total ≠ 0 ∧ have' ≥ total then s1.sendResult r e { y with owed := [] } total else s1

/-! ### Packets of collective space (R358, R365) -/

/-- The role of this device that a CLAIM or CONTRIB of a source and a child index is for. -/
def State.roleFor (s : State) (e : BitVec 512) (src : W16) (child : Nat) (own : Option Nat) : Nat :=
  match own with
  | some w => if w % 16 = 7 ∨ w % 16 = 8 then 0 else s.podPos e (podOf src)
  | none =>
    if s.gMulti e ∧ s.gNode e 0 = s.xlt.devnum ∧ 1 ≤ child ∧ child ≤ (s.gPods e).length ∧ s.gNode e child = src then 0
    else s.podPos e (podOf src)

/-- A CLAIM (R360, R362): at a node, or of a peer, which asks for no slots. -/
def State.gotClaim (s : State) (r : Nat) (e : BitVec 512) (g : Nat) (src : W16) (psn : BitVec 24) (own : Option Nat) (p : TxPkt) : CollAns × State :=
  let a : W64 := BitVec.ofNat 64 (leVal (p.payload.take 8))
  let c : W64 := BitVec.ofNat 64 (leVal (p.payload.drop 8))
  let seq : W16 := BitVec.ofNat 16 (bits a 63 48)
  let child := bits a 47 32
  let digest : W32 := BitVec.ofNat 32 (bits a 31 0)
  let slots := bits c 3 0
  if bits c 63 48 ≠ (gEpoch e).toNat % 65536 then (.refuse 1, s)
  else
    let role := s.roleFor e src child own
    let open' := match s.findNode r g seq 0 with
      | some x => !(x.claimed.any (fun y => y == child)) && !(x.waiting.any (fun y => y.1 == child))
      | none => gNodeKind e != 0 && s.gMulti e
    let podClaim := role == 0 && open' && (match own with | some w => w % 16 == 7 | none => true)
    if slots = 0 ∧ !podClaim then
      match s.findMember g seq with
      | some (_, m) => (.old (if m.digest = digest then 0 else 2), s)
      | none => (.old 0, s)
    else if gNodeKind e = 0 ∨ s.gNode e role ≠ s.xlt.devnum then (.refuse 1, s)
    else s.nodeClaim r e g seq role digest slots (child, src, psn)

/-- Data of an endpoint algorithm arrives: it waits in the staging area (R362). -/
def State.gotStage (s : State) (r : Nat) (e : BitVec 512) (g : Nat) (src : W16) (p : TxPkt) : CollAns × State :=
  let seq : W16 := BitVec.ofNat 16 (bits p.aux 31 16)
  let step : W16 := BitVec.ofNat 16 (bits p.aux 15 0)
  let off := bits p.addr 27 0
  if off + p.payload.length > gStageLen e then (.refuse 1, s)
  else
    let s1 := s.cohWrite false (gStage e + off) p.payload
    let wanted := (s.findMember g seq).isSome || decide ((seq - Tab.get 0 s.col.seq g).toNat < 32768)
    if !wanted then (.ok, s1)
    else
      let c := s1.ceng r
      let same : StageIn → Bool := fun x => x.group == g && decide (x.seq = seq) && decide (x.dev = src) && decide (x.step = step)
      let add : StageIn → StageIn := fun x => { x with
        bytes := p.payload.zipIdx.foldl (fun a z => Tab.set 0 a (off + z.2) z.1) x.bytes, have' := x.have' + p.payload.length }
      let st := if c.stages.any same then updWhere same add c.stages
        else c.stages ++ [add { group := g, seq := seq, dev := src, step := step, bytes := [], have' := 0 }]
      (.ok, s1.setCeng r { c with stages := st })

/-- The bytes of a result chunk that a child fetches (R364): at once, or when the node has the result. -/
def State.repairRead (s : State) (r g : Nat) (e : BitVec 512) (src : W16) (p : TxPkt) : CollAns × State :=
  let pos := s.podPos e (podOf src)
  match (s.ceng r).slots.find? (fun y => y.group == g && y.role == pos && y.chunk % 4096 == bits p.addr 27 16) with
  | none => (if (s.ceng r).nodes.any (fun y => y.group == g && y.role == pos && !y.failed && !y.timedOut) then .hold else .refuse 1, s)
  | some x =>
    if !x.result then (.later, s.updSlot r x (fun y => { y with asks := y.asks ++ [(src, p.psn, bits p.addr 15 0, p.aux.toNat)] }))
    else (.bytes ((List.range p.aux.toNat).map (fun k => Tab.get 0 x.bytes (bits p.addr 15 0 + k))), s)

/-- A DONE: a child holds its result chunk (R361). -/
def State.gotDone (s : State) (r g : Nat) (e : BitVec 512) (src : W16) (p : TxPkt) : CollAns × State :=
  let a : W64 := BitVec.ofNat 64 (leVal (p.payload.take 8))
  let seq : W16 := BitVec.ofNat 16 (bits a 63 48)
  let pos := s.podPos e (podOf src)
  match (s.slotsOf r g seq pos).find? (fun y => y.chunk % 4096 == bits p.addr 27 16) with
  | none => (.old 0, s)
  | some x =>
    let y := { x with owed := x.owed.erase (bits a 47 32) }
    (.old 0, (s.updSlot r x (fun _ => y)).slotFree r e y)

/-- A packet addressed to collective space reaches the engine that serves its group (R358). own is what the packet is when this
device sent it to itself. -/
def State.collPacket (s : State) (src : W16) (own : Option Nat) (p : TxPkt) : CollAns × State :=
  let g := bits p.addr 43 32
  let kind := bits p.addr 31 28
  match s.groupEntry g with
  | none => (.refuse 1, s)
  | some e =>
    let known := (s.gMembers e).any (fun d => decide (d = src)) ||
      (List.range ((s.gPods e).length + 1)).any (fun i => gNodeKind e != 0 && decide (s.gNode e i = src))
    if !known then (.refuse 1, s)
    else match s.collEngine e with
      | none => (.refuse 3, s)
      | some r =>
        let seq : W16 := BitVec.ofNat 16 (bits p.aux 31 16)
        let mod := bits p.addr 27 16
        let at' := bits p.addr 15 0
        if kind = 0 ∧ p.typ = 4 then s.gotClaim r e g src p.psn own p
        else if kind = 1 ∧ p.typ = 0 then
          let child := bits p.aux 15 0
          let role := match own with
            | some w => if w % 16 = 8 then 0 else s.podPos e (podOf src)
            | none => s.roleFor e src child none
          s.nodeContrib r e g seq role child mod at' p.payload p.isLast
        else if kind = 2 ∧ p.typ = 0 then
          let pos := s.podPos e (podOf s.xlt.devnum)
          let relay := s.gMulti e && decide (s.gNode e pos = s.xlt.devnum) && decide (s.gNode e 0 = src) &&
            (match own with | some w => w / 16 % 65536 == 0 | none => true)
          if relay then (.ok, s.nodeResult r e g seq pos mod at' p.payload p.isLast)
          else match s.landResult g seq mod at' p.payload with
            | .ok t => (.ok, t)
            | .wait t => (.hold, t)
        else if kind = 2 ∧ p.typ = 1 then s.repairRead r g e src p
        else if kind = 3 ∧ p.typ = 4 then s.gotDone r g e src p
        else if kind = 4 ∧ p.typ = 0 then s.gotStage r e g src p
        else (.refuse 1, s)

end Sys2Proof.Machine
end

