-- ==== Sys2Proof/Machine/Coll.lean ====
section
/-! DEFINITION. The collectives as they run: the endpoint algorithms, what the engines make of news of their packets, and the commands
COLL, COLLECTIVE_TIMEOUT and RESULT_REPAIR_TIMER (13_collectives_and_hawk_store.md R349 to R367). -/
namespace Sys2Proof.Machine

/-! ### The endpoint algorithms (R362) -/

/-- One step of an endpoint algorithm: the blocks that go to members and those that come from members, what they are (0 partial sums in
FP32, 1 contributions that are added, 2 finished elements), and the blocks that are rounded once it is over. -/
structure Step where
  sends : List (Nat × List Nat)
  recvs : List (Nat × List Nat)
  kind : Nat
  close : List Nat
  deriving DecidableEq, Repr

/-- A step that only rounds blocks. -/
def closing (bs : List Nat) : Step := { sends := [], recvs := [], kind := 2, close := bs }

/-- The reduce-scatter half of the ring: after it member me holds block me. -/
def ringScatter (n me : Nat) : List Step :=
  (List.range (n - 1)).map (fun t => { sends := [((me + 1) % n, [(me + 2 * n - 1 - t) % n])],
                                       recvs := [((me + n - 1) % n, [(me + 2 * n - 2 - t) % n])], kind := 0, close := [] })

/-- The all-gather half of the ring. -/
def ringGather (n me : Nat) : List Step :=
  (List.range (n - 1)).map (fun t => { sends := [((me + 1) % n, [(me + n - t) % n])],
                                       recvs := [((me + 2 * n - 1) % n, [(me + 2 * n - 1 - t) % n])], kind := 2, close := [] })

/-- The ring as a chain from the root, for a broadcast. -/
def ringChain (n me root : Nat) : List Step :=
  (if me = root ∨ n = 1 then [] else [{ sends := [], recvs := [((me + n - 1) % n, [0])], kind := 2, close := [] }])
    ++ (if n = 1 ∨ (me + 1) % n = root then [] else [{ sends := [((me + 1) % n, [0])], recvs := [], kind := 2, close := [] }])

/-- The other members. -/
def others (n me : Nat) : List Nat := (List.range n).filter (fun j => j != me)

/-- The direct algorithm. -/
def direct (op n me root : Nat) : List Step :=
  let all := others n me
  let scatter : Step := { sends := all.map (fun j => (j, [j])), recvs := all.map (fun j => (j, [me])), kind := 1, close := [me] }
  let gather : Step := { sends := all.map (fun j => (j, [me])), recvs := all.map (fun j => (j, [j])), kind := 2, close := [] }
  match op with
  | 0 => [scatter, gather]
  | 1 => [scatter]
  | 2 => [gather]
  | 3 => if me = root then [{ sends := all.map (fun j => (j, [0])), recvs := [], kind := 2, close := [] }]
         else [{ sends := [], recvs := [(root, [0])], kind := 2, close := [] }]
  | 4 => if me = root then [scatter, { sends := [], recvs := all.map (fun j => (j, [j])), kind := 2, close := [] }]
         else [scatter, { sends := [(root, [me])], recvs := [], kind := 2, close := [] }]
  | _ => [{ sends := all.map (fun j => (j, [j])), recvs := all.map (fun j => (j, [j])), kind := 2, close := [] }]

/-- The blocks that agree with member v, modulo p, from bit i up. -/
def agree (n p v i : Nat) : List Nat := (List.range n).filter (fun j => j % p / 2 ^ i == v / 2 ^ i)

/-- Recursive halving and doubling. -/
def halving (op n me : Nat) : List Step :=
  let k := Nat.log2 n
  let p := 2 ^ k
  let all := List.range n
  let back := fun (m : Nat) => if op = 1 then [m] else all
  if me ≥ p then
    [{ sends := [(me - p, all)], recvs := [], kind := 1, close := [] }, { sends := [], recvs := [(me - p, back me)], kind := 2, close := [] }]
  else
    let extra := me + p
    let first : List Step := if extra < n then [{ sends := [], recvs := [(extra, all)], kind := 1, close := [] }] else []
    let halves : List Step := ((List.range k).reverse).map (fun i =>
      let o := Nat.xor me (2 ^ i)
      { sends := [(o, agree n p o i)], recvs := [(o, agree n p me i)], kind := 0, close := [] })
    let doubles : List Step := if op = 1 then [] else (List.range k).map (fun i =>
      let o := Nat.xor me (2 ^ i)
      { sends := [(o, agree n p me i)], recvs := [(o, agree n p o i)], kind := 2, close := [] })
    let last : List Step := if extra < n then [{ sends := [(extra, back extra)], recvs := [], kind := 2, close := [] }] else []
    first ++ halves ++ [closing (agree n p me 0)] ++ doubles ++ last

/-- The steps of a member's algorithm: FALLBACK 0 the ring, 1 recursive halving and doubling of a reduction, 2 direct; an all-to-all
is always direct, and gathers and broadcasts under FALLBACK 1 are (notes/assumptions 26). -/
def stepsOf (d : BitVec 512) (n me : Nat) : List Step :=
  let op := cOp d
  let alg := dfield d 45 1
  if op = 5 then direct 5 n me 0
  else if alg = 0 then
    (match op with
      | 1 => ringScatter n me ++ [closing [me]]
      | 2 => ringGather n me
      | 3 => ringChain n me (cRoot d)
      | _ => ringScatter n me ++ [closing [me]] ++ ringGather n me)
  else if alg = 1 ∧ reduces op then halving op n me
  else direct op n me (cRoot d)

/-- Where block j begins among the elements. -/
def blockAt (d : BitVec 512) (n j : Nat) : Nat :=
  match cOp d with
  | 0 => j * cCount d / n
  | 4 => j * cCount d / n
  | 3 => if j = 0 then 0 else cCount d
  | _ => j * cCount d

/-- The elements of a block that one pass carries: a message of every block fits the staging area. -/
def passElems (n : Nat) : Nat := 2 ^ 20 / n / 8 * 8

/-- How many passes the longest block takes. -/
def passes (d : BitVec 512) (n : Nat) : Nat :=
  (((List.range n).map (fun j => (blockAt d n (j + 1) - blockAt d n j + passElems n - 1) / passElems n)).foldl Nat.max 0)

/-- The elements of blocks that a pass carries. -/
def passRange (d : BitVec 512) (n pass : Nat) (blocks : List Nat) : List Nat :=
  blocks.flatMap (fun j =>
    let lo := blockAt d n j + pass * passElems n
    let hi := Nat.min (blockAt d n (j + 1)) (lo + passElems n)
    (List.range (hi - lo)).map (fun k => lo + k))

/-- The width in which a step's elements travel (R353). -/
def wireW (d : BitVec 512) (kind : Nat) : Nat := if kind = 0 then 32 else fmtW (cWf d)

/-- An element as it travels: a contribution goes in FMT when narrow. -/
def toWire (d : BitVec 512) (kind : Nat) (v : W32) : Nat := if kind = 1 then resultCode d v.toNat else v.toNat

/-- An element of a step that came. -/
def fromWire (d : BitVec 512) (kind code : Nat) : Nat := if kind = 1 ∧ cWf d ≠ 0 then widen32 (cWf d) code else code

/-- Elements that have come act on a member's: they are added, or they stand in place. -/
def takeElems (d : BitVec 512) (kind : Nat) (idx : List Nat) (codes : List Nat) (acc : Tab W32) : Tab W32 :=
  (idx.zip codes).foldl (fun a x =>
    let v := fromWire d kind x.2
    Tab.set 0 a x.1 (BitVec.ofNat 32 (if kind = 2 then v else redStep (cRed d) (Tab.get 0 a x.1).toNat v))) acc

/-- Blocks of a reduction are rounded once to the result's format (R355). -/
def roundElems (d : BitVec 512) (idx : List Nat) (acc : Tab W32) : Tab W32 :=
  if reduces (cOp d) then idx.foldl (fun a i => Tab.set 0 a i (BitVec.ofNat 32 (resultCode d (Tab.get 0 a i).toNat))) acc else acc

/-- The first element and the number of elements that SBUF gives. -/
def sourceAt (d : BitVec 512) (n me : Nat) : Nat × Nat :=
  match cOp d with
  | 2 => (me * cCount d, cCount d)
  | 3 => (0, if me = cRoot d then cCount d else 0)
  | _ => (0, cTotal d n)

/-- The first element and the number of elements that RBUF takes. -/
def sinkAt (d : BitVec 512) (n me : Nat) : Nat × Nat :=
  match cOp d with
  | 1 => (me * cCount d, cCount d)
  | 4 => (0, if me = cRoot d then cCount d else 0)
  | _ => (0, cTotal d n)

/-- A member reads its SBUF: reductions widen each element to FP32 (R354). -/
def State.loadMember (s : State) (r : Nat) (m : MemberColl) (d : BitVec 512) (n me : Nat) : State :=
  let at' := sourceAt d n me
  let w := fmtW (cFmt d)
  match s.collMem m (cSbuf d) (at'.2 * w / 8) none with
  | .wait _ t => t
  | .bad st t => t.endMember r m (memStatus st (cSbuf d)).1 (memStatus st (cSbuf d)).2
  | .ok bs t =>
    let codes := (unpack w bs).map (fun x => if reduces (cOp d) then widen32 (cFmt d) x else x)
    let acc : Tab W32 := codes.zipIdx.foldl (fun a x => Tab.set 0 a (at'.1 + x.2) (BitVec.ofNat 32 x.1)) []
    t.updMember r m.group m.seq (fun x => { x with loaded := true, acc := acc })

/-- A member's algorithm is over: RBUF is written, and the COLL completes once everything that it sent is acknowledged. The sector of an
element that failed its residue check twice is written poisoned (R357). -/
def State.finishMember (s : State) (r : Nat) (m : MemberColl) (d : BitVec 512) (n me : Nat) : State :=
  if m.owe > 0 then s
  else
    let at' := sinkAt d n me
    let bs := pack (fmtW (cWf d)) ((List.range at'.2).map (fun k => (Tab.get 0 m.acc (at'.1 + k)).toNat))
    let fb := s.rbufBytes d n bs
    match fb.2.collMem m (cRbuf d) fb.1.length (some fb.1) with
    | .wait _ t => t
    | .bad st t => t.endMember r m (memStatus st (cRbuf d)).1 (memStatus st (cRbuf d)).2
    | .ok _ t =>
      match m.poisonAt with
      | none => t.endMember r m 0 0
      | some o =>
        let va := cRbuf d + BitVec.ofNat 64 o
        let t1 := match t.lookup netUnit (t.q m.q).pasid va with
          | (.hit (.dev a) _, u) => u.writeBad false (a / 64 * 64) (u.cohRead false (a / 64 * 64) 64) (List.replicate 64 true)
          | (.hit (.host a) _, u) => u.writeBad true (a / 64 * 64) (u.cohRead true (a / 64 * 64) 64) (List.replicate 64 true)
          | _ => t
        t1.endMember r m 9 (BitVec.ofNat 64 o)

/-- The STAGE packets of a message of one step; offset is the place in the message, and AUX [15:0] the step
(notes/assumptions 26). -/
def stagePkts (g : Nat) (seq : W16) (stepId : Nat) (bs : List Byte) : List TxPkt :=
  messageOf 0 (BitVec.ofNat 32 (seq.toNat * 65536 + stepId % 65536)) (collAddr g 4 0) (chunksAt 4096 (bs.length / 4096 + 2) 0 bs)

/-- A member sends what its step sends, once every peer of it has granted the collective; before its first data to a peer it asks. -/
def State.stepSends (s : State) (r : Nat) (m : MemberColl) (e d : BitVec 512) (n stepId pass : Nat) (st : Step) : State :=
  let outs := (st.sends.map (fun x => (x.1, passRange d n pass x.2))).filter (fun x => x.2 != [])
  let news := outs.filter (fun x => !m.asked.any (fun p => p == x.1))
  if news ≠ [] then
    (s.updMember r m.group m.seq (fun x => { x with asked := x.asked ++ news.map (fun y => y.1) })).each news (fun t x =>
      t.collSend m.group m.seq (collWhat 5 0 x.1) (s.gMember e x.1) [claimPkt m.group m.seq (gSelf e) m.digest (gEpoch e) 0])
  else if outs.any (fun x => !m.peers.any (fun p => p == x.1)) then s
  else
    let msgs := outs.map (fun x => (x.1, stagePkts m.group m.seq stepId
      (pack (wireW d st.kind) (x.2.map (fun i => toWire d st.kind (Tab.get 0 m.acc i))))))
    let total := (msgs.map (fun x => x.2.length)).foldl Nat.add 0
    (s.updMember r m.group m.seq (fun x => { x with step := x.step + 1, owe := x.owe + total })).each msgs (fun t x =>
      t.collSend m.group m.seq (collWhat 4 0 x.1) (s.gMember e x.1) x.2)

/-- A member takes what its step receives, once all of it waits in the staging area. -/
def State.stepRecvs (s : State) (r : Nat) (m : MemberColl) (e d : BitVec 512) (n stepId pass : Nat) (st : Step) : State :=
  let ins := (st.recvs.map (fun x => (x.1, passRange d n pass x.2))).filter (fun x => x.2 != [])
  let mine : Nat → StageIn → Bool := fun p x =>
    x.group == m.group && decide (x.seq = m.seq) && decide (x.dev = s.gMember e p) && x.step.toNat == stepId % 65536
  let c := s.ceng r
  let size : List Nat → Nat := fun l => (l.length * wireW d st.kind + 7) / 8
  let here := ins.all (fun x => c.stages.any (fun y => mine x.1 y && decide (y.have' ≥ size x.2)))
  if !here then s
  else
    let acc := ins.foldl (fun a x => match c.stages.find? (mine x.1) with
      | some y => takeElems d st.kind x.2 (unpack (wireW d st.kind) ((List.range (size x.2)).map (fun k => Tab.get 0 y.bytes k))) a
      | none => a) m.acc
    let acc2 := roundElems d (passRange d n pass st.close) acc
    let left := c.stages.filter (fun y => !ins.any (fun x => mine x.1 y))
    (s.setCeng r { c with stages := left }).updMember r m.group m.seq (fun x => { x with step := x.step + 1, acc := acc2 })

/-- A member's endpoint algorithm goes one half-step on: an even one sends, an odd one receives. -/
def State.fallStep (s : State) (r : Nat) (m : MemberColl) : State :=
  match s.cmd m.q m.slot, s.groupEntry m.group with
  | some c, some e =>
    let d := c.desc
    let n := groupN e
    let me := gSelf e
    if m.loaded = false then s.loadMember r m d n me
    else
      let steps := stepsOf d n me
      let total := steps.length * passes d n
      let i := m.step / 2
      if i ≥ total then s.finishMember r m d n me
      else
        let st := steps.getD (i % steps.length) (closing [])
        if m.step % 2 = 0 then s.stepSends r m e d n i (i / steps.length) st else s.stepRecvs r m e d n i (i / steps.length) st
  | _, _ => s

/-! ### News of packets -/

/-- A mismatch of digests ends a COLL with REFUSED and a record (R362). -/
def State.mismatch (s : State) (r : Nat) (m : MemberColl) : State := (s.collRecord r 0 m.group m.seq 0).endMember r m 11 0

/-- A member learns what has become of a packet of its; a claim that a switch refuses is as one answered BUSY (R360, R362, R365). -/
def State.memberNews (s : State) (x : CollNews) (seq : W16) (kind arg : Nat) : State :=
  match s.findMember x.group seq with
  | none => s
  | some (r, m) =>
    let refused := match x.status with | some st => st != 0 | none => false
    let fall : State := (s.setCeng r { s.ceng r with fallback := satAdd (s.ceng r).fallback 1 }).updMember r x.group seq
      (fun y => { y with way := .fallback })
    let switch := match s.groupEntry x.group with | some e => gNodeKind e == 2 | none => false
    if refused && kind == 0 && switch then fall
    else if refused then s.endMember r m 2 (collInfo x.dev x.addr)
    else if x.status.isNone ∧ x.old.isNone then s.endMember r m 1 (collInfo x.dev x.addr)
    else
      match kind, x.old with
      | 0, some v =>
        if v = 0 then s.updMember r x.group seq (fun y => { y with way := .tree })
        else if v = 1 then fall
        else s.mismatch r m
      | 5, some v => if v = 0 then s.updMember r x.group seq (fun y => { y with peers := y.peers ++ [arg] }) else s.mismatch r m
      | 4, _ => s.updMember r x.group seq (fun y => { y with owe := y.owe - 1 })
      | 6, _ => match s.landResult x.group seq (arg % 4096) (bits x.addr 15 0 + x.off) x.bytes with | .ok t => t | .wait t => t
      | _, _ => s

/-- A node learns what has become of a packet of its (R360, R361). -/
def State.nodeNews (s : State) (x : CollNews) (seq : W16) (kind role chunk : Nat) : State :=
  match s.groupEntry x.group with
  | none => s
  | some e =>
    match (List.range 5).find? (fun r => (s.findNode r x.group seq role).isSome) with
    | none => s
    | some r =>
      let ok := match x.status with | some st => st == 0 | none => false
      match kind with
      | 2 => match (s.slotsOf r x.group seq role).find? (fun y => y.chunk == chunk) with
        | none => s
        | some y =>
          let child := (s.kids e role).find? (fun c => decide (s.kidDev e role c = x.dev) && y.owed.any (fun o => o == c))
          let z := { y with owed := match child with | some c => y.owed.erase c | none => y.owed }
          if gMcast e ∧ role ≠ 0 then s else (s.updSlot r y (fun _ => z)).slotFree r e z
      | 7 =>
        let v := match x.old with | some v => v.toNat | none => 1
        let t := s.updNode r x.group seq role (fun y => { y with answer := some v })
        match t.findNode r x.group seq role with | some y => t.settleClaims r e y | none => t
      | 8 => if ok then s else (s.updNode r x.group seq role (fun y => { y with timedOut := true })).freeSlots r x.group seq role
      | _ => s

/-- One piece of news acts. -/
def State.takeNews (s : State) (x : CollNews) : State :=
  let seq : W16 := BitVec.ofNat 16 x.seq
  let kind := x.what % 16
  let role := x.what / 16 % 65536
  let chunk := x.what / 16 / 65536
  if kind = 2 ∨ kind = 7 ∨ kind = 8 then s.nodeNews x seq kind role chunk else s.memberNews x seq kind chunk

/-- A packet that this device sent itself is handled; one that must wait stays. -/
def State.takeOwn (s : State) (x : LocalMsg) : State :=
  let dev := s.xlt.devnum
  let base : CollNews := { group := x.group, seq := x.seq, what := x.what, dev := dev, addr := x.pkt.addr, old := none, status := some 0,
                           off := 0, bytes := [] }
  let tell : State → CollNews → State := fun t n => { t with col := { t.col with news := t.col.news ++ [n] } }
  match s.collPacket dev (some x.what) x.pkt with
  | (.ok, t) => tell t base
  | (.refuse st, t) => tell t { base with status := some st }
  | (.old v, t) => tell t { base with status := none, old := some (BitVec.ofNat 64 v) }
  | (.later, t) => t
  | (.hold, t) => { t with col := { t.col with own := t.col.own ++ [x] } }
  | (.bytes bs, t) => tell t { base with bytes := bs }

/-- A member goes on as far as it may. -/
def State.pumpMember (s : State) (r : Nat) (m : MemberColl) : State :=
  match m.way with
  | .claiming => s
  | .tree => (State.sendChunks 64 r m.group m.seq s).treeDone r m.group m.seq
  | .fallback => s.fallStep r m

/-- One turn of the engines. -/
def State.collOnce (s : State) : State :=
  let s1 := ({ s with col := { s.col with news := [] } }).each s.col.news (fun t x => t.takeNews x)
  let s2 := ({ s1 with col := { s1.col with own := [] } }).each s1.col.own (fun t x => t.takeOwn x)
  s2.each (List.range 5) (fun t r => t.each (t.ceng r).members (fun u m => u.pumpMember r m))

/-- The engines work until nothing is left to do, at most n turns. -/
def State.collTurn : Nat → State → State
  | 0, s => s
  | n + 1, s =>
    if s.col.news = [] ∧ s.col.own = [] ∧ (List.range 5).all (fun r => (s.ceng r).members.isEmpty) then s
    else
      let t := s.collOnce
      if t.col = s.col then t else State.collTurn n t

/-- What the collective engines do after a step of the network or of a translation. -/
def State.collRun (s : State) : State := State.collTurn 1024 s

/-! ### The commands -/

/-- A node of this device learns the operation from the device's own COLL. -/
def State.tellNodes (s : State) (g : Nat) (seq : W16) (e d : BitVec 512) : State :=
  s.each (List.range 5) (fun t r => t.each ((t.ceng r).nodes.filter (fun y => y.group == g && decide (y.seq = seq) && y.desc.isNone)) (fun u y =>
    let v := u.updNode r g seq y.role (fun z => { z with desc := some d })
    v.each (v.slotsOf r g seq y.role) (fun w x => w.slotFull r e x)))

/-- A COLL starts: it takes the next SEQ of its group, and claims at its node or runs its endpoint algorithm (R349, R350, R359,
R360, R365). -/
def State.startColl (s : State) (q slot : Nat) (c : Cmd) : State :=
  let g := dfield c.desc 40 2
  match s.groupEntry g with
  | none => s
  | some e =>
    match s.collEngine e with
    | none => s.updCmd q slot (Cmd.ended 11 0)
    | some r =>
      let d := c.desc
      let seq := Tab.get 0 s.col.seq g
      let s1 := { s with col := { s.col with seq := Tab.set 0 s.col.seq g (seq + 1) } }
      if cCount d = 0 then s1.updCmd q slot (Cmd.ended 0 0)
      else
        let tree := gNodeKind e != 0 && cOp d != 5
        let m : MemberColl := { q := q, slot := slot, group := g, seq := seq, digest := cDigest d, way := if tree then .claiming else .fallback,
                                sent := 0, got := [], parts := [], step := 0, asked := [], peers := [], owe := 0, loaded := false, acc := [],
                                poisonAt := none }
        let s2 := (s1.runCmd q slot).setCeng r { s1.ceng r with members := (s1.ceng r).members ++ [m] }
        let s3 := s2.tellNodes g seq e d
        let s4 := if tree then
            s3.collSend g seq (collWhat 0 0 0) (s3.gNode e (s3.podPos e (podOf s3.xlt.devnum)))
              [claimPkt g seq (gSelf e) m.digest (gEpoch e) (Nat.min (cChunks d (groupN e)) 15)]
          else s3
        s4.collRun

/-- COLL (R359): a collective of a group starts at this member. -/
def execColl (q : Fin 1024) (slot : W16) (s : State) : Host.Outcome State Fault Refusal :=
  .next (s.startCmd q.val slot.toNat 3 (fun t _ c => t.startColl q.val slot.toNat c))

/-- The children that a node misses: those whose claim, or whose part of its oldest chunk, has not come. -/
def State.missing (s : State) (r : Nat) (e : BitVec 512) (x : NodeColl) : List Nat :=
  let kids := s.kids e x.role
  let unclaimed := kids.filter (fun c => !x.claimed.any (fun y => y == c) && !x.waiting.any (fun y => y.1 == c))
  if unclaimed ≠ [] then unclaimed
  else match s.slotsOf r x.group x.seq x.role with
    | [] => kids
    | y :: _ => if y.result then y.owed.eraseDups else kids.filter (fun c => y.gave c == 0)

/-- A node ends a collective that makes no progress: its slots are free, and later packets of the SEQ are refused (R366). -/
def State.nodeTimeout (s : State) (r : Nat) (e : BitVec 512) (x : NodeColl) : State :=
  let bits' := (s.missing r e x).foldl (fun a c => a + 2 ^ c) 0
  let s1 := s.collRecord r 1 x.group x.seq bits'
  let s2 := s1.freeSlots r x.group x.seq x.role
  s2.updNode r x.group x.seq x.role (fun y => { y with timedOut := true, waiting := [] })

/-- COLLECTIVE_TIMEOUT (R366): a collective of the engine of region r has made no progress for COL_CTL.TIMEOUT milliseconds, at a member, at a
node, or at both. -/
def execCollectiveTimeout (r : Fin 5) (group : BitVec 12) (seq : W16) (s : State) : Host.Outcome State Fault Refusal :=
  let k := r.val
  let g := group.toNat
  let s1 := s.each ((s.ceng k).members.filter (fun m => m.group == g && decide (m.seq = seq))) (fun t m => t.endMember k m 6 0)
  let s2 := match s1.groupEntry g with
    | none => s1
    | some e => s1.each ((s1.ceng k).nodes.filter (fun x => x.group == g && decide (x.seq = seq) && !x.timedOut && !x.failed))
        (fun t x => t.nodeTimeout k e x)
  .next s2

/-- RESULT_REPAIR_TIMER (R364): a chunk whose contribution went out COL_CTL.REPAIR microseconds ago, and whose multicast result has not
come, is fetched from its node. -/
def execResultRepairTimer (r : Fin 5) (group : BitVec 12) (seq : W16) (chunk : Nat) (s : State) : Host.Outcome State Fault Refusal :=
  let g := group.toNat
  .next (match (s.ceng r.val).members.find? (fun m => m.group == g && decide (m.seq = seq)), s.groupEntry g with
    | some m, some e => match s.cmd m.q m.slot with
      | some c =>
        if gMcast e ∧ m.way = .tree ∧ chunk < m.sent ∧ !m.got.any (fun k => k == chunk) then
          let pos := s.podPos e (podOf s.xlt.devnum)
          (s.collSend g seq (collWhat 6 0 chunk) (s.gNode e pos)
            [readPkt (collAddr g 2 (chunk % 4096 * 65536)) (resultBytes c.desc (groupN e) chunk)]).collRun
        else s
      | none => s
    | _, _ => s)

end Sys2Proof.Machine
end

