-- ==== Sys2Proof/Machine/Net.lean ====
section
/-! DEFINITION. The packets that arrive at the network engine and its timers (12_umakin_transport.md R327 to R345;
13_collectives_and_hawk_store.md R358 to R364). -/
namespace Sys2Proof.Machine

/-- An arriving packet as a packet of a type. -/
def txOf (p : Pkt) (typ : BitVec 4) : TxPkt :=
  { typ := typ, isFirst := p.isFirst, isLast := p.isLast, ackReq := p.ackReq, notify := p.notify, retx := p.retx, mcast := p.mcast, dst := 0,
    dstIfc := p.ifc.val, path := p.path, gen := p.gen, dqpn := p.dqpn.val, sqpn := p.sqpn.val, ceCnt := p.ceCnt, psn := p.psn, addr := p.addr,
    aux := p.aux, ts := p.ts, payload := p.payload }

/-- What performing a packet gives: a status, a packet that cannot be placed yet and counts as not received, or one that waits for a
line and comes again. -/
inductive Did where
  | status (st : Byte) (s : State)
  | notNow (s : State)
  | waits (s : State)

/-- The length of a write that a notification ends: from its first packet's address to its end (R323). -/
def Qp.heldLen (q : Qp) (h : Held) : W32 :=
  if h.kind ≠ 2 then h.len
  else
    let before := q.firsts.filter (fun f => !psnBefore h.psn f.1)
    match before.getLast? with
    | some f => h.len - f.2.setWidth 32
    | none => h.len

/-- Held notifications whose every earlier packet is in place are delivered, and the first packets of finished writes are forgotten
(R330). -/
def State.deliverHeld (s : State) (n : Nat) : State :=
  let q := s.qp n
  match q.cfg with
  | none => s
  | some c =>
    let due := q.held.filter (fun h => psnBefore h.psn q.cum)
    let s1 := s.each due (fun t h => t.recvRecord n c 0 h.kind (q.heldLen h) h.imm)
    let q1 := s1.qp n
    s1.setQp n { q1 with
      held := q1.held.filter (fun h => !psnBefore h.psn q.cum),
      firsts := q1.firsts.filter (fun f => !q1.firsts.any (fun g => psnBefore f.1 g.1 && psnBefore g.1 q.cum)) }

/-- Entries of a list by PSN, in their order from CUM. -/
def insFirst (cum psn : BitVec 24) (a : W64) : List (BitVec 24 × W64) → List (BitVec 24 × W64)
  | [] => [(psn, a)]
  | x :: t => if psnBefore psn x.1 then (psn, a) :: x :: t else x :: insFirst cum psn a t

/-- A notification joins the held ones, in PSN order. -/
def insHeld (h : Held) : List Held → List Held
  | [] => [h]
  | x :: t => if psnBefore h.psn x.psn then h :: x :: t else x :: insHeld h t

/-- An arriving packet is checked, performed unless it is a duplicate, and acknowledged; dup is what else a duplicate gets. c is the
command that brings it, which keeps no line once it has ended (notes/assumptions 59); one that comes again is counted when it is taken. -/
def State.umt (s : State) (c : Instr) (p : Pkt) (dup : State → State) (perform : State → Did) : State :=
  let i := p.ifc.val
  let n := p.dqpn.val
  let ends : State → State := fun t => t.dropEng (fun d => decide (d = c))
  match s.arrive p with
  | .drop t => ends t
  | .dup t => ends ((dup t).again p)
  | .take t =>
    if t.refuses n then ends (t.settled p 5)
    else match perform t with
      | .status st u => (((((ends u).settled p st).deliverHeld n).collRun).pumpQp n)
      | .notNow u => u
      | .waits u =>
        (u.setIfc i { u.ifc i with rx := (s.ifc i).rx, ce := (s.ifc i).ce }).setQp n { u.qp n with ceSince := (s.qp n).ceSince }

/-- A packet of collective space is performed (13_collectives_and_hawk_store.md R358). -/
def State.umtColl (s : State) (p : Pkt) (typ : BitVec 4) : Did :=
  let n := p.dqpn.val
  match s.collPacket p.srcDev none (txOf p typ) with
  | (.ok, t) => .status 0 t
  | (.refuse st, t) => .status st t
  | (.old v, t) =>
    let q := t.qp n
    .status 0 ((t.setQp n { q with atomics := (q.atomics ++ [(p.psn, BitVec.ofNat 64 v)]).drop (q.atomics.length + 1 - 16) }).netSend n .reply
      [mkPkt 5 0 (BitVec.ofNat 32 p.psn.toNat) (leBytes 8 v)])
  | (.later, t) => .status 0 t
  | (.hold, t) => .notNow t
  | (.bytes bs, t) => .status 0 (t.netSend n .reply (messageOf 2 (BitVec.ofNat 32 p.psn.toNat) 0 (chunksAt 4096 (bs.length / 4096 + 2) 0 bs)))

/-- A WRITE is placed at its home (Table 12-8). -/
def State.doWrite (s : State) (p : Pkt) : Did :=
  let n := p.dqpn.val
  if isCollAddr p.addr then s.umtColl p 0
  else
    let st := s.peerCheck p.srcDev p.addr.toNat p.payload.length 1
    let mark : State → State := fun t =>
      let q := t.qp n
      if q.cfg.isNone then t
      else
        let q1 := if p.isFirst then { q with firsts := insFirst q.cum p.psn p.addr q.firsts } else q
        let h : Held := { psn := p.psn, kind := 2, tag := 0, len := p.addr.setWidth 32 + BitVec.ofNat 32 p.payload.length, imm := p.aux }
        t.setQp n (if p.notify && p.isLast && st == 0 then { q1 with held := insHeld h q1.held } else q1)
    if st ≠ 0 then .status st (mark s)
    else
      let h := s.atHomes (.umtWrite p) (secsOf false p.addr.toNat p.payload.length) true
      if h.1 then .status 0 (mark (h.2.lineWrite false p.addr.toNat p.payload (fun _ => 0))) else .waits h.2

/-- The READ_RESP packets of a read of this device's memory, up to the first poisoned part. -/
def State.readBack (s : State) (off : Nat) (psn : BitVec 24) (len : Nat) : Nat → Nat → List TxPkt
  | 0, _ => []
  | fuel + 1, k =>
    if k ≥ len then []
    else
      let m := Nat.min 4096 (len - k)
      let base := mkPkt 2 (BitVec.ofNat 64 k) (BitVec.ofNat 32 psn.toNat) []
      if s.cohBad false (off + k) m then
        [{ base with isFirst := k == 0, aux := BitVec.ofNat 32 (3 * 2 ^ 24 + psn.toNat) }]
      else { base with isFirst := k == 0, isLast := decide (k + m ≥ len), payload := s.cohRead false (off + k) m }
        :: s.readBack off psn len fuel (k + m)

/-- A READ_REQ is checked once for its whole range, and its data goes back (Table 12-8). -/
def State.doRead (s : State) (p : Pkt) : Did :=
  if isCollAddr p.addr then s.umtColl p 1
  else
    let len := p.aux.toNat
    let st := s.peerCheck p.srcDev p.addr.toNat len 2
    if st ≠ 0 then .status st s
    else
      let h := s.atHomes (.umtReadReq p) (secsOf false p.addr.toNat len) false
      if h.1 then .status 0 (h.2.netSend p.dqpn.val .reply (h.2.readBack p.addr.toNat p.psn len (len / 4096 + 1) 0)) else .waits h.2

/-- Data of a read that has no place yet, because its local page waits for translation: the packet counts as not received. -/
def State.cannotLand (s : State) (n : Nat) (own : Own) (off : Nat) (bs : List Byte) : Option State :=
  match own with
  | .wr slot =>
    match (s.qp n).wrs.find? (fun w => w.slot == slot), (s.qp n).cfg with
    | some w, some c =>
      match State.virtWrite (wrWant n slot c.pasid w.tries) bs
          (pagesOf (BitVec.ofNat 64 (bits w.desc 127 64) + BitVec.ofNat 64 off) bs.length) s with
      | .wait page t => some (if page then t.updWr n slot (fun x => { x with tries := x.tries + 1 }) else t)
      | _ => none
    | _, _ => none
  | _ => none

/-- A READ_RESP brings data, or the status that ends the read (Table 12-8). -/
def State.doReadResp (s : State) (p : Pkt) : Did :=
  let n := p.dqpn.val
  let psn : BitVec 24 := BitVec.ofNat 24 (bits p.aux 23 0)
  let st : Byte := BitVec.ofNat 8 (bits p.aux 31 24)
  match (s.qp n).waits.find? (fun w => decide (w.psn = psn) && w.len != 0) with
  | none => .status 0 s
  | some w =>
    let drop : State → State := fun t => t.setQp n { t.qp n with waits := (t.qp n).waits.filter (fun x => decide (x.psn ≠ psn)) }
    if st ≠ 0 then .status 0 ((drop s).netEnd n w.own w.addr true (.refused st))
    else
      let off := p.addr.toNat
      match s.cannotLand n w.own off p.payload with
      | some t => .notNow t
      | none =>
        let got := w.got + p.payload.length
        let last := decide (got ≥ w.len)
        let s1 := if last then drop s
          else s.setQp n { s.qp n with waits := updWhere (fun x : WaitResp => decide (x.psn = psn)) (fun x => { x with got := got }) (s.qp n).waits }
        .status 0 (s1.netEnd n w.own w.addr true (.bytes off p.payload last))

/-- The receive buffer of a message: the one that it has claimed, or the oldest posted (Table 12-8, R323). -/
def State.recvBuf (s : State) (n : Nat) (c : QpCfg) (num len : W32) : Except Byte (RecvMsg × State) :=
  let q := s.qp n
  match q.msgs.find? (fun m => decide (m.num = num)) with
  | some m => .ok (m, s)
  | none =>
    if q.rci = q.rpi then .error 4
    else
      let v := leVal (s.cohRead false (c.rring.toNat + 16 * q.rci.toNat) 16)
      if len.toNat > v / 2 ^ 64 % 2 ^ 32 then .error 6
      else
        let m : RecvMsg := { num := num, buf := BitVec.ofNat 64 v, len := len, tag := BitVec.ofNat 32 (v / 2 ^ 96), got := [], total := 0, tries := 0 }
        let nxt := if q.rci.toNat + 1 = 2 ^ c.rlog2 then 0 else q.rci + 1
        .ok (m, s.setQp n { q with rci := nxt, msgs := q.msgs ++ [m] })

/-- A packet of a SEND is written into its message's buffer; the last to arrive writes the receive completion, whose immediate no
packet carries (a free value, notes/assumptions 27). -/
def State.doSend (s : State) (p : Pkt) : Did :=
  let n := p.dqpn.val
  match (s.qp n).cfg with
  | none => .status 4 s
  | some c =>
    let num : W32 := BitVec.ofNat 32 (bits p.addr 63 32)
    let off := bits p.addr 31 0
    match s.recvBuf n c num p.aux with
    | .error st => .status st s
    | .ok (m, s1) =>
      match State.virtWrite { wrWant n 65536 c.pasid m.tries with who := .wr n 65536 } p.payload
          (pagesOf (m.buf + BitVec.ofNat 64 off) p.payload.length) s1 with
      | .wait page t => .notNow (if page then t.setQp n { t.qp n with
          msgs := updWhere (fun x : RecvMsg => decide (x.num = num)) (fun x => { x with tries := x.tries + 1 }) (t.qp n).msgs } else t)
      | .bad _ t => .status 1 t
      | .ok _ t =>
        let fresh := !m.got.any (fun k => k == off)
        let m1 := { m with got := if fresh then m.got ++ [off] else m.got, total := if fresh then m.total + p.payload.length else m.total,
                           tries := 0 }
        if m1.total ≥ m1.len.toNat then
          let t1 := (t.setQp n { t.qp n with msgs := (t.qp n).msgs.filter (fun x => decide (x.num ≠ num)) }).recvRecord n c m1.tag 1 m1.len
            (t.freeVal.setWidth 32)
          .status 0 (t1.took 1)
        else .status 0 (t.setQp n { t.qp n with msgs := updWhere (fun x : RecvMsg => decide (x.num = num)) (fun _ => m1) (t.qp n).msgs })

/-- An ATOMIC is performed far, at its home, and answered (Table 12-8, R331). -/
def State.doAtomic (s : State) (p : Pkt) : Did :=
  let n := p.dqpn.val
  if isCollAddr p.addr then s.umtColl p 4
  else
    let wide := bit p.aux 4
    let len := if wide then 8 else 4
    let st := s.peerCheck p.srcDev p.addr.toNat len 0
    if st ≠ 0 then .status st s
    else
      let h := s.atHomes (.umtAtomic p) (secsOf false p.addr.toNat len) true
      if h.1 = false then .waits h.2
      else if h.2.cohBad false p.addr.toNat len then .status 3 h.2
      else
        let x := h.2.farAtomic p.addr.toNat (bits p.aux 3 0) wide (BitVec.ofNat 64 (leVal (p.payload.take 8)))
          (BitVec.ofNat 64 (leVal (p.payload.drop 8)))
        let q := x.2.qp n
        let s2 := x.2.setQp n { q with atomics := (q.atomics ++ [(p.psn, x.1)]).drop (q.atomics.length + 1 - 16) }
        .status 0 (s2.netSend n .reply [mkPkt 5 0 (BitVec.ofNat 32 p.psn.toNat) (leBytes 8 x.1.toNat)])

/-- A retransmitted ATOMIC is answered from the answers kept (R331). -/
def State.atomicAgain (s : State) (p : Pkt) : State :=
  let n := p.dqpn.val
  match (s.qp n).atomics.find? (fun x => decide (x.1 = p.psn)) with
  | some x => s.netSend n .reply [mkPkt 5 0 (BitVec.ofNat 32 p.psn.toNat) (leBytes 8 x.2.toNat)]
  | none => s

/-- An ATOMIC_RESP brings the old value (Table 12-8). -/
def State.doAtomicResp (s : State) (p : Pkt) : Did :=
  let n := p.dqpn.val
  let psn : BitVec 24 := BitVec.ofNat 24 (bits p.aux 23 0)
  let st : Byte := BitVec.ofNat 8 (bits p.aux 31 24)
  match (s.qp n).waits.find? (fun w => decide (w.psn = psn) && w.len == 0) with
  | none => .status 0 s
  | some w =>
    let s1 := s.setQp n { s.qp n with waits := (s.qp n).waits.filter (fun x => decide (x.psn ≠ psn)) }
    .status 0 (s1.netEnd n w.own w.addr true (if st ≠ 0 then .refused st else .old (BitVec.ofNat 64 (leVal p.payload))))

/-- A NOTIFY is held until the packets before it are in place (R330). -/
def State.doNotify (s : State) (p : Pkt) : Did :=
  let n := p.dqpn.val
  let h : Held := { psn := p.psn, kind := 3, tag := 0, len := 0, imm := p.aux }
  let q := s.qp n
  .status 0 (if q.cfg.isNone then s else s.setQp n { q with held := insHeld h q.held })

/-- UMT_WRITE (R327): each packet of a WRITE is placed on its arrival. -/
def execUmtWrite (p : Pkt) (s : State) : Host.Outcome State Fault Refusal := .next (s.umt (.umtWrite p) p id (fun t => t.doWrite p))
/-- UMT_READ_REQ (R327). -/
def execUmtReadReq (p : Pkt) (s : State) : Host.Outcome State Fault Refusal := .next (s.umt (.umtReadReq p) p id (fun t => t.doRead p))
/-- UMT_READ_RESP (R327). -/
def execUmtReadResp (p : Pkt) (s : State) : Host.Outcome State Fault Refusal := .next (s.umt (.umtReadResp p) p id (fun t => t.doReadResp p))
/-- UMT_SEND (R327). -/
def execUmtSend (p : Pkt) (s : State) : Host.Outcome State Fault Refusal := .next (s.umt (.umtSend p) p id (fun t => t.doSend p))
/-- UMT_ATOMIC (R331). -/
def execUmtAtomic (p : Pkt) (s : State) : Host.Outcome State Fault Refusal :=
  .next (s.umt (.umtAtomic p) p (fun t => t.atomicAgain p) (fun t => t.doAtomic p))
/-- UMT_ATOMIC_RESP (R327). -/
def execUmtAtomicResp (p : Pkt) (s : State) : Host.Outcome State Fault Refusal := .next (s.umt (.umtAtomicResp p) p id (fun t => t.doAtomicResp p))
/-- UMT_NOTIFY (R330). -/
def execUmtNotify (p : Pkt) (s : State) : Host.Outcome State Fault Refusal := .next (s.umt (.umtNotify p) p id (fun t => t.doNotify p))

/-- UMT_ACK (R336): an acknowledgement acts on the sender of the queue pair that it names; one of another generation is dropped (R344). -/
def execUmtAck (p : Pkt) (s : State) : Host.Outcome State Fault Refusal :=
  let i := p.ifc.val
  let n := p.dqpn.val
  let s1 := s.setIfc i { s.ifc i with rx := satAdd (s.ifc i).rx 1, ce := satAdd (s.ifc i).ce (b2n p.ce) }
  .next (if bit s.net.gctl 0 = false ∨ p.mcast.isSome ∨ !s.qpUsed n ∨ s.peer n ≠ p.srcDev then s1.dropFrame i
    else if (s.qp n).state = .dead then s1
    else if p.gen ≠ s.genOf n then s1.dropFrame i
    else ((s1.gotAck n p).collRun).pumpQp n)

/-! ### Packets of collective space (13_collectives_and_hawk_store.md Table 13-4) -/

/-- A packet of a kind of collective space; another packet is none of this command's. -/
def State.umtKind (s : State) (c : Instr) (p : Pkt) (kind : Nat) (dup : State → State) (perform : State → Did) : State :=
  if isCollAddr p.addr ∧ bits p.addr 31 28 = kind then s.umt c p dup perform else s

/-- CLAIM (R360): a collective's claim arrives at a node or at a peer. -/
def execClaim (p : Pkt) (s : State) : Host.Outcome State Fault Refusal :=
  .next (s.umtKind (.claim p) p 0 (fun t => t.atomicAgain p) (fun t => t.umtColl p 4))
/-- CONTRIB (R361): a contribution, or a partial sum of a pod, arrives at a node. -/
def execContrib (p : Pkt) (s : State) : Host.Outcome State Fault Refusal := .next (s.umtKind (.contrib p) p 1 id (fun t => t.umtColl p 0))
/-- DONE (R361): a child holds its result chunk. -/
def execDone (p : Pkt) (s : State) : Host.Outcome State Fault Refusal :=
  .next (s.umtKind (.done p) p 3 (fun t => t.atomicAgain p) (fun t => t.umtColl p 4))
/-- STAGE (R362): data of an endpoint algorithm. -/
def execStage (p : Pkt) (s : State) : Host.Outcome State Fault Refusal := .next (s.umtKind (.stage p) p 4 id (fun t => t.umtColl p 0))

/-- A multicast RESULT: accepted by the members that its mask names and that hold the group with its epoch, dropped by others (R364). -/
def State.mcastResult (s : State) (p : Pkt) (pod : Byte) (mask : BitVec 256) : State :=
  let i := p.ifc.val
  let s1 := s.setIfc i { s.ifc i with rx := satAdd (s.ifc i).rx 1, ce := satAdd (s.ifc i).ce (b2n p.ce) }
  let g := bits p.addr 43 32
  match s.groupEntry g with
  | none => s1.dropFrame i
  | some e =>
    let mine := pod.toNat == podOf s.xlt.devnum && mask.getLsbD (s.xlt.devnum.toNat % 256)
    if bit s.net.gctl 0 = false ∨ p.dqpn.val ≠ p.srcDev.toNat ∨ !mine ∨ (gEpoch e).setWidth 8 ≠ p.gen then s1.dropFrame i
    else match s1.landResult g (BitVec.ofNat 16 (bits p.aux 31 16)) (bits p.addr 27 16) (bits p.addr 15 0) p.payload with
      | .ok t => t.collRun
      | .wait t => t

/-- RESULT (R363): a finished chunk arrives, from a node over a queue pair or as a multicast frame. -/
def execResult (p : Pkt) (s : State) : Host.Outcome State Fault Refusal :=
  .next (match p.mcast with
    | some (pod, mask) => if isCollAddr p.addr ∧ bits p.addr 31 28 = 2 then s.mcastResult p pod mask else s
    | none => s.umtKind (.result p) p 2 id (fun t => t.umtColl p 0))

/-! ### Timers (R335, R337, R339, R341) -/

/-- ACK_DELAY_EXPIRY (R335): an acknowledgement is owed for NET_TIMERS.ACK_DELAY. -/
def execAckDelayExpiry (qp : Fin 262144) (s : State) : Host.Outcome State Fault Refusal :=
  .next (match (s.qp qp.val).ackFor with
    | some a => if bit s.net.gctl 0 then s.sendAck qp.val a 0 0 else s
    | none => s)

/-- The retransmission timer of a queue pair expires: the oldest packet goes again and the window falls to 512 bytes; the eighth expiry
in a row exhausts the queue pair (R339, R340). -/
def State.retransmit (s : State) (n : Nat) : State :=
  let q := s.qp n
  match q.sent with
  | [] => s
  | x :: _ =>
    if bit s.net.gctl 0 = false then s
    else if q.expiries + 1 ≥ 8 then (s.setQp n { q with expiries := 8 }).exhaust n
    else (s.setQp n { q with expiries := q.expiries + 1, cwnd := 512, timer := Nat.max (s.rto q) (s.rtoMin * 2 ^ (q.expiries + 1)) }).resend n x

/-- RETRANSMIT_TIMER_EXPIRY (R339). -/
def execRetransmitTimerExpiry (qp : Fin 262144) (s : State) : Host.Outcome State Fault Refusal :=
  .next (((s.retransmit qp.val).collRun).pumpQp qp.val)

/-- PATH_PENALTY_EXPIRY (R337): a path comes back after 1 ms. -/
def execPathPenaltyExpiry (qp : Fin 262144) (path : BitVec 6) (s : State) : Host.Outcome State Fault Refusal :=
  let q := s.qp qp.val
  .next ((s.setQp qp.val { q with penal := q.penal.filter (fun k => k != path.toNat) }).pumpQp qp.val)

/-- PACING_TIMER (R341): the wait of SRTT × 4,096 ÷ cwnd after a packet is over. -/
def execPacingTimer (qp : Fin 262144) (s : State) : Host.Outcome State Fault Refusal :=
  .next ((s.setQp qp.val { s.qp qp.val with paced := false }).pumpQp qp.val)

end Sys2Proof.Machine
end

