-- ==== Sys2Proof/Machine/NetWr.lean ====
section
/-! DEFINITION. Work requests of explicit queue pairs, and what changes the network engine, its ports and its windows
(12_umakin_transport.md R308, R318, R320 to R326, R333, R344 to R346). -/
namespace Sys2Proof.Machine

/-! ### Send rings (R321) -/

/-- Fetch the work requests from the send ring's consumer index on: a slot of the wrong phase, or that cannot be read, stops the fetch,
and is read again at the next doorbell. -/
def State.fetchWrs (n : Nat) : Nat → State → State
  | 0, s => s
  | fuel + 1, s =>
    let q := s.qp n
    match q.cfg with
    | none => s
    | some c =>
      if (q.state ≠ .ready ∧ q.state ≠ .error) ∨ q.sci = q.spi then s
      else match s.tableRead (c.sring.toNat + 64 * q.sci.toNat) 64 with
        | none => s
        | some v =>
          let d : BitVec 512 := BitVec.ofNat 512 v
          if bit d 7 ≠ q.sphase then s
          else
            let w : Wr := { slot := q.sci.toNat, desc := d, started := false, left := 0, got := 0, tries := 0, old := 0, status := none, rnr := 0,
                            again := false, num := 0 }
            let wrap := q.sci.toNat + 1 == 2 ^ c.slog2
            State.fetchWrs n fuel (s.setQp n { q with sci := if wrap then 0 else q.sci + 1, sphase := if wrap then !q.sphase else q.sphase,
                                                      wrs := q.wrs ++ [w] })

/-- Whether a work request has a reserved field or value (R321, Table 12-7). -/
def Wr.bad (w : Wr) : Bool :=
  let d := w.desc
  decide (w.op = 0) || decide (w.op > 6) || bits d 15 11 != 0 || bits d 31 16 != 0 || decide (w.len > 2 ^ 31 - 1) ||
    (w.op == 3 && decide (w.len > 16777216)) || bits d 263 261 != 0 || bits d 319 264 != 0 || bits d 511 448 != 0 ||
    (w.op == 5 && (decide (bits d 259 256 > 10) || (bits d 259 256 == 10 && bit d 260)))

/-- Whether a work request may start: its queue pair is READY, the engine sends, the ones before it have started, and under FENCE have
completed. -/
def State.wrMay (s : State) (n : Nat) (w : Wr) : Bool :=
  let before := (s.qp n).wrs.takeWhile (fun x => x.slot != w.slot)
  decide ((s.qp n).state = .ready) && bit s.net.gctl 0 && !s.net.quiet && !w.started && before.all (fun x => x.started) &&
    (!bit w.desc 10 || before.isEmpty)

/-- A malformed work request whose turn has come completes, and its queue pair enters ERROR (R320, R321). -/
def State.endBadWr (s : State) (n : Nat) : State :=
  match (s.qp n).wrs.find? (fun w => !w.started) with
  | some w => if w.bad && s.wrMay n w then (s.updWr n w.slot (fun x => { x with started := true })).endWr n { w with started := true } 7 0 else s
  | none => s

/-- The local address of a work request. -/
def Wr.laddr (w : Wr) : W64 := BitVec.ofNat 64 (bits w.desc 127 64)
/-- The remote device offset of a work request. -/
def Wr.roff (w : Wr) : Nat := bits w.desc 191 128
/-- The immediate of a work request. -/
def Wr.imm (w : Wr) : W32 := BitVec.ofNat 32 (bits w.desc 255 224)

/-- The packets of a WRITE: under WRITE_NOTIFY the last carries the immediate, and stands alone for a write of no bytes. -/
def Wr.writes (w : Wr) (bs : List Byte) : List TxPkt :=
  let ps := writePkts w.roff bs
  if w.op = 2 then
    (if ps = [] then [mkPkt 6 0 w.imm []]
     else ps.map (fun p => if p.isLast then { p with notify := true, aux := w.imm } else p))
  else ps

/-- The packets of a SEND, by the byte offset in the message. -/
def Wr.sends (w : Wr) (num : W32) (bs : List Byte) : List TxPkt :=
  (messageOf 3 (BitVec.ofNat 32 w.len) 0 (chunksAt 4096 (bs.length / 4096 + 2) 0 bs)).map (fun p =>
    { p with addr := BitVec.ofNat 64 (num.toNat * 2 ^ 32 + p.addr.toNat) })

/-- A work request sends packets, each of which it waits for; with none it is complete. -/
def State.wrSend (s : State) (n : Nat) (w : Wr) (ps : List TxPkt) : State :=
  let x := { w with started := true, left := ps.length, tries := 0, again := false }
  let s1 := s.updWr n w.slot (fun _ => x)
  if ps = [] then s1.endWr n x 0 0 else s1.netSend n (.wr w.slot) ps

/-- A work request of an operation starts, when it may. -/
def State.startWr (s : State) (n slot op : Nat) (f : State → QpCfg → Wr → State) : State :=
  match (s.qp n).wrs.find? (fun w => w.slot == slot), (s.qp n).cfg with
  | some w, some c => if w.op ≠ op ∨ w.bad ∨ !s.wrMay n w then s else ((f s c w).endBadWr n).collRun
  | _, _ => s

/-- A work request reads its local bytes and goes on with them, waits for their translation, or fails. -/
def State.wrBytes (s : State) (n : Nat) (c : QpCfg) (w : Wr) (f : State → List Byte → State) : State :=
  if w.len = 0 then f s []
  else match State.virtRead (wrWant n w.slot c.pasid w.tries) (pagesOf w.laddr w.len) [] s with
    | .ok bs t => f t bs
    | .bad st t => (t.updWr n w.slot (fun x => { x with started := true })).endWr n { w with started := true } st.toNat 0
    | .wait page t => if page then t.updWr n w.slot (fun x => { x with tries := x.tries + 1 }) else t

/-- WR_WRITE (R327): the local bytes go out as WRITE packets. -/
def execWrWrite (qp : Fin 262144) (slot : W16) (s : State) : Host.Outcome State Fault Refusal :=
  .next (s.startWr qp.val slot.toNat 1 (fun t c w => t.wrBytes qp.val c w (fun u bs => u.wrSend qp.val w (w.writes bs))))

/-- WR_WRITE_NOTIFY (R327): as a WRITE, and its last packet carries the immediate. -/
def execWrWriteNotify (qp : Fin 262144) (slot : W16) (s : State) : Host.Outcome State Fault Refusal :=
  .next (s.startWr qp.val slot.toNat 2 (fun t c w => t.wrBytes qp.val c w (fun u bs => u.wrSend qp.val w (w.writes bs))))

/-- WR_READ (R327): one READ_REQ for the whole range. -/
def execWrRead (qp : Fin 262144) (slot : W16) (s : State) : Host.Outcome State Fault Refusal :=
  .next (s.startWr qp.val slot.toNat 3 (fun t _ w => t.wrSend qp.val w (if w.len = 0 then [] else [readPkt w.roff w.len])))

/-- A SEND takes the next message number of its queue pair, and keeps it when it is sent again. -/
def State.sendMsg (s : State) (n : Nat) (w : Wr) (bs : List Byte) : State :=
  let num := (s.qp n).msgNum
  let s1 := s.setQp n { s.qp n with msgNum := num + 1 }
  s1.wrSend n { w with num := num } (w.sends num bs)

/-- WR_SEND (R327): the local bytes go out as SEND packets of one message. -/
def execWrSend (qp : Fin 262144) (slot : W16) (s : State) : Host.Outcome State Fault Refusal :=
  .next (s.startWr qp.val slot.toNat 4 (fun t c w => t.wrBytes qp.val c w (fun u bs => u.sendMsg qp.val w bs)))

/-- WR_ATOMIC (R327): one ATOMIC packet. -/
def execWrAtomic (qp : Fin 262144) (slot : W16) (s : State) : Host.Outcome State Fault Refusal :=
  .next (s.startWr qp.val slot.toNat 5 (fun t _ w => t.wrSend qp.val w
    [atomicPkt w.roff (BitVec.ofNat 4 (bits w.desc 259 256)) (bit w.desc 260) (BitVec.ofNat 64 (bits w.desc 383 320))
      (BitVec.ofNat 64 (bits w.desc 447 384))]))

/-- WR_NOTIFY (R327): one NOTIFY packet with the immediate. -/
def execWrNotify (qp : Fin 262144) (slot : W16) (s : State) : Host.Outcome State Fault Refusal :=
  .next (s.startWr qp.val slot.toNat 6 (fun t _ w => t.wrSend qp.val w [mkPkt 6 0 w.imm []]))

/-- A SEND that was refused for want of a buffer is sent again (R339). -/
def State.resendSend (s : State) (n : Nat) (w : Wr) : State :=
  match (s.qp n).cfg with
  | none => s
  | some c => if w.again && w.left == 0 then s.wrBytes n c w (fun t bs => t.wrSend n w (w.sends w.num bs)) else s

/-- RNR_RETRY_TIMER (R339): NET_TIMERS.RNR is over for a queue pair. -/
def execRnrRetryTimer (qp : Fin 262144) (s : State) : Host.Outcome State Fault Refusal :=
  .next (s.each (s.qp qp.val).wrs (fun t w => t.resendSend qp.val w))

/-- In ERROR, the work requests that have not started complete with FLUSHED (R320). -/
def State.flushWrs (s : State) (n : Nat) : State :=
  if (s.qp n).state = .error then s.each ((s.qp n).wrs.filter (fun x => !x.started)) (fun t x => t.sendRecord n x 10 0) else s

/-- A doorbell of a ring: explicit queue pairs in use alone have one. A producer index outside the ring is ignored, and stops the send
direction as a work queue's would be stopped: the queue pair enters ERROR (R293, R321). -/
def State.sendBell (s : State) (n : Nat) (pi : W16) : State :=
  match (s.qp n).cfg with
  | none => s
  | some c =>
    if pi.toNat ≥ 2 ^ c.slog2 then
      (if (s.qp n).state = .ready then
        (s.setQp n { s.qp n with state := .error }).flushWrs n
       else s)
    else ((State.fetchWrs n 65536 (s.setQp n { s.qp n with spi := pi })).flushWrs n).endBadWr n

/-- SEND_RING_DOORBELL (R321): NET_QP_DB with RQ = 0. -/
def execSendRingDoorbell (qp : Fin 262144) (pi : W16) (s : State) : Host.Outcome State Fault Refusal :=
  .next (s.barWrite 13 0x400030 (fun t => t.sendBell qp.val pi))

/-- The driver has posted receive buffers up to an index. -/
def State.recvBell (s : State) (n : Nat) (pi : W16) : State :=
  match (s.qp n).cfg with
  | none => s
  | some c => if pi.toNat ≥ 2 ^ c.rlog2 then s else s.setQp n { s.qp n with rpi := pi }

/-- RECEIVE_RING_DOORBELL (R323): NET_QP_DB with RQ = 1. -/
def execReceiveRingDoorbell (qp : Fin 262144) (pi : W16) (s : State) : Host.Outcome State Fault Refusal :=
  .next (s.barWrite 13 0x400030 (fun t => t.recvBell qp.val pi))

/-- QP_CONTEXT_FILL (R318): a miss brings a context on die; the least recently used of 16,384 makes room. -/
def execQpContextFill (qp : Fin 262144) (s : State) : Host.Outcome State Fault Refusal :=
  .next (if s.qpUsed qp.val then
      { s with net := { s.net with cached := (qp.val :: s.net.cached.filter (fun k => k != qp.val)).take 16384 } }
    else s)

/-- An implicit queue pair returns to IDLE with its generation raised; what an ACTIVE one had outstanding ends as at a dead peer
(R345). -/
def State.iqpReset (s : State) (n : Nat) : State :=
  let q := s.qp n
  let g := q.gen + 1
  let s1 := if q.state = .active then (s.setQp n { q with state := .dead }).failAll n else s
  (s1.setQp n { Qp.init with gen := g }).collRun

/-- NET_IQP_RESET (R345): NET_IQP_CTL with RESET for a device. -/
def execNetIqpReset (dev : W16) (s : State) : Host.Outcome State Fault Refusal :=
  .next (s.barWrite 13 0x400038 (fun t => t.iqpReset dev.toNat))

/-- Every queue pair sends what it may. -/
def State.pumpAll (s : State) : State := s.pumpQps (s.net.qp.map (fun x => x.1))

/-- NET_GCTL is written: UDP_PORT, GEN0 and IMASK only while EN is 0; a reserved DPRIO leaves DPRIO as it was; at EN's rise the implicit
contexts take GEN0 (R344, R346, Table 12-11). -/
def State.netGctl (s : State) (v : W64) : State :=
  let old := s.net.gctl
  let en := bit old 0
  let a := if en then old else setBits (setBits (setBits old 63 48 (bits v 63 48)) 47 40 (bits v 47 40)) 31 12 (bits v 31 12)
  let b := if bits v 34 32 ≥ 6 then a else setBits a 34 32 (bits v 34 32)
  let g := setBits (setBits b 11 6 (bits v 11 6)) 0 0 (bits v 0 0)
  let s1 : State := { s with net := { s.net with gctl := g } }
  if !en && bit v 0 then
    let s2 : State := { s1 with net := { s1.net with gen0 := BitVec.ofNat 8 (bits g 47 40) } }
    (s2.each s2.net.qp (fun t x => if isImplicit x.1 then t.setQp x.1 { t.qp x.1 with gen := 0 } else t)).pumpAll
  else s1

/-- NET_GCTL_WRITE (R344). -/
def execNetGctlWrite (v : W64) (s : State) : Host.Outcome State Fault Refusal :=
  .next (s.barWrite 13 0x400000 (fun t => t.netGctl v))

/-- An interface that is up goes down: an arrival at event source 412 and an event of its fault source (15_faults_and_dust_sheets.md
Table 15-9; 16_stolpel_and_events.md R440). -/
def State.ifcDown (s : State) (i : Nat) : State :=
  if (s.ifc i).up then ((s.setIfc i { s.ifc i with up := false }).event 412).report 7 i 1 0 else s

/-- An interface comes up, with a record, and its fault source's error is gone. -/
def State.ifcUp (s : State) (i : Nat) : State :=
  if (s.ifc i).up then s
  else
    let s1 := (s.setIfc i { s.ifc i with up := true }).event 412
    (s1.offer (s1.plainRec 9 i 0 2 0 (leBytes 2 i)) none).emit
      (.noc (.faultSourceCleared { g := 7, u := BitVec.ofNat 16 i, k := 1 }))

/-- A port takes a mode: its interfaces go down and retrain in it (R308). -/
def State.portMode (s : State) (p : Nat) (mode : BitVec 2) : State :=
  let s1 := (s.ifcDown (2 * p)).ifcDown (2 * p + 1)
  s1.setNport p { s1.nport p with mode := mode }

/-- The network-pair domain of port p. -/
def netDom (p : Nat) : Nat := 13 + 9 * (p / 2)

/-- PORT_MODE_WRITE (R308): NET_PORT_CFG.MODE is written. -/
def execPortModeWrite (p : Fin 10) (mode : BitVec 2) (s : State) : Host.Outcome State Fault Refusal :=
  .next (s.barWrite (netDom p.val) (0x410000 + 0x1000 * p.val) (fun t => t.portMode p.val mode))

/-- Window w is written; every packet checked from now on meets the new window, and WIN_BUSY reads 1 until the placements that passed the
old check have been performed (R326). -/
def State.setWindow (s : State) (w : Nat) (base len : W64) (src : W32) : State :=
  let old := Tab.get Win.init s.net.win w
  let x : Win := { old with base := base &&& 0xF0003FFFFFFFF000, len := len &&& 0x00003FFFFFFFF000, src := src }
  if x = old then s
  else { s with net := { s.net with win := Tab.set Win.init s.net.win w x, winBusy := true } }

/-- WINDOW_WRITE (R326): the registers of a memory window are written. -/
def execWindowWrite (n : Byte) (base len : W64) (src : W32) (s : State) : Host.Outcome State Fault Refusal :=
  .next (s.barWrite 13 (0x401000 + 0x20 * n.toNat) (fun t => t.setWindow n.toNat base len src))

/-- INTERFACE_DOWN (R333): paths through the interface count as under penalty. -/
def execInterfaceDown (ifc : Fin 20) (s : State) : Host.Outcome State Fault Refusal :=
  .next (s.ifcDown ifc.val)

/-- INTERFACE_UP (R308): an interface that its port's mode has comes up, and queue pairs send what they may. One whose module cannot be
identified stays down (18_identity_and_optical_modules.md R485). -/
def execInterfaceUp (ifc : Fin 20) (s : State) : Host.Outcome State Fault Refusal :=
  let p := ifc.val / 2
  .next (if s.ifcPresent ifc.val && s.domOn (netDom p) && !s.regionDust (p / 2) && !s.dusted (.netPort (Fin.ofNat 10 p)) &&
    !((s.modl p).inserted && (s.modl p).id.isNone) then
      (s.ifcUp ifc.val).pumpAll else s)

end Sys2Proof.Machine
end

