-- ==== Sys2Proof/Machine/SkimOps.lean ====
section
/-! DEFINITION. The operations of the skim lanes: the lane configuration block and its checks, the timing check of a schedule, matching,
features, schedules as they run, replies and delivery records (14_skim_lanes.md R370 to R390). -/
namespace Sys2Proof.Machine

/-! ### The lane configuration block (R373, Tables 14-1 to 14-6) -/

/-- n bytes of a configuration block from an offset on, as a number. -/
def lcbN (l : Tab Byte) (off n : Nat) : Nat := leVal ((List.range n).map (fun k => Tab.get 0 l (off + k)))
/-- A configuration block from its bytes. -/
def lcbOf (bs : List Byte) : Tab Byte := bs.zipIdx.foldl (fun a x => Tab.set 0 a x.2 x.1) []
/-- The bytes of a configuration block. -/
def lcbSize : Nat := 0x9000

/-- C. -/
def lC (l : Tab Byte) : Nat := lcbN l 0 2
/-- NENT. -/
def lNent (l : Tab Byte) : Nat := lcbN l 2 2 % 2048
/-- PAIR. -/
def lPair (l : Tab Byte) : Nat := lcbN l 4 1 / 64
/-- SIDE. -/
def lSide (l : Tab Byte) : Nat := lcbN l 4 1 / 16 % 4
/-- FCSWAIT. -/
def lFcsWait (l : Tab Byte) : Bool := lcbN l 4 1 / 8 % 2 == 1
/-- NOANS. -/
def lNoans (l : Tab Byte) : Bool := lcbN l 4 1 / 4 % 2 == 1
/-- The blocks of a side. -/
def lNblk (l : Tab Byte) : Nat := lcbN l 5 1 / 16 % 8 + 1
/-- NCELLS. -/
def lNcells (l : Tab Byte) : Nat := lcbN l 6 1 % 32
/-- NRULE. -/
def lNrule (l : Tab Byte) : Nat := lcbN l 7 1 % 16
/-- The blocks that a side names: PBLK or QBLK. -/
def lBlocks (l : Tab Byte) (partner : Bool) : List Nat :=
  (List.range (lNblk l)).map (fun k => lcbN l ((if partner then 16 else 8) + k) 1)
/-- The sides of a lane. -/
def lSides (l : Tab Byte) : List Bool := if lPair l = 0 then [false] else [false, true]
/-- NFEAT. -/
def lNfeat (l : Tab Byte) : Nat := lcbN l 24 1
/-- NFILL. -/
def lNfill (l : Tab Byte) : Nat := lcbN l 25 1
/-- TLEN. -/
def lTlen (l : Tab Byte) : Nat := lcbN l 26 2
/-- CSUM. -/
def lCsum (l : Tab Byte) : Nat := lcbN l 29 1 % 16
/-- CSOFF. -/
def lCsoff (l : Tab Byte) : Nat := lcbN l 30 2
/-- RESOFF. -/
def lResoff (l : Tab Byte) : Nat := lcbN l 44 4 % 2 ^ 21
/-- RLOG2. -/
def lRlog2 (l : Tab Byte) : Nat := lcbN l 56 8 % 32
/-- RING. -/
def lRing (l : Tab Byte) : Nat := lcbN l 56 8 % 2 ^ 46 / 4096 * 4096
/-- The interface on which a reply leaves. -/
def lTxif (l : Tab Byte) (arrival : Nat) : Nat := if lcbN l 28 1 / 128 = 1 then arrival else lcbN l 28 1 % 32

/-- Where match rule k begins. -/
def ruleAt (k : Nat) : Nat := 0x440 + 64 * k
/-- Where feature k begins. -/
def featAt (k : Nat) : Nat := 0x640 + 16 * k
/-- Where fill k begins. -/
def fillAt (k : Nat) : Nat := 0xA40 + 8 * k
/-- Where schedule entry k begins. -/
def entAt (k : Nat) : Nat := 0x1000 + 32 * k

/-- KIND of a feature. -/
def fKind (l : Tab Byte) (k : Nat) : Nat := lcbN l (featAt k + 2) 1 / 16
/-- The bytes of a feature's source. -/
def fWidth (l : Tab Byte) (k : Nat) : Nat := 2 ^ (lcbN l (featAt k + 2) 1 / 4 % 4)
/-- DFMT of a feature. -/
def fDfmt (l : Tab Byte) (k : Nat) : Nat := lcbN l (featAt k + 3) 1 % 16
/-- DEST of a feature. -/
def fDest (l : Tab Byte) (k : Nat) : Nat := lcbN l (featAt k + 4) 4 % 2 ^ 21
/-- KIND of a fill. -/
def rKind (l : Tab Byte) (k : Nat) : Nat := lcbN l (fillAt k + 2) 1 / 16
/-- The bytes of a fill. -/
def rWidth (l : Tab Byte) (k : Nat) : Nat := lcbN l (fillAt k + 2) 1 % 16 + 1

/-- The trigger byte of a lane that does not wait for the FCS: the highest frame byte that it names (R375). -/
def lTrigger (l : Tab Byte) : Nat :=
  let terms := (List.range (lNrule l)).flatMap (fun k => (List.range 4).map (fun t =>
    if lcbN l (ruleAt k + 12 + 12 * t) 4 = 0 then 0 else lcbN l (ruleAt k + 8 + 12 * t) 2 + 3))
  let feats := (List.range (lNfeat l)).map (fun k => if fKind l k ≤ 3 then lcbN l (featAt k) 2 + fWidth l k - 1 else 0)
  let fills := (List.range (lNfill l)).map (fun k => if rKind l k = 1 then lcbN l (fillAt k + 4) 4 + rWidth l k - 1 else 0)
  (terms ++ feats ++ fills).foldl Nat.max 0

/-- The deadline offset in NCLK cycles of 1.35 GHz (R386): 150 ns, C cycles of 0.85 GHz, 90 ns, and 15 ns for a pair. -/
def lDeadline (l : Tab Byte) : Nat :=
  let ns17 := 17 * (240 + (if lPair l = 0 then 0 else 15)) + 20 * lC l
  (ns17 * 135 + 1699) / 1700

/-! ### Schedule entries (R378, Table 14-5) -/

/-- The first word of a schedule entry. -/
def eWord (l : Tab Byte) (k : Nat) : W64 := BitVec.ofNat 64 (lcbN l (entAt k + 8) 8)
/-- The second word of a schedule entry. -/
def eExt (l : Tab Byte) (k : Nat) : W64 := BitVec.ofNat 64 (lcbN l (entAt k + 16) 8)
/-- The opcode of a first word. -/
def wOpc (w : W64) : Nat := bits w 13 6
/-- The tile descriptor that a first word names, of a configuration block. -/
def eDesc (l : Tab Byte) (w : W64) : BitVec 512 := BitVec.ofNat 512 (lcbN l (0x40 + 64 * bits w 17 14) 64)
/-- The vector operation of an opcode from 0xC0 to 0xD3 (05_veltur_instructions.md Table 5-11). -/
def vopOf (opc : Nat) : Option VOp :=
  ([VOp.add, .sub, .mul, .fma, .min, .max, .cmp, .abs, .neg, .scale, .div, .sqrt, .rcp, .rsq, .exp2, .exp, .rmax, .rsum, .cvt, .mov][opc - 0xC0]?).filter
    (fun _ => decide (0xC0 ≤ opc))

/-- What a schedule entry is. -/
inductive Ent where
  | cell (logical : Nat) (op : CellOp)
  | load (cells : List Nat) (d : BitVec 512) (ext : W64)
  | store (cell : Nat) (d : BitVec 512) (ext : W64)
  | bad (off : Nat)
  deriving DecidableEq, Repr

/-- A schedule entry's instruction, or the offset in the entry of a field that is refused: its opcode, guard, format, reserved fields and
values, stochastic rounding, cells, rows and descriptor (R378, R139). -/
def entOf (l : Tab Byte) (k : Nat) : Ent :=
  let w := eWord l k
  let x := eExt l k
  let opc := wOpc w
  let long := bit w 0
  let cells := lNcells l
  if bit w 4 then .bad 8
  else if opc = 0xA0 then
    let legal := match pairLimit (mAf x) (mBf x) with | some n => decide (mK x ≤ n) | none => false
    if !long then .bad 8
    else if bits x 63 62 != 0 || bits x 58 57 == 0 || bits x 60 59 ≥ 2 || !legal || decide (bits x 3 0 ≥ cells) ||
        (mReads x).any (fun p => decide (p.row + p.rows > 512)) then .bad 16
    else .cell (bits x 3 0) (.tmma x)
  else if opc = 0xA1 then
    let m : BitVec 26 := BitVec.ofNat 26 (bits w 63 38)
    if long || bits m 25 18 != 0 || bits m 14 13 == 0 || bits m 16 15 ≥ 2 || decide (bits m 3 0 ≥ cells) || decide (bits m 12 4 + 5 > 512) then .bad 8
    else if x ≠ 0 then .bad 16
    else .cell (bits m 3 0) (.tattn m)
  else if opc = 0x80 ∨ opc = 0x81 then
    let store := opc == 0x81
    let d := eDesc l w
    let named := tCells store x
    if !long then .bad 8
    else if dSpace d ≠ 2 ∨ descBad d store none then .bad 8
    else if tBad store x || tKind x ≥ 2 || named == [] || named.any (fun c => decide (c ≥ cells)) ||
        tRowsBad x (if store then dBytes d else dCellBytes d) (dScales d) then .bad 16
    else if store then .store (bits x 3 0) d x else .load named d x
  else match vopOf opc with
    | none => .bad 8
    | some v =>
      let locs := v.reads x ++ v.writes x
      if !long then .bad 8
      else if bits x 63 61 != 0 || vRnd x ≥ 2 || locs.any (fun p => locBad p.1) || (v == .cvt && decide (vFmt x > 9)) ||
          decide (bits x 3 0 ≥ cells) || locs.any pastEnd then .bad 16
      else .cell (bits x 3 0) (.vec v x)

/-! ### The timing check (R379) -/

/-- An instruction of a schedule as the check runs it: the cells it names, its unit (0 array, 1 vector, 2 loads, 3 stores), its phases, each
with the operand banks that each of its cycles still to come requests, the cycles until its results stand after them, whether it has
started, the rows it reads and writes, the first row of a TMMA's target buffer and whether it accumulates, the rows of a TATTN's Q and
K operands, and the instruction before it that it follows (TATTN) or into whose buffer it chains (TMMA). -/
structure Live where
  idx : Nat
  cells : List Nat
  port : Nat
  work : List (List (List Nat))
  tail : Nat
  going : Bool
  rd : List (Nat × Nat)
  wr : List (Nat × Nat)
  buf : Option Nat
  acc : Bool
  attn : Option (List (Nat × Nat))
  prev : Option Nat
  deriving DecidableEq, Repr

/-- The operand-store banks of ranges of rows (03_tensor_cells.md R63). -/
def banksOf (rs : List (Nat × Nat)) : List Nat :=
  (List.range 8).filter (fun b => rs.any (fun r => decide (r.1 < 512) && meets r.1 r.2 (64 * b) 64))

/-- Twice the products of a column that the array takes in a cycle, by the formats of an operand pair (Table 3-3). -/
def depth2 (a b : Nat) : Nat := match pairLimit a b with | some 1024 => 8 | some 512 => 4 | _ => 1

/-- The sweeps of a TMMA (02_formats_and_coats.md R57, R59). -/
def sweepsOf (coats a b : Nat) : Nat :=
  if a = 0 ∧ b = 0 then (if coats = 1 then 1 else if coats = 2 then 3 else 6) else if a = 0 ∨ b = 0 then coats else 1

/-- The cycles of a vector operation of nr rows (05_veltur_instructions.md R141). -/
def vecCycles (v : VOp) (nr : Nat) : Nat := match v with | .div | .sqrt => 4 * nr | _ => (nr + 1) / 2

/-- The attention control block that a cell's image holds. -/
def imageAcb (acb : Nat → Nat → BitVec 1024) (cell row : Nat) : Acb := { row := row, w := acb cell row }

/-- The banks that a vector operation of nr rows requests in cycle i: those of the rows of its operands that it works on then
(05_veltur_instructions.md R141). -/
def vecBanks (v : VOp) (nr i : Nat) (rs : List (Nat × Nat)) : List Nat :=
  let now : List Nat := match v with | .div | .sqrt => [i / 4] | _ => [2 * i, 2 * i + 1].filter (fun r => decide (r < nr))
  banksOf (rs.flatMap (fun p => now.map (fun r => (p.1 + r * p.2 / nr, 1))))

/-- The banks that the tile loader requests in each cycle: two rows a cycle, the elements' rows first and then the scales'
(04_blocks_and_threads.md R110). -/
def tileBanks (rs : List (Nat × Nat)) (bytes : Nat) : List (List Nat) :=
  let rows := rs.flatMap (fun p => (List.range p.2).map (fun k => p.1 + k))
  let n := (bytes + 511) / 512
  (List.range n).map (fun i => banksOf (((rows.drop (2 * i)).take (if i + 1 = n then rows.length else 2)).map (fun r => (r, 1))))

/-- A schedule entry as the check runs it; acb gives the first 128 bytes of a row of a cell's image. -/
def liveOf (acb : Nat → Nat → BitVec 1024) (k : Nat) : Ent → Option Live
  | .cell c (.tmma e) =>
    let t := (CellOp.tmma e).touches
    let n := sweepsOf (bits e 58 57) (mAf e) (mBf e) * mK e * 2 / depth2 (mAf e) (mBf e)
    some { idx := k, cells := [c], port := 0, work := [List.replicate n (banksOf ((mReads e).map (fun p => (p.row, p.rows))))], tail := 20,
           going := false, rd := t.1, wr := t.2, buf := some (mBuf e), acc := bit e 56, attn := none, prev := none }
  | .cell c (.tattn w) =>
    let a := imageAcb acb c (bits w 12 4)
    let rows : List Span → List (Nat × Nat) := fun l => l.map (fun p => (p.row, p.rows))
    let p : Span := { row := a.scratch + 64, n := 4096 * fmtW a.pf / 8 }
    some { idx := k, cells := [c], port := 0,
           work := [List.replicate (a.d * 2 / depth2 a.qf a.kf) (banksOf (rows a.scored)), List.replicate 33 [],
                    List.replicate (128 / depth2 a.pf a.vf * (a.cols / 64)) (banksOf (rows (a.valued ++ [p])))],
           tail := 20, going := false, rd := rows a.reads, wr := rows a.writes, buf := none, acc := false, attn := some (rows a.scored),
           prev := none }
  | .cell c (.vec v e) =>
    let t := (CellOp.vec v e).touches
    some { idx := k, cells := [c], port := 1, work := [(List.range (vecCycles v (vNr e))).map (fun i => vecBanks v (vNr e) i (t.1 ++ t.2))],
           tail := 0, going := false, rd := t.1, wr := t.2, buf := none, acc := false, attn := none, prev := none }
  | .load cs d e =>
    let rows := [(tRow e, rowsFor (dCellBytes d)), (tSrow e, rowsFor (dScales d))]
    some { idx := k, cells := cs, port := 2, work := [tileBanks rows (dCellBytes d + dScales d)], tail := 0, going := false, rd := [], wr := rows,
           buf := none, acc := false, attn := none, prev := none }
  | .store c d e =>
    let rows := [(tRow e, rowsFor (dBytes d)), (tSrow e, rowsFor (dScales d))]
    some { idx := k, cells := [c], port := 3, work := [tileBanks rows (dBytes d + dScales d)], tail := 0, going := false, rd := rows, wr := [],
           buf := none, acc := false, attn := none, prev := none }
  | _ => none

/-- Whether two instructions name a cell in common. -/
def Live.shares (a b : Live) : Bool := a.cells.any (fun c => b.cells.any (fun d => c == d))

/-- The instruction that an instruction follows or chains to, by those delivered before it, the last first: for a TATTN the cell instruction
delivered to its cell just before it, if that is a TATTN; for a TMMA that accumulates the last TMMA delivered to its cell, if that has
the same buffer and nothing between them uses the buffer (03_tensor_cells.md R65, R86). -/
def Live.after (x : Live) (before : List Live) : Option Nat :=
  match x.attn, x.buf with
  | some _, _ => (before.find? (fun y => decide (y.port < 2) && y.shares x)).bind (fun y => if y.attn.isSome then some y.idx else none)
  | none, some b =>
    if !x.acc then none
    else (before.find? (fun y => y.shares x && (y.buf.isSome || anyMeet [(b, 64)] (y.rd ++ y.wr)))).bind
      (fun y => if y.buf = some b then some y.idx else none)
  | none, none => none

/-- The instructions of a schedule in the order of their delivery, each with the one that it follows or chains to. -/
def linkLive : List Live → List (Nat × Live) → List (Nat × Live)
  | _, [] => []
  | before, (c, x) :: rest => (c, { x with prev := x.after before }) :: linkLive (x :: before) rest

/-- Whether a TATTN follows an earlier one, and waits for none of its writes with its Q and K operands (R65, R86). -/
def Live.follows (later earlier : Live) : Bool :=
  match later.attn with
  | some a => later.prev == some earlier.idx && !anyMeet a earlier.wr
  | none => false

/-- Whether an instruction must wait for an earlier, incomplete one (R65). -/
def Live.waits (later earlier : Live) : Bool :=
  if !later.shares earlier || later.follows earlier then false
  else
    let exempt := later.buf.isSome && later.prev == some earlier.idx
    let buf := match later.buf with | some b => [(b, 64)] | none => []
    let rd := if exempt then later.rd.filter (fun r => !(buf.any (fun x => x == r))) else later.rd
    let wr := if exempt then later.wr.filter (fun r => !(buf.any (fun x => x == r))) else later.wr
    anyMeet wr (earlier.rd ++ earlier.wr) || anyMeet rd earlier.wr

/-- Whether an earlier instruction keeps the unit that a later one needs: the array or the vector unit of its cell, or the tile loader's
direction. A TATTN in its exponential phase leaves the array to the one that follows it (R86). -/
def Live.holds (earlier later : Live) : Bool :=
  earlier.port == later.port && !earlier.work.isEmpty && (decide (later.port ≥ 2) || later.shares earlier) &&
    !(later.follows earlier && earlier.going && earlier.work.length == 2)

/-- The instructions of a cycle start that may, in order. -/
def startLive : List Live → List Live → List Live
  | done, [] => done
  | done, x :: rest =>
    if x.going then startLive (done ++ [x]) rest
    else
      let stuck := done.any (fun p => x.waits p || p.holds x)
      startLive (done ++ [if stuck then x else { x with going := true }]) rest

/-- The port that a bank of a cell grants among those that request it, from its pointer on (R64). -/
def grantOf (reqs : List Nat) (ptr : Nat) : Option Nat := ((List.range 4).map (fun k => (ptr + k) % 4)).find? (fun p => reqs.any (fun r => r == p))

/-- Bank ports as R64 numbers them: loader write, array read, vector, store read. -/
def portNo (u : Nat) : Nat := match u with | 0 => 1 | 1 => 2 | 2 => 0 | _ => 3

/-- The banks that an instruction requests in this cycle. -/
def Live.asks (x : Live) : List Nat :=
  if !x.going then [] else match x.work with | (b :: _) :: _ => b | _ => []

/-- A cycle of an instruction's phase is done. -/
def Live.did (x : Live) : Live :=
  match x.work with
  | (_ :: more) :: rest => { x with work := more :: rest }
  | _ => x

/-- A phase that has no cycle left ends: the scores of a TATTN wait for the step that it follows to have left the array, and its
exponentials for the scores of the step that follows it (R86). -/
def Live.next (live : List Live) (x : Live) : Live :=
  match x.work with
  | [] :: rest =>
    let other : Bool := match x.attn, rest.length with
      | some _, 2 => live.any (fun p => x.follows p && !(p.work == [] || p.work == [[]]))
      | some _, 1 => live.any (fun y => y.follows x && y.going && y.work.length == 3 && y.work.head? != some [])
      | _, _ => false
    if other then x else { x with work := rest }
  | _ => x

/-- One cycle of the instructions that run: each goes on when every bank that it requests is granted in every cell that it names. -/
def tickLive (live : List Live) (ptrs : Tab Nat) : List Live × Tab Nat :=
  let pairs := (live.flatMap (fun x => x.cells.flatMap (fun c => x.asks.map (fun b => 8 * c + b)))).eraseDups
  let grants := pairs.map (fun p =>
    (p, grantOf ((live.filter (fun x => x.cells.any (fun c => c == p / 8) && x.asks.any (fun b => b == p % 8))).map (fun x => portNo x.port))
      (Tab.get 0 ptrs p)))
  let ok : Live → Bool := fun x => x.cells.all (fun c => x.asks.all (fun b =>
    grants.any (fun g => g.1 == 8 * c + b && g.2 == some (portNo x.port))))
  let ran := live.map (fun x =>
    if !x.going then x else if x.work.isEmpty then { x with tail := x.tail - 1 } else if ok x then x.did else x)
  let next := ran.map (Live.next ran)
  (next.filter (fun x => !(x.going && x.work.isEmpty && x.tail == 0)),
   grants.foldl (fun t g => match g.2 with | some p => Tab.set 0 t g.1 ((p + 1) % 4) | none => t) ptrs)

/-- Whether the instructions that issue in one cycle keep the limits of Table 4-1. -/
def issueOk (l : List Live) : Bool :=
  decide (l.length ≤ 4) && decide ((l.filter (fun x => decide (x.port ≥ 2))).length ≤ 1) &&
    decide ((l.filter (fun x => decide (x.port < 2))).length ≤ 2) &&
    (match (l.filter (fun x => decide (x.port < 2))) with | [a, b] => !a.shares b | _ => true)

/-- The schedule cycle by cycle: the first entry that cannot issue at its cycle, or that is not complete after n more cycles. -/
def runSchedule (ents : List (Nat × Live)) : Nat → Nat → List Live → Tab Nat → Option Nat
  | 0, _, live, _ => (live.map (fun x => x.idx)).min?
  | n + 1, t, live, ptrs =>
    let now := (ents.filter (fun e => e.1 == t)).map (fun e => e.2)
    let held := ((live ++ now).filter (fun x => decide (x.port ≥ 2))).length
    if !issueOk now || decide (held > 32 ∧ now.any (fun x => decide (x.port ≥ 2))) then (now.map (fun x => x.idx)).min?
    else
      let r := tickLive (startLive [] (live ++ now)) ptrs
      runSchedule ents n (t + 1) r.1 r.2

/-! ### The checks of a configuration block (R370 to R383) -/

/-- A field's offset, and whether it offends. -/
abbrev Check := Nat × Bool

/-- Whether n bytes of a configuration block are not all 0. -/
def lRsv (l : Tab Byte) (off n : Nat) : Check := (off, l.any (fun x => decide (off ≤ x.1) && decide (x.1 < off + n)))

/-- The checks of a match rule. -/
def ruleChecks (l : Tab Byte) (k : Nat) : List Check :=
  let a := ruleAt k
  [(a, decide (lcbN l a 4 ≥ 2 ^ 20)), lRsv l (a + 4) 4]
    ++ (List.range 4).flatMap (fun t => [(a + 8 + 12 * t, decide (lcbN l (a + 8 + 12 * t) 2 > 508)), lRsv l (a + 10 + 12 * t) 2])
    ++ [lRsv l (a + 56) 8]

/-- The checks of a feature. -/
def featChecks (l : Tab Byte) (k : Nat) : List Check :=
  let a := featAt k
  let kind := fKind l k
  let w := fWidth l k
  let f := fDfmt l k
  let fmtBad := !(decide (f ≤ 4) || f == 8)
  [(a, decide (kind ≤ 3 ∧ lcbN l a 2 > 504)),
   (a + 2, decide (kind > 5) || lcbN l (a + 2) 1 % 2 == 1 || (kind == 2 && w != 2 && w != 4) || (kind == 3 && w != 2)),
   (a + 3, decide (lcbN l (a + 3) 1 ≥ 16) || fmtBad),
   (a + 4, decide (lcbN l (a + 4) 4 ≥ 2 ^ 21) || (!fmtBad && lcbN l (a + 4) 4 % (fmtW f / 8) != 0))]

/-- The checks of a fill. -/
def fillChecks (l : Tab Byte) (k : Nat) : List Check :=
  let a := fillAt k
  let kind := rKind l k
  let w := rWidth l k
  let src := lcbN l (a + 4) 4
  [(a, decide (lcbN l a 2 + w > lTlen l)),
   (a + 2, decide (kind > 4) || ((kind == 2 || kind == 3) && decide (w > 8)) || (kind == 4 && w != 1)),
   lRsv l (a + 3) 1,
   (a + 4, (kind == 0 && decide (src + w > twoMib)) || (decide (kind ≥ 2) && src != 0))]

/-- The checks of a schedule: reserved bytes, ascending cycles below C, each entry's fields, and the timing of R379. acb gives rows of
the cells' images. -/
def schedChecks (l : Tab Byte) (acb : Nat → Nat → BitVec 1024) : List Check :=
  let n := lNent l
  let ents := (List.range n).map (fun k => (lcbN l (entAt k) 2, entOf l k))
  let fields := (List.range n).flatMap (fun k =>
    let a := entAt k
    let e := ents.getD k (0, .bad 0)
    let prev := (ents.getD (k - 1) (0, .bad 0)).1
    let refused := match e.2 with | .cell c (.tattn w) => (imageAcb acb c (bits w 12 4)).refused | _ => false
    [(a, decide (e.1 ≥ lC l) || decide (e.1 < prev)), lRsv l (a + 2) 6, (a + 8, e.2 == .bad 8 || refused), (a + 16, e.2 == .bad 16),
     lRsv l (a + 24) 8])
  if fields.any (fun c => c.2) then fields
  else
    let live := (ents.zipIdx.filterMap (fun x => (liveOf acb x.2 x.1.2).map (fun v => (x.1.1, v))))
    match runSchedule (linkLive [] live) (lC l) 0 [] [] with
    | some i => fields ++ [(entAt i, true)]
    | none => fields

/-- The checks of a header that need nothing but the configuration block; action is that of the command, 0 to 2. -/
def headChecks (l : Tab Byte) (action : Nat) : List Check :=
  let csum := lCsum l
  let cs := lCsoff l
  [(0, lC l == 0 || decide (lC l > 4096)), (2, decide (lcbN l 2 2 ≥ 2048) || lNent l == 0 || decide (lNent l > 1024)),
   (4, lPair l == 3 || lSide l == 3 || (action == 0 && lSide l != 0) || lcbN l 4 1 % 4 != 0),
   (5, decide (lcbN l 5 1 ≥ 128) || lcbN l 5 1 % 16 != 0), (6, decide (lcbN l 6 1 ≥ 32) || lNcells l == 0 || decide (lNcells l > 16)),
   (7, decide (lcbN l 7 1 ≥ 16) || lNrule l == 0 || decide (lNrule l > 8)), (24, lNfeat l == 0 || decide (lNfeat l > 64)),
   (25, decide (lNfill l > 16)), (26, decide (lTlen l < 60) || decide (lTlen l > 512)),
   (28, lcbN l 28 1 / 32 % 4 != 0 || (lcbN l 28 1 < 128 && decide (lcbN l 28 1 > 19))), (29, decide (lcbN l 29 1 > 3)),
   (30, (csum == 1 && (decide (cs < 40) || decide (cs + 8 > lTlen l))) || (csum == 2 && decide (cs + 28 > lTlen l)) ||
     (csum == 3 && decide (cs + 2 > lTlen l))),
   (32, lcbN l 32 8 % 4096 != 0), (40, lcbN l 40 4 % 64 != 0 || decide (lcbN l 40 4 > twoMib)),
   (44, decide (lcbN l 44 4 ≥ 2 ^ 21) || lResoff l % 32 != 0), (48, lcbN l 48 8 % 4096 != 0),
   (56, decide (lcbN l 56 8 ≥ 2 ^ 46) || lcbN l 56 8 / 32 % 128 != 0 || (lRlog2 l != 0 && (decide (lRlog2 l < 4) || decide (lRlog2 l > 16))))]

/-- Whether a block may be reserved for a lane (R371). -/
def State.blockTakes (s : State) (l : Tab Byte) (b : Nat) : Bool :=
  let x := s.blk b
  let dom := (s.dom (computeDom b)).state
  decide (b < 100) && !s.blockDust b && x.reserved.isNone &&
    !(decide (x.state = .off) && !(decide (dom = .gated) || decide (dom = .poweringUp))) &&
    decide (lNcells l ≤ (if x.lost.toNat < 31 then 15 else 16))

/-- The checks of the blocks that a configuration block names (R371). -/
def State.blockChecks (s : State) (l : Tab Byte) : List Check :=
  let all := (lSides l).flatMap (fun p => (lBlocks l p).zipIdx.map (fun x => ((if p then 16 else 8) + x.2, x.1)))
  all.map (fun x =>
    let home := (lBlocks l (decide (x.1 ≥ 16))).headD 0
    let twice := (all.filter (fun y => y.2 == x.2 && decide (y.1 < x.1))) != []
    (x.1, !s.blockTakes l x.2 || twice || regionOf x.2 != regionOf home ||
      (decide (x.1 ≥ 16) && regionOf x.2 == regionOf ((lBlocks l false).headD 0))))

/-- The first 128 bytes of a row of a cell's operand-store image. -/
def State.imageRow (s : State) (l : Tab Byte) (cell row : Nat) : BitVec 1024 :=
  BitVec.ofNat 1024 (leVal (s.cohRead false (lcbN l 48 8 + cell * 131072 + 256 * row) 128))

/-- The checks of a configuration block but those of its blocks, in the order of their offsets. -/
def State.lcbChecks (s : State) (l : Tab Byte) (action : Nat) : List Check :=
  let head := headChecks l action
  if head.any (fun c => c.2) then head
  else head ++ (List.range (lNrule l)).flatMap (ruleChecks l) ++ (List.range (lNfeat l)).flatMap (featChecks l)
    ++ (List.range (lNfill l)).flatMap (fillChecks l) ++ [lRsv l 0xCC0 832] ++ schedChecks l (s.imageRow l)

/-- The lowest offset that offends. -/
def lowestBad (cs : List Check) : Option Nat := ((cs.filter (fun c => c.2)).map (fun c => c.1)).min?

/-- A configuration block in device memory: none where it cannot be read. -/
def State.readLcb (s : State) (a : Nat) : Option (Tab Byte) :=
  if (List.range (lcbSize / 1024)).any (fun k => (s.place (a + 1024 * k)).isNone || (s.deadDev (a + 1024 * k)).isSome) ||
      s.cohBad false a lcbSize then none
  else some (lcbOf (s.cohRead false a lcbSize))

/-! ### Matching (R374, R375) -/

/-- Whether a frame meets a configuration block's rules on an interface; a term whose four bytes the frame lacks does not hold. -/
def lMatches (l : Tab Byte) (ifc : Nat) (bs : List Byte) : Bool :=
  (lFcsWait l || decide (bs.length > lTrigger l)) &&
  (List.range (lNrule l)).any (fun k =>
    let a := ruleAt k
    lcbN l a 4 / 2 ^ ifc % 2 == 1 && (List.range 4).all (fun t =>
      let m := lcbN l (a + 12 + 12 * t) 4
      let o := lcbN l (a + 8 + 12 * t) 2
      m == 0 || (decide (o + 4 ≤ bs.length) && Nat.land (leVal ((bs.drop o).take 4).reverse) m == lcbN l (a + 16 + 12 * t) 4)))

/-- The configuration block of a side. -/
def Lane.cfg (x : Lane) (partner : Bool) : Tab Byte := if partner then x.qlcb else x.lcb

/-- Whether a lane takes the frames that match it: ARMED, REPLACING or FAILED. -/
def Lane.takes (x : Lane) : Bool := decide (x.state = .armed) || decide (x.state = .replacing) || decide (x.state = .failed)

/-- The sides of a lane. -/
def Lane.sides (x : Lane) : List Bool := if x.pair = 0 then [false] else [false, true]

/-- Whether a frame belongs to a lane. -/
def Lane.matches (x : Lane) (ifc : Nat) (bs : List Byte) : Bool := x.takes && x.sides.any (fun p => lMatches (x.cfg p) ifc bs)

/-- The lane that a frame belongs to: the lowest that it matches. -/
def State.laneFor (s : State) (ifc : Nat) (bs : List Byte) : Option Nat := (List.range 16).find? (fun l => (s.lane l).matches ifc bs)

/-! ### Features (R376) -/

/-- The source value of a feature, and its flags: since is the NCLK count since the lane's previous frame. -/
def featValue (l : Tab Byte) (k ifc : Nat) (bs : List Byte) (since : Option W64) : Val × BitVec 5 :=
  let w := fWidth l k
  let raw := (bs.drop (lcbN l (featAt k) 2)).take w
  let v := leVal (if lcbN l (featAt k + 2) 1 / 2 % 2 = 1 then raw else raw.reverse)
  let int : Int → Val × BitVec 5 := fun i =>
    let r := finish fp32 0 false (.num { neg := decide (i < 0), m := i.natAbs, e := 0 }, 0)
    (decodeVal fp32 r.1, r.2)
  match fKind l k with
  | 0 => int v
  | 1 => int (sext (8 * w) v)
  | 2 => (match fmtOf (if w = 2 then 1 else 0) with | some f => (decodeVal f v, 0) | none => (.nan false, 0))
  | 3 => (match fmtOf 2 with | some f => (decodeVal f v, 0) | none => (.nan false, 0))
  | 4 => int (match since with | some d => (Nat.min d.toNat (2 ^ 32 - 1) : Nat) | none => (2 ^ 32 - 1 : Nat))
  | _ => int ifc

/-- A feature's element: its block-store offset, its bytes and its flags. -/
def featOut (l : Tab Byte) (k ifc : Nat) (bs : List Byte) (since : Option W64) : Nat × List Byte × BitVec 5 :=
  let v := featValue l k ifc bs since
  let x := finish fp32 0 false (fmaV v.1 (decodeVal fp32 (lcbN l (featAt k + 8) 4)) (decodeVal fp32 (lcbN l (featAt k + 12) 4)))
  match fmtOf (fDfmt l k) with
  | none => (fDest l k, [], v.2 ||| x.2)
  | some f =>
    let c := convert f 0 true 0 (decodeVal fp32 x.1)
    (fDest l k, leBytes (fmtW (fDfmt l k) / 8) c.1, v.2 ||| x.2 ||| c.2)

/-- The elements of a frame's features. -/
def featsOf (l : Tab Byte) (ifc : Nat) (bs : List Byte) (since : Option W64) : List (Nat × List Byte × BitVec 5) :=
  (List.range (lNfeat l)).map (fun k => featOut l k ifc bs since)

/-- A block with a frame's features in its store. -/
def Block.feed (x : Block) (fs : List (Nat × List Byte × BitVec 5)) : Block :=
  x.storeBytes (fs.flatMap (fun f => f.2.1.zipIdx.map (fun y => (f.1 + y.2, y.1, false))))

/-! ### Images and schedules (R372, R380) -/

/-- A cell's operand store from its image. -/
def State.loadCell (s : State) (l : Tab Byte) (b p logical : Nat) : State :=
  let a := lcbN l 48 8 + logical * 131072
  s.setBlk b ((s.blk b).setCell p (((s.blk b).cell p).put 0 (s.cohRead false a 131072) (s.badBytes false a 131072)))

/-- A reserved block loads its images: its store is zeroed first, and its cells take the mapping that a task would start with. -/
def State.loadBlock (s : State) (l : Tab Byte) (b : Nat) : State :=
  let a := lcbN l 32 8
  let n := lcbN l 40 4
  let x : Block := { (s.blk b).remap with store := Memory.empty }
  let y := x.storeBytes (((s.cohRead false a n).zip (s.badBytes false a n)).zipIdx.map (fun z => (z.2, z.1.1, z.1.2)))
  (s.setBlk b y).each (List.range (lNcells l)) (fun t c => t.loadCell l b ((t.blk b).phys c) c)

/-- One entry of a schedule runs in a block: the state, and whether it read no poisoned word and met no lost cell. -/
def State.runEnt (s : State) (b : Nat) : Ent → State × Bool
  | .cell c op =>
    let x := s.blk b
    let p := x.phys c
    let cell := x.cell p
    let r := cell.run op
    (s.setBlk b (x.setCell p r.cell), !x.failed c && !r.refused && !cell.consumes op)
  | .load cs d e =>
    let a : Acc := { id := 0, ia := 0, kind := .tld e (BitVec.ofNat 64 0) 0 d, va := 0, tgt := .bstore 0, size := 0, data := 0, res := 0,
                     asked := none, homed := false, performed := false, refused := false, left := 0, buf := [], bad := false, pages := [],
                     want := [], got := [] }
    let bad := (touches d).any (fun x => (s.blk b).store.bad (x.addr.toNat / 8))
    (s.tileWrite b a e 0 0 d, !bad && !cs.any (fun c => (s.blk b).failed c))
  | .store c d e =>
    let src := (s.blk b).tileOut c e (dBytes d) (dScales d)
    ((s.tilePut b 0 d [] 0 (dBytes d) src).2, !(s.blk b).failed c && !(src.1 ++ src.2).any (fun x => x.2))
  | .bad _ => (s, true)

/-- A block runs the schedule of a configuration block. -/
def State.runSched (s : State) (l : Tab Byte) (b : Nat) : State × Bool :=
  (List.range (lNent l)).foldl (fun (a : State × Bool) k =>
    let r := a.1.runEnt b (entOf l k)
    (r.1, a.2 && r.2)) (s, true)

/-! ### Replies (R382, R383) -/

/-- Bytes put into others from a place on. -/
def putAt (t : List Byte) (o : Nat) (bs : List Byte) : List Byte :=
  t.zipIdx.map (fun x => if o ≤ x.2 ∧ x.2 < o + bs.length then bs.getD (x.2 - o) 0 else x.1)

/-- The checksum of a reply. -/
def withCsum (kind off : Nat) (t : List Byte) : List Byte :=
  match kind with
  | 1 =>
    let z := putAt t (off + 6) [0, 0]
    let len := leVal ((z.drop (off + 4)).take 2).reverse
    let c := onesFold (onesSum ((z.drop (off - 32)).take 32) + len + 17 + onesSum ((z.drop off).take len))
    putAt z (off + 6) (beBytes 2 (if c = 0 then 65535 else c))
  | 2 =>
    let hl := 4 * ((t.getD off 0).toNat % 16)
    let z := putAt (putAt t (off + 10) [0, 0]) (off + hl + 6) [0, 0]
    putAt z (off + 10) (beBytes 2 (onesFold (onesSum ((z.drop off).take hl))))
  | 3 => putAt t off (beBytes 2 (onesFold (onesSum (t.drop (off + 2)))))
  | _ => t

/-- The bytes of a fill: zeros for kind 0 where no side is used. -/
def State.fillBytes (s : State) (l : Tab Byte) (k : Nat) (f : LaneFrame) (block : Option Nat) (status : Nat) : List Byte :=
  let w := rWidth l k
  let src := lcbN l (fillAt k + 4) 4
  match rKind l k with
  | 0 => match block with
    | some b => (s.blk b).store.read src w
    | none => List.replicate w 0
  | 1 => (f.bytes.drop src).take w
  | 2 => beBytes w f.seq.toNat
  | 3 => beBytes w f.stamp.toNat
  | _ => [BitVec.ofNat 8 status]

/-- The reply to a frame, from a side's configuration block. -/
def State.reply (s : State) (l : Tab Byte) (f : LaneFrame) (block : Option Nat) (status : Nat) : List Byte :=
  let t := (List.range (lTlen l)).map (fun k => Tab.get 0 l (0xAC0 + k))
  let filled := (List.range (lNfill l)).foldl (fun a k => putAt a (lcbN l (fillAt k) 2) (s.fillBytes l k f block status)) t
  withCsum (lCsum l) (lCsoff l) filled

/-- The bytes of the kind-0 fills of a side, which compare mode compares. -/
def State.zeroFills (s : State) (l : Tab Byte) (b : Nat) : List Byte :=
  (List.range (lNfill l)).flatMap (fun k => if rKind l k = 0 then (s.blk b).store.read (lcbN l (fillAt k + 4) 4) (rWidth l k) else [])

/-! ### Delivery records (R385) -/

/-- The record of a frame goes into the lane's ring, or is dropped and counted; the frame is forgotten. -/
def State.laneRecord (s : State) (n : Nat) (f : LaneFrame) (status : Nat) (release : W64) : State :=
  let x := s.lane n
  let l := x.lcb
  let x1 := { x with frames := x.frames.filter (fun y => decide (y.seq ≠ f.seq)) }
  if lRlog2 l = 0 then s.setLane n x1
  else
    let size := 2 ^ lRlog2 l
    let a := lRing l + 64 * x.pi.toNat
    let nxt := (x.pi.toNat + 1) % size
    if nxt = x.ci.toNat % size ∨ (s.place a).isNone ∨ (s.deadDev a).isSome then s.setLane n { x1 with cRdrop := satAdd x1.cRdrop 1 }
    else
      let bs := leBytes 8 f.seq.toNat ++ leBytes 1 (128 * b2n x.phase + status) ++ leBytes 1 n ++ leBytes 1 (f.used.getD 255)
        ++ leBytes 1 f.flags.toNat ++ leBytes 4 0 ++ leBytes 8 f.stamp.toNat ++ leBytes 8 release.toNat ++ (f.result ++ List.replicate 32 0).take 32
      let s1 := s.cohWrite false a bs
      (s1.setLane n { x1 with pi := BitVec.ofNat 16 nxt, phase := if nxt = 0 then !x1.phase else x1.phase }).event (384 + n)

/-- A frame of a lane. -/
def State.frame (s : State) (n : Nat) (seq : W64) : Option LaneFrame := (s.lane n).frames.find? (fun f => decide (f.seq = seq))

/-- The state with a frame of a lane changed. -/
def State.updFrame (s : State) (n : Nat) (seq : W64) (g : LaneFrame → LaneFrame) : State :=
  s.setLane n { s.lane n with frames := updWhere (fun f : LaneFrame => decide (f.seq = seq)) g (s.lane n).frames }

/-- A frame's reply is released with a status and a side: it leaves on its interface, and its blocks are free; with its interface out of
service it is dropped and recorded NOT_SENT (R382, R384). -/
def State.release (s : State) (n : Nat) (f : LaneFrame) (status : Nat) (side : Option Bool) : State :=
  let x := s.lane n
  let l := x.cfg (side.getD false)
  let block := side.bind (fun p => (f.runs.find? (fun r => r.1 == p)).map (fun r => r.2.block))
  let shown := if status = 3 then none else block
  let bs := s.reply l f shown status
  let res := match shown with | some b => (s.blk b).store.read (lResoff l) 32 | none => []
  let g : LaneFrame := { f with status := BitVec.ofNat 8 status, released := true, used := shown, result := res }
  let i := lTxif l f.ifc
  let s1 := s.updFrame n f.seq (fun _ => g)
  if s.ifcServes i then s1.sendFrame i (.frame i (withFcs bs))
  else
    let s2 := s1.setLane n { s1.lane n with cTxdrop := satAdd (s1.lane n).cTxdrop 1 }
    s2.laneRecord n g 6 0

/-- The count of a status. -/
def Lane.count (x : Lane) (status : Nat) : Lane :=
  match status with
  | 1 => { x with cNoanswer := satAdd x.cNoanswer 1 }
  | 2 => { x with cSingle := satAdd x.cSingle 1 }
  | 3 => { x with cMismatch := satAdd x.cMismatch 1 }
  | 4 => { x with cLate := satAdd x.cLate 1 }
  | 5 => { x with cFcsbad := satAdd x.cFcsbad 1 }
  | _ => x

/-- The sides of a frame whose result is valid. -/
def LaneFrame.valid (f : LaneFrame) : List Bool := (f.runs.filter (fun r => r.2.done && r.2.valid)).map (fun r => r.1)

/-- Whether every side of a frame has failed. -/
def LaneFrame.hopeless (f : LaneFrame) : Bool := f.runs.all (fun r => !r.2.valid)

/-- A frame that gets no answer: the template with zeros where NOANS is 1, else nothing but its record (R377). counted tells that it has
been counted already. -/
def State.noAnswer (s : State) (n : Nat) (f : LaneFrame) (counted : Bool) : State :=
  let s1 := if counted then s else s.setLane n ((s.lane n).count 1)
  if lNoans (s.lane n).lcb then s1.release n f 1 none else s1.laneRecord n f 1 0

/-- The device reports that the two sides of a frame differ: an event of the skim source group that names both blocks (R389). -/
def State.pairEvent (s : State) (n : Nat) (f : LaneFrame) : State :=
  let bs := f.runs.map (fun r => r.2.block)
  s.report 10 (n + 1) 0 (BitVec.ofNat 64 (bs.getD 0 0 + 256 * bs.getD 1 0))

/-- What is decided of a frame at its deadline, or after it when a side becomes valid or fails (R387, R389, R390). -/
def State.decide' (s : State) (n : Nat) (f : LaneFrame) (late : Bool) : State :=
  let x := s.lane n
  let send : Nat → Option Bool → State := fun st side => (s.setLane n (x.count st)).release n f st side
  match f.valid with
  | [] => if f.hopeless then s.noAnswer n f false else s
  | p :: rest =>
    if late then send 4 (some p)
    else if x.pair = 1 then
      (match rest with
        | [] => send 2 (some p)
        | _ :: _ =>
          let blk : Bool → Nat := fun q => ((f.runs.find? (fun r => r.1 == q)).map (fun r => r.2.block)).getD 0
          if s.zeroFills x.lcb (blk false) = s.zeroFills x.qlcb (blk true) then send 0 (some false)
          else (send 3 (some false)).pairEvent n f)
    else send 0 (some p)

/-- A frame goes on after something of it has changed: once its deadline has passed and nothing is decided yet. -/
def State.settleFrame (s : State) (n : Nat) (seq : W64) : State :=
  match s.frame n seq with
  | none => s
  | some f => if f.due && !f.released then s.decide' n f true else s

/-! ### Blocks that leave a lane (R381, Table 14-9) -/

/-- A lane whose sides have no block left fails. -/
def Lane.judge (x : Lane) : Lane :=
  let left := x.sides.any (fun p => x.inSvc.any (fun y => y.1 == p))
  if left then x else match x.state with | .armed => { x with state := .failed } | _ => x

/-- The frame that a block runs ends invalid on its side. -/
def State.spoilRun (s : State) (n b : Nat) : State :=
  let fs := (s.lane n).frames.filter (fun f => !f.released && f.runs.any (fun r => r.2.block == b))
  s.each fs (fun t f => (t.updFrame n f.seq (fun g => { g with runs := g.runs.map (fun r =>
    if r.2.block = b then (r.1, { r.2 with valid := false, done := true }) else r) })).settleFrame n f.seq)

/-- A block leaves the lanes. -/
def State.laneLosesBlock (s : State) (b : Nat) : State :=
  s.each (List.range 16) (fun t n =>
    let x := t.lane n
    if x.inSvc.any (fun y => y.2 == b) then
      (t.spoilRun n b).setLane n ({ (t.spoilRun n b).lane n with
        inSvc := x.inSvc.filter (fun y => y.2 != b), reload := x.reload.filter (fun k => k != b) }.judge)
    else t)

/-- A cell of a lane's block was lost and the spare took its number: the block reloads it before it takes frames again. -/
def State.laneReloads (s : State) (b : Nat) : State :=
  s.each (List.range 16) (fun t n =>
    let x := t.lane n
    if x.inSvc.any (fun y => y.2 == b) then
      let u := t.spoilRun n b
      u.setLane n { u.lane n with reload := (u.lane n).reload.filter (fun k => k != b) ++ [b] }
    else t)

/-- Every lane stops: its frames are forgotten without a reply or a record (Table 14-9). -/
def State.haltLanes (s : State) : State :=
  let s1 := s.each (List.range 16) (fun t n => if (t.lane n).frames = [] then t else t.setLane n { t.lane n with frames := [] })
  { s1 with skm := { s1.skm with halted := true } }

end Sys2Proof.Machine
end

