-- ==== Sys2Proof/Machine/Skim.lean ====
section
/-! DEFINITION. The commands of the skim lanes, and the sorting of received frames (14_skim_lanes.md; 12_umakin_transport.md R309 to R317). -/
namespace Sys2Proof.Machine

/-! ### Arming, disarming and replacing (R370 to R372, R392) -/

/-- LANE of a SKIM_ARM. -/
def Cmd.lane (c : Cmd) : Nat := dfield c.desc 16 2
/-- ACTION of a SKIM_ARM. -/
def Cmd.action (c : Cmd) : Nat := dfield c.desc 18 1
/-- CONFIG of a SKIM_ARM. -/
def Cmd.config (c : Cmd) : Nat := dfield c.desc 24 8

/-- A SKIM_ARM is refused: its record gives the offset of the first offending field (R370, Table 15-6). -/
def State.refuseArm (s : State) (q : Nat) (c : Cmd) (off : Nat) (blocks : List Nat) : State :=
  (s.updCmd q c.slot (Cmd.ended 0x0B 0)).offer
    (s.plainRec 11 (c.lane + 1) (BitVec.ofNat 64 off) 0 0 (leBytes 2 c.lane ++ blocks.map (BitVec.ofNat 8))) none

/-- A SKIM_ARM of an action starts, when it may. -/
def State.startArm (s : State) (q slot action : Nat) (f : State → Cmd → State) : State :=
  s.startCmd q slot 10 (fun t _ c => if c.action = action then f t c else t)

/-- Whether the front-end takes lane commands: it has power, no dust sheet, and no lane is halted. -/
def State.skimServes (s : State) : Bool := s.domOn 4 && !s.skm.halted && !s.dusted .skim

/-- The blocks that a configuration block names. -/
def lAllBlocks (l : Tab Byte) : List (Bool × Nat) := (lSides l).flatMap (fun p => (lBlocks l p).map (fun b => (p, b)))

/-- A block enters the state SKIM, its store zeroed (R372). -/
def State.enterSkim (s : State) (b : Nat) : State := s.setBlk b { s.blk b with state := .skim, store := Memory.empty }

/-- A block is reserved for a lane: idle, it enters SKIM; without power, it is woken; running, it enters SKIM at its task's end. -/
def State.reserve (s : State) (lane b : Nat) : State :=
  let s1 := s.setBlk b { s.blk b with reserved := some lane }
  match (s.blk b).state with
  | .idle => s1.enterSkim b
  | .off => s1.wake (computeDom b)
  | _ => s1

/-- A lane starts to be armed: the first offending field refuses it. -/
def State.beginArm (s : State) (q : Nat) (c : Cmd) : State :=
  let x := s.lane c.lane
  if !s.skimServes || decide (x.state ≠ .disarmed) then s.refuseArm q c 0 []
  else match s.readLcb c.config with
    | none => s.refuseArm q c 0 []
    | some l =>
      let blocks := (lAllBlocks l).map (fun y => y.2)
      match lowestBad (s.blockChecks l ++ s.lcbChecks l 0) with
      | some off => s.refuseArm q c off blocks
      | none =>
        let s1 := s.each blocks (fun t b => t.reserve c.lane b)
        (s1.setLane c.lane { x with state := .arming, newLcb := l, arm := some (q, c.slot) }).runCmd q c.slot

/-- SKIM_ARM (R370 to R372): arm. -/
def execSkimArm (q : Fin 1024) (slot : W16) (s : State) : Host.Outcome State Fault Refusal :=
  .next (s.startArm q.val slot.toNat 0 (fun t c => t.beginArm q.val c))

/-- Matching stops; the lane is disarmed once its frames are gone. -/
def State.beginDisarm (s : State) (q : Nat) (c : Cmd) : State :=
  let x := s.lane c.lane
  match x.state with
  | .disarmed => s.updCmd q c.slot (Cmd.ended 0 0)
  | .armed => (s.setLane c.lane { x with state := .disarming, arm := some (q, c.slot) }).runCmd q c.slot
  | .failed => (s.setLane c.lane { x with state := .disarming, arm := some (q, c.slot) }).runCmd q c.slot
  | _ => s.refuseArm q c 0 []

/-- SKIM_DISARM (R372): disarm. -/
def execSkimDisarm (q : Fin 1024) (slot : W16) (s : State) : Host.Outcome State Fault Refusal :=
  .next (s.startArm q.val slot.toNat 1 (fun t c => t.beginDisarm q.val c))

/-- The checks that a replacing configuration block keeps to: PAIR, NBLK, PBLK and QBLK as in force, and a side that the lane has. -/
def replaceChecks (old new : Tab Byte) : List Check :=
  [(4, lPair new != lPair old || (lPair new == 0 && lSide new == 2)), (5, lNblk new != lNblk old)]
    ++ (lSides old).flatMap (fun p => (List.range (lNblk old)).map (fun k =>
      ((if p then 16 else 8) + k, (lBlocks new p).getD k 256 != (lBlocks old p).getD k 256)))

/-- A lane starts to replace its schedule: the named sides stop taking frames. -/
def State.beginReplace (s : State) (q : Nat) (c : Cmd) : State :=
  let x := s.lane c.lane
  if !s.skimServes || !(decide (x.state = .armed) || decide (x.state = .failed)) then s.refuseArm q c 0 []
  else match s.readLcb c.config with
    | none => s.refuseArm q c 0 []
    | some l =>
      match lowestBad (replaceChecks x.lcb l ++ s.lcbChecks l 2) with
      | some off => s.refuseArm q c off ((lAllBlocks l).map (fun y => y.2))
      | none =>
        (s.setLane c.lane { x with state := .replacing, newLcb := l, side := BitVec.ofNat 2 (lSide l), arm := some (q, c.slot) }).runCmd q c.slot

/-- SKIM_REPLACE (R392): replace the schedule. -/
def execSkimReplace (q : Fin 1024) (slot : W16) (s : State) : Host.Outcome State Fault Refusal :=
  .next (s.startArm q.val slot.toNat 2 (fun t c => t.beginReplace q.val c))

/-- Whether a side of a lane is being replaced. -/
def Lane.replaces (x : Lane) (partner : Bool) : Bool :=
  decide (x.state = .replacing) && (x.side == 0 || (if partner then x.side == 2 else x.side == 1))

/-- The blocks of a lane that run a frame which is not released. -/
def Lane.busy (x : Lane) : List Nat := x.frames.flatMap (fun f => if f.released then [] else f.runs.map (fun r => r.2.block))

/-- The lane's command completes with OK. -/
def State.armDone (s : State) (lane : Nat) : State :=
  match (s.lane lane).arm with
  | some (q, slot) => (s.setLane lane { s.lane lane with arm := none }).updCmd q slot (Cmd.ended 0 0)
  | none => s

/-- The images of a lane that is being armed are loaded: matching starts, with the blocks that are still reserved for it. -/
def State.armed (s : State) (lane : Nat) : State :=
  let x := s.lane lane
  let l := x.newLcb
  let mine := (lAllBlocks l).filter (fun y => (s.blk y.2).reserved == some lane)
  if mine.any (fun y => decide ((s.blk y.2).state ≠ .skim) || (s.blk y.2).task.isSome) then s
  else
    let s1 := s.each mine (fun t y => t.loadBlock l y.2)
    let y : Lane := { x with state := .armed, lcb := l, qlcb := l, newLcb := [], side := 0, pair := BitVec.ofNat 2 (lPair l), inSvc := mine,
                             reload := [], seq := 0, prev := none, frames := [], pi := 0, ci := 0, phase := true,
                             dl := BitVec.ofNat 16 (lDeadline l) }
    (s1.setLane lane y.judge).armDone lane

/-- The named sides of a lane load their new images once their blocks are free, and take frames again; a new ring starts at its first
slot. -/
def State.replaced (s : State) (lane : Nat) : State :=
  let x := s.lane lane
  let l := x.newLcb
  let mine := x.inSvc.filter (fun y => x.replaces y.1)
  if mine.any (fun y => x.busy.any (fun b => b == y.2)) then s
  else
    let s1 := s.each mine (fun t y => t.loadBlock l y.2)
    let first := x.replaces false
    let ring := first && (lRing l != lRing x.lcb || lRlog2 l != lRlog2 x.lcb)
    let y : Lane := { x with state := .armed, lcb := if first then l else x.lcb, qlcb := if x.replaces true then l else x.qlcb, newLcb := [],
                             side := 0, reload := x.reload.filter (fun b => !mine.any (fun z => z.2 == b)), pi := if ring then 0 else x.pi,
                             ci := if ring then 0 else x.ci, phase := if ring then true else x.phase, dl := BitVec.ofNat 16 (lDeadline l) }
    (s1.setLane lane y.judge).armDone lane

/-- SKIM_IMAGE_LOAD_COMPLETE (R372): the blocks of a lane have their images. -/
def execSkimImageLoadComplete (lane : Fin 16) (s : State) : Host.Outcome State Fault Refusal :=
  .next (match (s.lane lane.val).state with
    | .arming => s.armed lane.val
    | .replacing => s.replaced lane.val
    | _ => s)

/-- A block leaves a disarmed lane: its stores are zeroed, it takes the committed mode, and it is idle. -/
def State.leaveLane (s : State) (b : Nat) : State :=
  let x := (List.range 17).foldl (fun (y : Block) p => y.setCell p { y.cell p with rows := [], good := allGood }) (s.blk b)
  s.setBlk b { x with store := Memory.empty, reserved := none, mode := s.modeOf (regionOf b),
                      state := match x.state with | .skim => .idle | st => st }

/-- SKIM_DISARM_COMPLETE (R372): the accepted frames are gone, and the blocks return to IDLE. -/
def execSkimDisarmComplete (lane : Fin 16) (s : State) : Host.Outcome State Fault Refusal :=
  let n := lane.val
  let x := s.lane n
  .next (if x.state ≠ .disarming ∨ x.frames ≠ [] then s
    else
      let s1 := s.each ((List.range 100).filter (fun b => (s.blk b).reserved == some n)) (fun t b => t.leaveLane b)
      let s2 := s1.armDone n
      s2.setLane n { Lane.init with cMatch := x.cMatch, cReply := x.cReply, cNoanswer := x.cNoanswer, cLate := x.cLate,
                                    cMismatch := x.cMismatch, cSingle := x.cSingle, cFcsbad := x.cFcsbad, cRdrop := x.cRdrop,
                                    cTxdrop := x.cTxdrop })

/-! ### Frames of a lane (R375 to R377, R385 to R389) -/

/-- A frame whose FCS is bad, or a packet that fails R316, is counted. -/
def State.crcErr (s : State) (i : Nat) : State := s.setIfc i { s.ifc i with crcerr := satAdd (s.ifc i).crcerr 1 }

/-- A received frame is counted. -/
def State.rxFrame (s : State) (i : Nat) : State := s.setIfc i { s.ifc i with rx := satAdd (s.ifc i).rx 1 }

/-- The lowest free block of a side. -/
def Lane.freeBlock (x : Lane) (partner : Bool) : Option Nat :=
  (((x.inSvc.filter (fun y => y.1 == partner)).map (fun y => y.2)).filter (fun b =>
    !x.busy.any (fun c => c == b) && !x.reload.any (fun c => c == b))).min?

/-- A frame as a lane reads it: the bytes that the lane names beyond the end of a frame, which only a lane that waits for the FCS can take, are
free values (R375; notes/assumptions 37). -/
def State.padFrame (s : State) (x : Lane) (bs : List Byte) : List Byte × State :=
  let n := ((x.sides.map (fun p => lTrigger (x.cfg p) + 1)).foldl Nat.max 0) - bs.length
  (bs ++ (List.range n).map (fun k => (Config.freeValue (s.free + k)).setWidth 8), s.took n)

/-- A lane accepts a frame: it takes the next number, and each side with a free block runs it (R376, R377). -/
def State.acceptFrame (s0 : State) (n ifc : Nat) (raw : List Byte) (stamp : W64) : State :=
  let x := s0.lane n
  let bs := (s0.padFrame x raw).1
  let s := (s0.padFrame x raw).2
  let sides := x.sides.filter (fun p => lMatches (x.cfg p) ifc raw && !x.replaces p)
  let runs := sides.filterMap (fun p => (x.freeBlock p).map (fun b =>
    let r : SideRun := { block := b, started := false, done := false, valid := true }
    (p, r)))
  let since := x.prev.map (fun a => stamp - a)
  let fed := runs.map (fun r => (r.2.block, featsOf (x.cfg r.1) ifc bs since))
  let flags := (fed.flatMap (fun y => y.2.map (fun z => z.2.2))).foldl (fun a b => a ||| b) (0 : BitVec 5)
  let f : LaneFrame := { seq := x.seq, result := [], ifc := ifc, bytes := bs, stamp := stamp, since := since, runs := runs, flags := flags,
                         fcs := if lFcsWait x.lcb then some true else none, status := 0, due := false, released := false, used := none }
  let s1 := s.each fed (fun t y => t.setBlk y.1 ((t.blk y.1).feed y.2))
  let s2 := s1.setLane n { x with seq := x.seq + 1, prev := some stamp, cMatch := satAdd x.cMatch 1, frames := x.frames ++ [f] }
  if runs ≠ [] then s2
  else
    let s3 := s2.setLane n ((s2.lane n).count 1)
    if lNoans x.lcb then s3 else s3.laneRecord n f 1 0

/-- SKIM_FRAME_TRIGGER (R377): the trigger byte of a frame that belongs to a lane arrives. -/
def execSkimFrameTrigger (lane : Fin 16) (ifc : Fin 20) (bytes : List Byte) (stamp : W64) (fcsOk : Bool) (s : State) :
    Host.Outcome State Fault Refusal :=
  let i := ifc.val
  .next (if !s.ifcServes i || !s.domOn 4 || s.laneFor i bytes != some lane.val then s
    else if s.skm.halted then (s.rxFrame i).dropFrame i
    else if lFcsWait (s.lane lane.val).lcb && !fcsOk then s.crcErr i
    else (s.rxFrame i).acceptFrame lane.val i bytes stamp)

/-- SKIM_FCS_CHECK (R375): the FCS of a frame whose lane did not wait for it; a bad one forgets a reply that is not released. -/
def execSkimFcsCheck (lane : Fin 16) (seq : W64) (ok : Bool) (s : State) : Host.Outcome State Fault Refusal :=
  let n := lane.val
  .next (match s.frame n seq with
    | none => s
    | some f =>
      if f.fcs.isSome then s
      else if ok then s.updFrame n seq (fun g => { g with fcs := some true })
      else
        let s1 := (s.setLane n ((s.lane n).count 5)).crcErr f.ifc
        if f.released then s1.updFrame n seq (fun g => { g with fcs := some false, status := 5 })
        else s1.laneRecord n { f with used := none, result := [] } 5 0)

/-- The state with one side's run of a frame changed. -/
def State.updRun (s : State) (n : Nat) (seq : W64) (partner : Bool) (g : SideRun → SideRun) : State :=
  s.updFrame n seq (fun f => { f with runs := f.runs.map (fun r => if r.1 = partner then (r.1, g r.2) else r) })

/-- A side's run of a frame. -/
def State.runOf (s : State) (n : Nat) (seq : W64) (partner : Bool) : Option SideRun :=
  (s.frame n seq).bind (fun f => (f.runs.find? (fun r => r.1 == partner)).map (fun r => r.2))

/-- SKIM_SCHEDULE_START (R377, R380): a block starts its schedule, the lane generators of its cells seeded with 0. -/
def execSkimScheduleStart (lane : Fin 16) (seq : W64) (partner : Bool) (s : State) : Host.Outcome State Fault Refusal :=
  .next (match s.runOf lane.val seq partner with
    | none => s
    | some r =>
      if r.started || r.done then s
      else
        let x := (List.range 17).foldl (fun (y : Block) p => y.setCell p { y.cell p with seed := 0, gens := [] }) (s.blk r.block)
        (s.setBlk r.block x).updRun lane.val seq partner (fun g => { g with started := true }))

/-- SKIM_SCHEDULE_COMPLETE (R389): a side's schedule is complete; its result is valid when no poisoned word was read and no cell lost. -/
def execSkimScheduleComplete (lane : Fin 16) (seq : W64) (partner : Bool) (s : State) : Host.Outcome State Fault Refusal :=
  let n := lane.val
  .next (match s.runOf n seq partner with
    | none => s
    | some r =>
      if !r.started || r.done then s
      else
        let x := s.runSched ((s.lane n).cfg partner) r.block
        (x.1.updRun n seq partner (fun g => { g with done := true, valid := g.valid && x.2 })).settleFrame n seq)

/-- SKIM_DEADLINE (R386, R387, R389, R390): the NCLK count reaches a frame's stamp plus D. -/
def execSkimDeadline (lane : Fin 16) (seq : W64) (s : State) : Host.Outcome State Fault Refusal :=
  let n := lane.val
  .next (match s.frame n seq with
    | none => s
    | some f =>
      if f.due || f.released then s
      else
        let g : LaneFrame := { f with due := true }
        let s1 := s.updFrame n seq (fun _ => g)
        if f.runs = [] then s1.noAnswer n g true else s1.decide' n g false)

/-- SKIM_REPLY_SENT (R385): the first byte of a reply has left the MAC; the frame's record is written. -/
def execSkimReplySent (lane : Fin 16) (seq : W64) (stamp : W64) (s : State) : Host.Outcome State Fault Refusal :=
  let n := lane.val
  .next (match s.frame n seq with
    | none => s
    | some f =>
      if !f.released then s
      else (s.setLane n { s.lane n with cReply := satAdd (s.lane n).cReply 1 }).laneRecord n f f.status.toNat stamp)

/-- SKIM_CELL_RELOAD (R381): the spare of a block has its new image; the block takes frames again. -/
def execSkimCellReload (b : Fin 100) (s : State) : Host.Outcome State Fault Refusal :=
  .next (match (List.range 16).find? (fun n => (s.lane n).reload.any (fun c => c == b.val)) with
    | none => s
    | some n =>
      let x := s.lane n
      let side := ((x.inSvc.find? (fun y => y.2 == b.val)).map (fun y => y.1)).getD false
      let c := (s.blk b.val).mapSpare.toNat
      let s1 := if c < lNcells (x.cfg side) then s.loadCell (x.cfg side) b.val 16 c else s
      s1.setLane n { s1.lane n with reload := x.reload.filter (fun k => k != b.val) })

/-- Both counts are captured. -/
def State.capture (s : State) : State := { s with skm := { s.skm with tsNclk := s.skm.nclk, tsOclk := s.flt.oclk } }

/-- TIMESTAMP_CAPTURE (R393): SKM_TSCAP.GO is written 1. -/
def execTimestampCapture (s : State) : Host.Outcome State Fault Refusal :=
  .next (s.barWrite 4 0x510008 State.capture)

/-! ### Received frames (12_umakin_transport.md R309 to R317) -/

/-- Where a frame's network header starts: after an 802.1Q tag of VLAN 0, or untagged; none for another VLAN (R309). -/
def l3At (bs : List Byte) : Option Nat :=
  if beAt bs 12 2 = 0x8100 then (if beAt bs 14 2 % 4096 = 0 then some 18 else none) else some 14

/-- Whether a UDP checksum is right: 0, or the ones' complement sum over the pseudo-header and the datagram. -/
def udpOk (bs : List Byte) (l3 len : Nat) : Bool :=
  beAt bs (l3 + 46) 2 == 0 ||
    onesFold (onesSum ((bs.drop (l3 + 8)).take 32) + len + 17 + onesSum ((bs.drop (l3 + 40)).take len)) == 0

/-- A UMT packet out of a frame, from the byte at which its header starts (R314, R317). -/
def pktOf (bs : List Byte) (i : Fin 20) (l3 h : Nat) : Pkt :=
  let f := beAt bs (h + 1) 1
  let m := f / 8 % 2 == 1
  let d := h + 32 + (if m then 36 else 0)
  { ifc := i, srcDev := BitVec.ofNat 16 (beAt bs (l3 + 20) 2), srcIfc := Fin.ofNat 20 (beAt bs (l3 + 22) 2),
    ce := decide (beAt bs l3 2 / 16 % 4 = 3), isFirst := f / 128 % 2 == 1, isLast := f / 64 % 2 == 1, ackReq := f / 32 % 2 == 1,
    notify := f / 16 % 2 == 1, retx := f / 4 % 2 == 1,
    mcast := if m then some (BitVec.ofNat 8 (beAt bs (h + 32) 1), BitVec.ofNat 256 (beAt bs (h + 36) 32)) else none,
    path := BitVec.ofNat 6 (beAt bs (h + 4) 4 / 2 ^ 26), gen := BitVec.ofNat 8 (beAt bs (h + 4) 4 / 2 ^ 18),
    dqpn := Fin.ofNat 262144 (beAt bs (h + 4) 4 % 2 ^ 18), sqpn := Fin.ofNat 262144 (beAt bs (h + 8) 4 % 2 ^ 18),
    ceCnt := BitVec.ofNat 8 (beAt bs (h + 12) 1), psn := BitVec.ofNat 24 (beAt bs (h + 13) 3), addr := BitVec.ofNat 64 (beAt bs (h + 16) 8),
    aux := BitVec.ofNat 32 (beAt bs (h + 24) 4), ts := BitVec.ofNat 32 (beAt bs (h + 28) 4),
    payload := (bs.drop d).take (beAt bs (h + 2) 2 % 8192) }

/-- The command that a UMT packet's arrival is, by its type, and in collective space by the kind in its address
(13_collectives_and_hawk_store.md Table 13-4). -/
def umtCmd (typ : Nat) (p : Pkt) : Option Instr :=
  let kind := if isCollAddr p.addr then some (bits p.addr 31 28) else none
  match typ with
  | 0 => (match kind with
    | some 1 => some (.contrib p)
    | some 2 => some (.result p)
    | some 4 => some (.stage p)
    | _ => some (.umtWrite p))
  | 1 => some (.umtReadReq p)
  | 2 => some (.umtReadResp p)
  | 3 => some (.umtSend p)
  | 4 => (match kind with
    | some 0 => some (.claim p)
    | some 3 => some (.done p)
    | _ => some (.umtAtomic p))
  | 5 => some (.umtAtomicResp p)
  | 6 => some (.umtNotify p)
  | 7 => some (.umtAck p)
  | _ => none

/-- The largest payload of a type: 4,096 bytes for data packets and 64 for control packets (R315). -/
def lenLimit (typ : Nat) : Nat := if typ = 0 ∨ typ = 2 ∨ typ = 3 then 4096 else 64

/-- A UDP datagram to the UMT port is handled as UMT (R311, R316, R364). -/
def State.umtFrame (s : State) (i : Fin 20) (bs : List Byte) (l3 : Nat) (multi : Bool) : State :=
  let h := l3 + 48
  let udp := beAt bs (l3 + 44) 2
  let typ := beAt bs h 1 % 16
  let p := pktOf bs i l3 h
  let size := 32 + (if p.mcast.isSome then 36 else 0) + beAt bs (h + 2) 2 % 8192
  if !udpOk bs l3 udp then (s.rxFrame i.val).dropFrame i.val
  else if decide (bs.length < l3 + 40 + udp) || decide (udp < 44) || beAt bs h 1 / 16 != 1 || decide (udp ≠ 8 + size + 4) ||
      decide (p.payload.length > lenLimit typ) || crc32c ((bs.drop h).take size) != BitVec.ofNat 32 (beAt bs (h + size) 4) then
    (s.rxFrame i.val).crcErr i.val
  else match umtCmd typ p with
    | none => (s.rxFrame i.val).crcErr i.val
    | some c =>
      let result := match c with | .result _ => true | _ => false
      if beAt bs (l3 + 22) 2 ≥ 20 ∨ (multi ∧ p.mcast = none) ∨ (p.mcast.isSome ∧ !result) then (s.rxFrame i.val).dropFrame i.val
      else s.emit (.noc c)

/-- A frame with a good FCS that no lane takes (R312). -/
def State.sortFrame (s : State) (i : Fin 20) (bs : List Byte) : State :=
  let drop := (s.rxFrame i.val).dropFrame i.val
  match l3At bs with
  | none => drop
  | some l3 =>
    if beAt bs (l3 - 2) 2 ≠ 0x86DD ∨ beAt bs l3 1 / 16 ≠ 6 then drop
    else
      let dst := beAt bs (l3 + 24) 16
      let own := dst == s.ipOf s.xlt.devnum.toNat i.val
      let multi := dst == s.ipOf (podOf s.xlt.devnum * 256) 0xFFFF
      let nxt := beAt bs (l3 + 6) 1
      if nxt = 17 ∧ bit s.net.gctl 0 ∧ beAt bs (l3 + 42) 2 = bits s.net.gctl 63 48 ∧ (own ∨ multi) then s.umtFrame i bs l3 (multi && !own)
      else if nxt = 58 ∧ beAt bs (l3 + 40) 1 = 135 ∧ beAt bs (l3 + 48) 16 = s.ipOf s.xlt.devnum.toNat i.val then
        (s.rxFrame i.val).sendFrame i.val (.neighbour i.val (s.advert i.val (beAt bs (l3 + 8) 16)))
      else drop

/-- FRAME_RECEIVE (R312): a frame has arrived, its FCS checked and not among the bytes. -/
def execFrameReceive (ifc : Fin 20) (bytes : List Byte) (fcsOk : Bool) (s : State) : Host.Outcome State Fault Refusal :=
  let i := ifc.val
  .next (if !s.ifcServes i then s
    else if bytes.length + 4 > 4352 then (s.rxFrame i).dropFrame i
    else match s.laneFor i bytes with
      | some n => s.emit (.noc (.skimFrameTrigger (Fin.ofNat 16 n) ifc bytes s.skm.nclk fcsOk))
      | none => if !fcsOk then (s.rxFrame i).crcErr i else s.sortFrame ifc bytes)

end Sys2Proof.Machine
end

