-- ==== Sys2Proof/Machine/FaultOps.lean ====
section
/-! DEFINITION. The operations of the fault collector: fault sources and their severities, what a dust sheet of each kind of unit
isolates, the forced power-down of a domain, the chip reaction, and the takeover by the fallback sequencer
(15_faults_and_dust_sheets.md; 17_power_clocks_startup.md R449 to R452). -/
namespace Sys2Proof.Machine

/-! ### Sources (R399, R401, R421) -/

/-- The number of a source in the collector's tables. -/
def srcKey (g u k : Nat) : Nat := g * 2 ^ 19 + u * 8 + k

/-- What the collector holds of a source. -/
def State.srcSt (s : State) (g u k : Nat) : SrcState := Tab.get SrcState.init s.flt.src (srcKey g u k)

/-- The state with what the collector holds of a source replaced. -/
def State.setSrc (s : State) (g u k : Nat) (x : SrcState) : State :=
  { s with flt := { s.flt with src := Tab.set SrcState.init s.flt.src (srcKey g u k) x } }

/-- Whether a group has a unit (Table 15-9). -/
def srcUnit (g u : Nat) : Bool :=
  match g with
  | 0 => decide (u < 1700)
  | 1 => decide (u < 100)
  | 2 => decide (u < 5)
  | 3 => decide (u < 30)
  | 4 => decide (u < 6)
  | 5 => decide (u < 3)
  | 6 => decide (u < 5) || u == 8 || (decide (16 ≤ u) && decide (u < 32))
  | 7 => decide (u < 21)
  | 8 => decide (u < 10)
  | 9 => decide (u < 5)
  | 10 => decide (u < 17)
  | 11 => decide (u < 115)
  | 12 => decide (u < 7)
  | 13 => decide (u < 2)
  | 14 => decide (u < 3)
  | _ => false

/-- CLASS, N and K of a kind by default (Table 15-9). N has eight bits, so that 256, 1,024 and 4,096 read 0. -/
def sevRow (g k : Nat) : Nat × Nat × Nat :=
  match g, k with
  | 15, _ => (0, 0, 27)
  | _, 7 => (2, 0, 27)
  | 0, 0 => (1, 16, 27)
  | 0, 1 => (2, 0, 27)
  | 0, 2 => (2, 0, 27)
  | 1, 0 => (1, 16, 27)
  | 1, 1 => (2, 0, 27)
  | 1, 2 => (2, 0, 27)
  | 1, 3 => (3, 0, 27)
  | 1, 4 => (3, 0, 27)
  | 2, 0 => (1, 64, 27)
  | 2, 1 => (0, 8, 30)
  | 2, 2 => (2, 0, 27)
  | 2, 3 => (3, 0, 27)
  | 3, 0 => (1, 256 % 256, 27)
  | 3, 1 => (0, 16, 30)
  | 3, 2 => (2, 4, 30)
  | 3, 3 => (3, 0, 27)
  | 4, 0 => (1, 64, 27)
  | 4, 1 => (3, 0, 27)
  | 5, 1 => (1, 1024 % 256, 24)
  | 5, 2 => (2, 0, 24)
  | 5, 4 => (4, 0, 24)
  | 5, _ => (0, 0, 24)
  | 6, 0 => (1, 16, 27)
  | 6, 1 => (2, 0, 27)
  | 7, 0 => (1, 4096 % 256, 20)
  | 7, 1 => (2, 0, 20)
  | 7, 3 => (4, 0, 20)
  | 7, _ => (0, 0, 20)
  | 8, 1 => (2, 0, 27)
  | 8, 2 => (2, 0, 27)
  | 9, 0 => (1, 16, 27)
  | 9, 1 => (2, 4, 30)
  | 9, 2 => (2, 0, 27)
  | 10, 0 => (2, 0, 27)
  | 10, 1 => (3, 0, 27)
  | 11, 1 => (5, 0, 20)
  | 11, 2 => (0, 64, 20)
  | 11, 3 => (3, 0, 20)
  | 11, 4 => (5, 0, 20)
  | 11, _ => (0, 0, 20)
  | 12, 0 => (4, 0, 27)
  | 12, 1 => (5, 0, 27)
  | 13, 0 => (1, 16, 27)
  | 13, 1 => (5, 0, 27)
  | 13, 2 => (5, 0, 27)
  | 14, 0 => (5, 0, 27)
  | 14, 2 => (5, 0, 27)
  | _, _ => (0, 0, 27)

/-- GRACE of a group by default (Table 15-9). -/
def graceRow (g : Nat) : Nat :=
  match g with
  | 0 => 2000
  | 1 => 2000
  | 4 => 10000
  | 6 => 2000
  | 7 => 100000
  | _ => 0

/-- FLT_SEV by default (R421): CEIL is FENCE throughout; kind 7 has a grace of 2,000. -/
def sevDefault (g k : Nat) : W64 :=
  let r := sevRow g k
  let grace := if g = 15 then 0 else if k = 7 then 2000 else graceRow g
  BitVec.ofNat 64 (grace * 2 ^ 32 + r.2.1 * 2 ^ 16 + r.2.2 * 2 ^ 8 + 3 * 16 + r.1)

/-- FLT_SEV of a group and kind. -/
def State.sev (s : State) (g k : Nat) : W64 := (Tab.get none s.flt.sev (16 * g + k)).getD (sevDefault g k)

/-- A write of FLT_SEV: a new CLASS is the class of every source of the kind (R401); a reserved CLASS or CEIL, or a K outside 10 to
34, leaves its field. -/
def State.writeSev (s : State) (g k : Nat) (v : W64) : State :=
  if g ≥ 15 ∨ k ≥ 8 then s
  else
    let old := s.sev g k
    let cls := if bits v 2 0 > 5 then bits old 2 0 else bits v 2 0
    let ceil := if bits v 6 4 > 5 then bits old 6 4 else bits v 6 4
    let kk := if bits v 13 8 < 10 ∨ bits v 13 8 > 34 then bits old 13 8 else bits v 13 8
    let new : W64 := BitVec.ofNat 64 (bits v 55 32 * 2 ^ 32 + bits v 23 16 * 2 ^ 16 + kk * 2 ^ 8 + ceil * 16 + cls)
    let s1 : State := { s with flt := { s.flt with sev := Tab.set none s.flt.sev (16 * g + k) (if new = sevDefault g k then none else some new) } }
    if cls = bits old 2 0 then s1
    else { s1 with flt := { s1.flt with src := s1.flt.src.map (fun e =>
      if e.1 / 2 ^ 19 = g ∧ e.1 % 8 = k then (e.1, { e.2 with raised := 0 }) else e) } }

/-- A sticky bit is set (R399). -/
def State.stick (s : State) (g u k : Nat) : State :=
  let i := u * 8 + k
  let w := 512 * g + i / 32
  { s with flt := { s.flt with sticky := Tab.set 0 s.flt.sticky w (setBit (Tab.get 0 s.flt.sticky w) (i % 32) true) } }

/-- The unit that a dust sheet of a source's unit takes (R406, Table 15-4): none for one that takes none. -/
def dustUnitOf (g u : Nat) : Option DustUnit :=
  match g with
  | 0 => if u < 1700 then some (.cell (Fin.ofNat 100 (u / 17)) (Fin.ofNat 17 (u % 17))) else none
  | 1 => if u < 100 then some (.block (Fin.ofNat 100 u)) else none
  | 3 => if u < 20 then some (.memPort (Fin.ofNat 20 u)) else none
  | 4 => if u < 5 then some (.region (Fin.ofNat 5 u)) else none
  | 6 => if 16 ≤ u ∧ u < 32 then some (.engine (Fin.ofNat 16 (u - 16))) else none
  | 7 => if u < 20 then some (.netPort (Fin.ofNat 10 (u / 2))) else none
  | 9 => if u < 5 then some (.collective (Fin.ofNat 5 u)) else none
  | 10 => if u = 0 then some .skim else none
  | _ => none

/-- The group and unit of a unit that takes a dust sheet (16_stolpel_and_events.md R431). -/
def dustNum : DustUnit → Nat × Nat
  | .cell b p => (0, 17 * b.val + p.val)
  | .block b => (1, b.val)
  | .region r => (4, r.val)
  | .memPort p => (3, p.val)
  | .netPort p => (7, 2 * p.val)
  | .engine e => (6, 16 + e.val)
  | .collective r => (9, r.val)
  | .skim => (10, 0)

/-- The unit that a unit stands in (R411); none for one that the chip owns. -/
def dustParent : DustUnit → Option DustUnit
  | .cell b _ => some (.block b)
  | .block b => some (.region (Fin.ofNat 5 (b.val / 20)))
  | .memPort p => some (.region (Fin.ofNat 5 (p.val / 4)))
  | .netPort p => some (.region (Fin.ofNat 5 (p.val / 2)))
  | .collective r => some (.region r)
  | .region _ => none
  | .engine _ => none
  | .skim => none

/-- Whether a unit is under a dust sheet of its own: a cell's, and a dead port's, show in their states (Table 15-4). -/
def State.ownSheet (s : State) (u : DustUnit) : Bool :=
  match u with
  | .cell b p => decide (((s.blk b.val).cell p.val).state.toNat ≥ 2)
  | .memPort p => s.dusted u || (s.mport p.val).state == 3
  | _ => s.dusted u

/-- Whether a unit stands in one that meets a test. -/
def underAny (p : DustUnit → Bool) (u : DustUnit) : Bool :=
  match dustParent u with
  | none => false
  | some v => p v || (match dustParent v with | none => false | some w => p w)

/-- Whether a unit is under a dust sheet, its own or that of a unit it stands in (R411). -/
def State.underSheet (s : State) (u : DustUnit) : Bool := s.ownSheet u || underAny s.ownSheet u

/-- Whether a source's unit stands in the region under a dust sheet, for the units that leave service with it (R411). -/
def State.goneWithRegion (s : State) (g u : Nat) : Bool :=
  match g with
  | 2 => s.regionDust u
  | 6 => decide (u < 5) && s.regionDust u
  | 3 => decide (20 ≤ u) && s.regionDust ((u - 20) / 2)
  | _ => false

/-- The spine weight of a region: how many of its blocks are in service, and 1 at least; blocks that lanes have reserved count
(01_architecture.md R18, R29). -/
def State.spineWeight (s : State) (r : Nat) : Nat := Nat.max 1 ((blocksOf r).filter (fun b => !s.blockDust b)).length

/-- A unit joins those under a dust sheet. -/
def State.sheet (s : State) (u : DustUnit) : State :=
  if s.dusted u then s else { s with flt := { s.flt with dust := s.flt.dust ++ [u] } }

/-! ### What a block loses (04_blocks_and_threads.md R117) -/

/-- The 64-byte sector of a target. -/
def Target.sector : Target → Target
  | .dev o => .dev (o / 64 * 64)
  | .host h => .host (h / 64 * 64)
  | .remote d o => .remote d (o / 64 * 64)
  | .bstore o => .bstore (o / 64 * 64)

/-- The sectors that a store which has not taken effect would write. -/
def Acc.lost (a : Acc) : List Target :=
  if a.performed || a.homed then []
  else match a.kind, a.tgt with
    | .st, .remote _ _ => []
    | .st, g => [g.sector]
    | .zline, g => (List.range 4).map (fun k => (g.plus (64 * k)).sector)
    | _, _ => []

/-- A kernel's command learns that a block was lost while its work was there (Table 11-4). -/
def Kernel.loses (b : Nat) (k : Kernel) : Kernel :=
  let n := k.lostBlocks + 1
  let mine := match k.status with | none => true | some st => st == 4
  let first := if k.lostBlocks = 0 then b else bits k.info 14 8
  { k with lostBlocks := n, status := some (k.status.getD 4),
           info := if mine then BitVec.ofNat 64 (first * 256 + Nat.min n 127) else k.info }

/-- The kernels that a list names learn that a block was lost. -/
def State.kernelsLose (s : State) (b : Nat) (ks : List (Nat × Nat)) : State :=
  s.each ks.eraseDups (fun t k => t.updKernel k.1 k.2 (Kernel.loses b))

/-- The bytes of a write-combining line that a block wrote. -/
def WLine.bytesOf (b : Nat) (l : WLine) : List (Nat × Storer) := l.who.filter (fun e => e.2.b == b)

/-- A write-combining line without the bytes that a block wrote. -/
def WLine.without (b : Nat) (l : WLine) : WLine :=
  { l with mask := l.mask &&& ~~~(l.maskOfBlock b), who := l.who.filter (fun e => e.2.b != b) }

/-- Whether a packet belongs to a block: to its running task, or to one that has ended. -/
def ownedBy (b : Nat) (o : Own) : Bool :=
  match o with
  | .acc c _ _ => c == b
  | .look c _ => c == b
  | .drain ks => ks.any (fun k => k.1.b == b)
  | _ => false

/-- The kernels whose stores a packet carries. -/
def Own.kernels (o : Own) : List (Nat × Nat) :=
  match o with
  | .drain ks => ks.filterMap (fun k => k.1.kern)
  | _ => []

/-- The sectors of a packet that carries stored bytes. -/
def Sent.lost (d : Nat) (x : Sent) : List Target :=
  if x.pkt.typ = 0 then (List.range ((x.pkt.payload.length + 63) / 64)).map (fun k =>
    (Target.remote (BitVec.ofNat 16 d) (bits x.pkt.addr 45 0 + 64 * k)).sector) else []

/-- The sectors that a request of a block cache would write, when it is a plain store that its home has not served. -/
def State.reqLost (s : State) (b : Nat) (x : BReq) : List Target :=
  let l := lineAt x.line
  let base : Target := if l.host then .host (l.line.toNat * 256) else .dev (l.line.toNat * 256)
  match x.req with
  | .wrcond _ _ _ _ => []
  | c => match (HReq.msg c).bytes with
    | some (m, _) => if s.awaitsAck l b c then [] else (ones (maskSecs m)).map (fun k => (base.plus (64 * k)).sector)
    | none => []

/-- A block's buffered stores are discarded, and its task ends without draining (R117): how many sectors were lost, and the
state. -/
def State.dropBlockWork (s : State) (b : Nat) : Nat × State :=
  let r := regionOf b
  let kern := (s.blk b).task.map (fun k => (k.q, k.slot))
  let accLost := (List.range 128).flatMap (fun t => (s.thr b t).accs.flatMap Acc.lost)
  let lines := (s.wc r).filter (fun l => !l.out)
  let wcLost := lines.flatMap (fun l => (l.bytesOf b).map (fun e => (l.tgt.plus e.1).sector))
  let queued := s.net.qp.flatMap (fun e => (e.2.unsent.filter (fun x => ownedBy b x.own)).map (fun x => (e.1, x)))
  let netLost := queued.flatMap (fun x => Sent.lost (s.peer x.1).toNat x.2)
  let asked := (s.bc b).out.filter (fun x => !(s.reqLost b x).isEmpty)
  let outLost := asked.flatMap (s.reqLost b)
  let owners := lines.flatMap (fun l => (l.bytesOf b).filterMap (fun e => e.2.kern)) ++ queued.flatMap (fun x => x.2.own.kernels) ++
    asked.filterMap (fun x => x.kern)
  let ks := owners ++ (match kern with | some k => [k] | none => [])
  let s1 := s.each (List.range 128) (fun t i => if (t.thr b i).accs = [] then t else t.setThr b i { t.thr b i with accs := [] })
  let s2 := s1.setWc r (((s1.wc r).map (fun l => if l.out then l else l.without b)).filter (fun l => l.out || l.mask != 0))
  let s3 : State := { s2 with net := { s2.net with qp := s2.net.qp.map (fun e =>
    (e.1, { e.2 with unsent := e.2.unsent.filter (fun x => !ownedBy b x.own) })) } }
  let s4 := s3.kernelsLose b ks
  let s5 := match kern with
    | none => s4
    | some k => (s4.clearTask b).abortKernel k.1 k.2 4 0
  let s6 := s5.laneLosesBlock b
  let s7 := s6.setBlk b { s6.blk b with reserved := none }
  let s8 : State := match s7.que.modeset with
    | some m => if m.scope.getLsbD r && (s.blk b).reserved.isNone && !(m.lost.any (fun x => x == b))
                then { s7 with que := { s7.que with modeset := some { m with lost := m.lost ++ [b] } } } else s7
    | none => s7
  (((accLost ++ wcLost ++ netLost ++ outLost).eraseDups).length, s8)

/-- A block that no longer acts: its requests that no home has served go, its port answers the snoops that it held and for the answers
that homes wait for (07_caches_and_coherence.md R204). -/
def State.silence (s : State) (b : Nat) : State :=
  let c := s.bc b
  let s1 := s.setBc b { c with out := [], held := [] }
  let s2 := s1.each c.held (fun t h => t.snoop b (lineAt h.1) h.2)
  let s3 := (s2.each (List.range 5) (fun t r => t.setRc r { t.rc r with
    resv := (t.rc r).resv.map (fun h => { h with held := h.held.filter (fun i => reqBlock i != some b) }) })).dropReqs
      (fun q => q.block == some b)
  s3.each (List.range 5) (fun t r => t.each (((t.rc r).txns.filter (fun x => x.waits.any (fun w => w == .ack b))).map (fun x => x.line))
    (fun u l => u.gotResp (lineAt l) (.ack b)))

/-! ### Dust sheets (R410, Table 15-4) -/

/-- BLK_CELL_MAP as four bytes. -/
def Block.mapBytes (x : Block) : List Byte := leBytes 4 (x.lost.toNat * 32 + x.spareFor.toNat)

/-- The record of a dust sheet of a unit: of class 6, or 7 for a region, with the cause's severity and time. -/
def sheetRec (i : Rec) (u : DustUnit) (code count : Nat) (aux : List Byte) : Rec :=
  let n := dustNum u
  let cls := match u with | .region _ => 7 | .memPort _ => 4 | _ => 6
  { i with cls := cls, grp := n.1, unit := if i.grp = n.1 ∧ n.1 = 7 then i.unit else n.2, dust := true, code := code, count := count, aux := aux }

/-- A block is placed under a dust sheet: buffered stores are discarded and counted, its kernel aborted elsewhere. -/
def State.dustBlock (s : State) (b : Nat) (i : Rec) : State :=
  if s.blockDust b then s
  else
    let d := s.dropBlockWork b
    let x := d.2.blk b
    let s1 := d.2.setBlk b { x with state := .dustsheet, lostStores := satAdd x.lostStores d.1 }
    let s2 := ((s1.sheet (.block (Fin.ofNat 100 b))).silence b).agentDies (.block (Fin.ofNat 100 b))
    s2.offer (sheetRec i (.block (Fin.ofNat 100 b)) 1 d.1 x.mapBytes) none

/-- The entries of a cell's queue end with CELL_LOST in their threads. -/
def State.losesEntries (s : State) (b : Nat) (l : List CellEntry) : State :=
  s.each (l.filter (fun e => !e.op.isMark)) (fun t e => t.defer b e.t.thr.val (.cellLost e.ia e.logical))

/-- The record of a cell's dust sheet. -/
def State.cellRecord (s : State) (b p : Nat) (i : Rec) : State :=
  s.offer (sheetRec i (.cell (Fin.ofNat 100 b) (Fin.ofNat 17 p)) 0 0 (s.blk b).mapBytes) none

/-- A second loss of a cell: the block cannot contain it, and is placed under a dust sheet (04_blocks_and_threads.md R98); its own
source reports it too. -/
def State.secondLoss (s : State) (b : Nat) (i : Rec) : State :=
  (s.dustBlock b { i with grp := 1, kind := 3, sev := 3 }).report 1 b 3 0

/-- A cell that the spare does not cover is lost: LOST names physical cell l, the logical numbers it served fail for the running task,
and a lane loses the block (R97; 14_skim_lanes.md R381). -/
def State.loseCell (s : State) (b p l : Nat) (served : List Nat) (i : Rec) : State :=
  let x := s.blk b
  let c := x.cell p
  let y := x.setCell p { c with state := 2, logical := 31, queue := c.queue.filter (fun e => e.op.isMark) }
  let z : Block := { y with lost := BitVec.ofNat 5 l, lostNow := x.lostNow ++ served,
                            spareHad := if p = 16 then BitVec.ofNat 5 l else x.spareHad,
                            spareFor := if p = 16 then 31 else x.spareFor, spareUsed := if p = 16 then false else x.spareUsed }
  let s1 := (s.setBlk b z).losesEntries b c.queue
  let s2 := if x.reserved.isSome then (s1.laneLosesBlock b).leaveLane b else s1
  (s2.flush b).cellRecord b p i

/-- The spare takes the logical number of a lost cell (R96): its stores start poisoned, the instruction in flight ends with CELL_LOST,
and what waited goes on at the spare. -/
def State.spareTakes (s : State) (b p : Nat) (i : Rec) : State :=
  let x := s.blk b
  let c := x.cell p
  let flight := (c.queue.filter (fun e => !e.op.isMark)).take 1
  let rest := c.queue.eraseP (fun e => !e.op.isMark)
  let y := (x.setCell p { c with state := 2, logical := 31, queue := [] }).setCell 16
    { (x.cell 16).spoiled with state := 0, queue := rest }
  let z : Block := { y with spareFor := BitVec.ofNat 5 p, mapSpare := BitVec.ofNat 5 p, spareUsed := true }
  let s1 := (s.setBlk b z.renumber).losesEntries b flight
  ((if x.reserved.isSome then s1.laneReloads b else s1).flush b).cellRecord b p i

/-- The logical numbers that a physical cell serves for the running task. -/
def Block.serves (x : Block) (p : Nat) : List Nat :=
  (List.range x.cellsN).filter (fun n => mapCell x.mapSpare x.mapLost n == p)

/-- A cell is placed under a dust sheet (R95 to R98): one that is already, or is disabled, stays as it is. -/
def State.dustCell (s : State) (b p : Nat) (i : Rec) : State :=
  let x := s.blk b
  let c := x.cell p
  if c.state.toNat ≥ 2 then s
  else if p = 16 then
    if c.state.toNat = 1 then (s.setBlk b (x.setCell 16 { c with state := 2 })).cellRecord b 16 i
    else if x.lost ≠ 31 then s.secondLoss b i
    else s.loseCell b 16 x.spareFor.toNat (x.serves 16) i
  else if (x.cell 16).state.toNat = 1 then s.spareTakes b p i
  else if x.lost ≠ 31 then s.secondLoss b i
  else s.loseCell b p p (x.serves p) i

/-- A memory port is placed under a dust sheet: it dies with a cause (08_memory_stacks.md Table 8-9), and lines says how many were
lost before. -/
def State.dustMemPort (s : State) (mp cause lines : Nat) (i : Rec) : State :=
  if s.dusted (.memPort (Fin.ofNat 20 mp)) then s
  else
    let before := (s.map (mp / 4)).lostLines.toNat
    let t := (s.killPort mp cause).sheet (.memPort (Fin.ofNat 20 mp))
    t.offer (sheetRec i (.memPort (Fin.ofNat 20 mp)) (t.mport mp).cause.toNat (lines + ((t.map (mp / 4)).lostLines.toNat - before))
      (leBytes 2 (t.lg (mp / 2)).modules.toNat)) none

/-- Both interfaces of a network port go down. -/
def State.portDown (s : State) (p : Nat) : State := (s.ifcDown (2 * p)).ifcDown (2 * p + 1)

/-- A collective engine is lost: its members' COLLs complete with REFUSED, and its nodes and slots go (13_collectives_and_hawk_store.md
R365). -/
def State.loseEngine (s : State) (r : Nat) : State :=
  let s1 := s.each (s.ceng r).members (fun t m => t.endMember r m 11 0)
  s1.setCeng r { s1.ceng r with slots := [], nodes := [], members := [], stages := [] }

/-- A copy engine's pieces go to the engines left of its set, and a command without any ends with DEAD_TARGET. -/
def State.moveOne (s : State) (e : Nat) (p : Piece) : State :=
  let set := ((List.range 8).map (fun k => e / 8 * 8 + k)).filter s.engServes
  let fresh : Piece := { p with tries := 0, stage := 0, left := 0, buf := [], spoilt := [], bad := none }
  match s.leastEng set with
  | some f => s.setEng f { s.eng f with pieces := (s.eng f).pieces ++ [fresh] }
  | none => s.updCmd p.q p.slot (fun c => { (c.fail 1 p.dst) with left := c.left - 1 })

/-- A copy engine is lost: its pieces are reissued (11_queues_and_copy.md R303). -/
def State.movePieces (s : State) (e : Nat) : State :=
  let ps := (s.eng e).pieces
  (s.setEng e { s.eng e with pieces := [] }).each ps (fun t p => t.moveOne e p)

/-- A region's translation unit forgets what it holds. -/
def State.dropUnit (s : State) (r : Nat) : State :=
  { s with xlt := { s.xlt with
    tlb := s.xlt.tlb.filter (fun e => e.1 / 512 != r), tree := s.xlt.tree.filter (fun e => e.1 / 512 != r),
    micro := s.xlt.micro.filter (fun e => s.unitOf e.1 != r), ctx := s.xlt.ctx.filter (fun e => e.1 != r) } }

/-- The lines of a region cache that hold data no stack has. -/
def State.dirtyLines (s : State) (r : Nat) : Nat :=
  ((s.rc r).lines.filter (fun k => match k.2 with
    | some e => e.dirty != 0 || !(s.owners (lineAt k.1)).isEmpty
    | none => false)).length

/-- A region's cache loses all it holds, and the copies of its lines go. -/
def State.loseCache (s : State) (r : Nat) : State :=
  let s1 := s.each (s.rc r).lines (fun t k => match k.2 with
    | some _ => ((t.dropCopies (lineAt k.1) 15 none).breakResv (lineAt k.1) 15 none).setRline r (lineAt k.1) none
    | none => t)
  { s1 with hpt := { s1.hpt with rasUnc := s1.hpt.rasUnc ||| 1 } }

/-- The requests that a home holds and has not served for lines that meet a test, the host's snoops among them, but for those of dead
blocks: with a region's host share they go to another home (07_caches_and_coherence.md R179). -/
def State.strays (s : State) (r : Nat) (p : LineId → Bool) : List (HReq × LineId) :=
  let keep : HReq → Bool := fun q => match q with
    | .msg c => (match reqBlock c with | some b => !s.blockDust b | none => true)
    | .unit _ _ | .post _ _ _ => true
    | _ => false
  let c := s.rc r
  (c.txns.filter (fun x => p (lineAt x.line))).flatMap (fun x =>
    (((if x.served then [] else [x.req]) ++ x.queued).filter keep).map (fun q => (q, lineAt x.line))) ++
  (c.hsnp.filter (fun x => p (lineAt x.line))).map (fun x => (x.req, lineAt x.line))

/-- Requests of a home that has given its share up go to the lines' new homes, and the blocks' accesses go on. -/
def State.sendOn (s : State) (qs : List (HReq × LineId)) : State :=
  let s1 := s.each qs (fun t q => match q.1 with
    | .msg (.hostSnpinv h) => t.hostSnoop (.hostSnpinv h) h.toNat
    | .msg (.hostSnpdata h) => t.hostSnoop (.hostSnpdata h) h.toNat
    | .msg (.hostSnpcur h) => t.hostSnoop (.hostSnpcur h) h.toNat
    | c => t.atHome c q.2)
  s1.each s1.coh.bc (fun t e => if t.blockDust e.1 then t else t.kickBlock e.1)

/-- What a home had served on lines that meet a test and whose answer is still on its way is done: writes are performed, and reads ask
again. -/
def State.landServed (s : State) (r : Nat) (p : LineId → Bool) : State :=
  let s1 := s.landHomed p
  s1.each ((s.rc r).txns.filter (fun x => x.served && p (lineAt x.line))) (fun t x => match x.req with
    | .msg c => (match reqBlock c with
      | some b => (t.landAll b c).dropReq b c
      | none => t)
    | _ => t)

/-- A home gives up a share of host memory: its tags for the share leave at once, and so does what it does for it. -/
def State.giveShare (s : State) (r : Nat) (p : LineId → Bool) : State :=
  let s1 := (s.landServed r p).each (s.rc r).lines (fun t k => if p (lineAt k.1) then t.dropNow r (lineAt k.1) else t)
  let c := s1.rc r
  (s1.setRc r { c with txns := c.txns.filter (fun x => !p (lineAt x.line)), hsnp := c.hsnp.filter (fun x => !p (lineAt x.line)) }).dropHomeResv r
    (fun h => match lineOfTgt h.sector with | some (l, _) => p l | none => false)

/-- The walk of R205 over a region's cache, when it can be read: the lines that its own blocks had written are poisoned, and then
every line is given up. What waited at the region for device memory ends, and its eviction buffer drains on (R189). -/
def State.fenceCache (s : State) (r : Nat) (readable : Bool) : State :=
  let s1 := s.each (blocksOf r) (fun t b => t.reclaimBlock r b)
  let s2 := if readable then s1.emptyRegionNow r else s1.loseCache r
  let s3 := (s2.landServed r (fun l => l.host && s.home l == some r)).endRequests r (fun l => !l.host && s.home l == some r)
  let c := s3.rc r
  s3.setRc r { RCache.init with
    retired := c.retired, once := c.once, ctl := c.ctl, waydis := c.waydis, wayfail := c.wayfail, hlost := c.hlost, poisoned := c.poisoned,
    hostDead := c.hostDead, evict := if readable then c.evict else [] }

/-- A region's blocks, engine, interfaces, ports and cache leave service; lost stores are counted by block when byBlock is true: how
many sectors were lost, and the state. -/
def State.fenceRegion (s : State) (r : Nat) (readable byBlock : Bool) : Nat × State :=
  let go : Nat × State → Nat → Nat × State := fun a b =>
    if a.2.blockDust b then a
    else
      let d := a.2.dropBlockWork b
      let x := d.2.blk b
      (a.1 + d.1, d.2.setBlk b { x with state := .dustsheet, lostStores := if byBlock then satAdd x.lostStores d.1 else x.lostStores })
  let a := (blocksOf r).foldl go (0, s)
  let again := (a.2.strays r LineId.host).filter (fun q => match q.1.block with | some b => regionOf b != r | none => true)
  let s1 := (a.2.fenceCache r readable).dropUnit r
  let s2 := s1.each (List.range 4) (fun t j => t.killPort (4 * r + j) 6)
  let s3 := (s2.loseEngine r).portDown (2 * r)
  let s4 := (s3.portDown (2 * r + 1)).sheet (.region (Fin.ofNat 5 r))
  let s5 : State := { s4 with flt := { s4.flt with
    noWalk := if readable then s4.flt.noWalk.filter (fun x => x != r) else s4.flt.noWalk.filter (fun x => x != r) ++ [r] } }
  let s6 := ((s5.each (blocksOf r) (fun t b => t.silence b)).agentDies (.region (Fin.ofNat 5 r))).endDead.drainDead
  (a.1, s6.sendOn again)

/-- A region is placed under a dust sheet: its cache is walked first when its domain has power (07_caches_and_coherence.md R205). -/
def State.dustRegion (s : State) (r : Nat) (i : Rec) : State :=
  if s.regionDust r then s
  else
    let ok := s.domOn (10 + 9 * r)
    let lost := if ok then 0 else s.dirtyLines r
    let s1 := (s.fenceRegion r ok true).2
    s1.offer (sheetRec i (.region (Fin.ofNat 5 r)) 1 lost [if ok then 1 else 0]) none

/-- A unit is placed under a dust sheet. cause is MEM_PORT_STATUS.CAUSE, and lines the lines that a port has lost already. -/
def State.dustUnit (s : State) (u : DustUnit) (cause lines : Nat) (i : Rec) : State :=
  match u with
  | .cell b p => if s.blockDust b.val then s else s.dustCell b.val p.val i
  | .block b => s.dustBlock b.val i
  | .region r => s.dustRegion r.val i
  | .memPort p => if s.regionDust (p.val / 4) then s else s.dustMemPort p.val cause lines i
  | .netPort p => if s.underSheet u then s else ((s.sheet u).portDown p.val).offer (sheetRec i u 1 0 []) none
  | .engine e => if s.dusted u then s else ((s.sheet u).movePieces e.val).offer (sheetRec i u 1 0 []) none
  | .collective r => if s.underSheet u then s else ((s.sheet u).loseEngine r.val).offer (sheetRec i u 1 0 []) none
  | .skim => if s.dusted u then s else ((s.sheet u).haltLanes).offer (sheetRec i u 1 0 []) none

/-! ### The chip reaction (R407) -/

/-- Every queue that is not DISABLED stops with ERROR, and its running commands are aborted. -/
def State.stopQueues (s : State) : State :=
  s.each s.que.que (fun t e => if (t.q e.1).state = .disabled then t else (t.stopQ e.1 2).abortCmds e.1 10)

/-- A DEVICE or GRAVE event latches its source, unless one of equal or higher class stands, and stops the device's work. -/
def State.chipReaction (s : State) (g u k cls : Nat) : State :=
  let s1 : State := if cls > bits s.flt.chip 26 24
    then { s with flt := { s.flt with chip := BitVec.ofNat 32 (cls * 2 ^ 24 + g * 2 ^ 20 + k * 2 ^ 16 + u) } } else s
  let s2 := s1.stopQueues.haltLanes
  ({ s2 with hpt := { s2.hpt with fatal := true }, flt := { s2.flt with faultT := true, faultC := false } }).event 406

/-! ### The takeover by the fallback sequencer (R417, Table 15-7) -/

/-- The payload area with bytes written from an offset on. -/
def payPut (t : Tab Byte) (o : Nat) (bs : List Byte) : Tab Byte := bs.zipIdx.foldl (fun a x => Tab.set 0 a (o + x.2) x.1) t

/-- The command of a mailbox completes: its output, LENGTH, RETURN and EXT are written, DOORBELL clears, which is an arrival, and a
message is sent when DB_INT asks for it (16_stolpel_and_events.md R425, Table 16-6). -/
def State.boxDone (s : State) (m : Bool) (ret ext : Nat) (out : List Byte) : State :=
  let x := s.box m
  let s1 := ((s.setBox (!m) { s.box (!m) with late := false }).setBox m { x with
    busy := false, late := false, ret := BitVec.ofNat 16 ret, ext := BitVec.ofNat 16 ext, ctl := setBit x.ctl 0 false, payload := payPut x.payload 0 out,
    cmd := setBits x.cmd 36 16 out.length }).event (400 + b2n m)
  if bit x.ctl 1 then s1.vector (b2n m) else s1

/-- The background command ends: RETURN and EXT of its mailbox's background status, a message when BG_INT asks for it, and an arrival at
source 402 (16_stolpel_and_events.md R426). A failure's output is left in the payload, unless a command has been issued since. -/
def State.bgDone (s : State) (ret ext : Nat) (out : List Byte) : State :=
  match s.mail.bg with
  | none => s
  | some g =>
    let x := s.box g.mb
    let s1 := s.setBox g.mb { x with
      bgRet := BitVec.ofNat 16 ret, bgExt := BitVec.ofNat 16 ext, bgPercent := 100, bgOpcode := g.opcode,
      payload := if bit x.ctl 0 then x.payload else payPut x.payload 0 out }
    let s2 : State := { s1 with mail := { s1.mail with bg := none } }
    let s3 := if bit x.ctl 2 then s2.vector (b2n g.mb) else s2
    s3.event 402

/-- The write-combining buffers of every region start to drain. -/
def State.drainBuffers (s : State) : State :=
  s.each (List.range 5) (fun t r => t.drainLines r ((t.wc r).filter (fun l => !l.out)))

/-- The lines of a region cache that a walk writes back. -/
def State.countDirty (s : State) (r : Nat) : Nat :=
  ((s.rc r).lines.filter (fun k => match k.2 with
    | some e => !e.host && (e.dirty != 0 || !(s.owners (lineAt k.1)).isEmpty)
    | none => false)).length

/-- Every region cache is walked: dirty device lines are written back, and dirty host sectors while the link is up; the device lines
written back are counted. -/
def State.walkAll (s : State) : State :=
  s.each (List.range 5) (fun t r =>
    if t.regionDust r then t
    else
      let n := t.countDirty r
      let u := if t.hpt.linkUp then t.cleanRegionNow r
               else t.each (t.rc r).lines (fun v k => if (lineAt k.1).host then v else v.cleanNow r (lineAt k.1))
      { u with flt := { u.flt with walked := u.flt.walked + BitVec.ofNat 64 n } })

/-- The fallback sequencer takes over from the site processor, once: cause 1 is the heartbeat, 2 a GRAVE event of PD1, 3 lockup. -/
def State.takeover (s : State) (cause : Nat) : State :=
  if s.hpt.fallback then s
  else
    let s1 : State := { s with
      flt := { s.flt with fallback := BitVec.ofNat 64 (s.flt.oclk.toNat % 2 ^ 48 * 2 ^ 16 + 2 * 16 + cause), pd1Cut := true,
                          seqRunning := true, walked := 0 },
      hpt := { s.hpt with fallback := true } }
    let s2 := [false, true].foldl (fun (t : State) m => if (t.box m).busy then t.boxDone m 4 0 [] else t) s1
    let s3 := ((s2.bgDone 4 0 []).stopQueues).haltLanes
    let s4 : State := { s3 with net := { s3.net with quiet := true }, flt := { s3.flt with makeGood := none } }
    let s5 := s4.drainBuffers.walkAll
    let s6 : State := { s5 with hpt := { s5.hpt with fatal := true }, flt := { s5.flt with faultT := true, faultC := false } }
    (s6.offer (s6.plainRec 14 0 0 0 0 []) none).event 407

/-! ### Forced power-down (17_power_clocks_startup.md R449, R452) -/

/-- The stores buffered for a link group are lost with its power, wherever they wait: how many sectors, and the state (R452;
06_memory_ordering.md Table 6-4). -/
def State.loseStoresTo (s : State) (g : Nat) : Nat × State :=
  let goes : LineId → Bool := fun l => s.onPort (2 * g) l || s.onPort (2 * g + 1) l
  let mine : Acc → Bool := fun a => !a.lost.isEmpty && (match lineOfTgt a.tgt with | some (l, _) => goes l | none => false)
  let buffered : WLine → Bool := fun x => match lineOfTgt x.tgt with | some (l, _) => goes l | none => false
  let accLost := s.blocks.thr.flatMap (fun e => ((s.thr (e.1 / 128) (e.1 % 128)).accs.filter mine).flatMap Acc.lost)
  let wcLost := (List.range 5).flatMap (fun r => ((s.wc r).filter buffered).flatMap (fun x =>
    (ones (maskSecs x.mask)).map (fun k => (x.tgt.plus (64 * k)).sector)))
  let outLost := s.coh.bc.flatMap (fun e => ((s.bc e.1).out.filter (fun x => goes (lineAt x.line))).flatMap (s.reqLost e.1))
  let s1 := s.each s.blocks.thr (fun t e =>
    let th := t.thr (e.1 / 128) (e.1 % 128)
    if th.accs.any mine then t.setThr (e.1 / 128) (e.1 % 128)
      { th with accs := updWhere mine (fun a => { a with performed := true }) th.accs } else t)
  let s2 := s1.each (List.range 5) (fun t r => t.setWc r ((t.wc r).filter (fun x => !(buffered x))))
  (((accLost ++ wcLost ++ outLost).eraseDups).length, s2)

/-- A domain that is on, gated or coming up is switched off by force; one that waits to be powered up waits no more. -/
def State.forceOne (s : State) (d cause : Nat) : State :=
  let x := s.dom d
  if x.state = .off ∨ x.state = .failed then { s with pwr := { s.pwr with waking := s.pwr.waking.filter (fun k => k != d) } }
  else
    let off : State → State := fun t =>
      let u : State := { t with pwr := { t.pwr with waking := t.pwr.waking.filter (fun k => k != d) } }
      u.setDom d { u.dom d with state := if cause = 4 then .failed else .off, cause := BitVec.ofNat 4 cause, current := 0 }
    let ends : Nat × State := match domKind d with
      | .compute _ _ => (domBlocks d).foldl (fun (a : Nat × State) b =>
          if a.2.blockDust b then a
          else
            let w := a.2.dropBlockWork b
            let t := w.2.each (List.range 5) (fun u r => u.reclaimBlock r b)
            (a.1 + w.1, (t.setBlk b { t.blk b with state := .off }).silence b)) (0, s)
      | .mesh r => if s.regionDust r then (0, s) else s.fenceRegion r false false
      | .links g =>
        let w := s.loseStoresTo g
        (w.1, (w.2.killPort (2 * g) 8).killPort (2 * g + 1) 8)
      | .net r => (0, ((s.portDown (2 * r)).portDown (2 * r + 1)).loseEngine r)
      | .skim => (0, s.haltLanes)
      | .host => (0, { s with hpt := { s.hpt with linkUp := false } })
      | _ => (0, s)
    let s1 := off ends.2
    let s2 : State := { s1 with pwr := { s1.pwr with lostStores := satAdd s1.pwr.lostStores ends.1 } }
    let n := 64 + d
    s2.offer { s2.plainRec 13 n 0 3 ends.1 (leBytes 2 d) with grp := 11, kind := 3 } none

/-- A domain is forced down, those that depend on it first, as dependants. -/
def State.forceDown (s : State) (d cause : Nat) : State :=
  let kids := domKids d
  let s1 := s.each kids (fun t k => (t.each (domKids k) (fun u j => u.forceOne j 8)).forceOne k 8)
  (s1.forceOne d cause).kickWake

/-- Every domain but PD0 is forced off, those that depend on another first (15_faults_and_dust_sheets.md R409;
17_power_clocks_startup.md R477). -/
def State.allDown (s : State) (cause : Nat) : State := s.each [1, 2, 10, 19, 28, 37, 46] (fun t d => t.forceDown d cause)

/-- THERMTRIP: the pin goes low, and every domain but PD0 is forced off (R409). -/
def State.thermtrip (s : State) : State :=
  if s.flt.thermtripN then ({ s with flt := { s.flt with thermtripN := false } } : State).allDown 5 else s

/-- The units of a domain that take a dust sheet, and whether some take none: what a switch failure does (Table 15-9). -/
def domUnits (d : Nat) : List DustUnit × Bool :=
  match domKind d with
  | .compute _ _ => ((domBlocks d).map (fun b => .block (Fin.ofNat 100 b)), false)
  | .mesh r => ([.region (Fin.ofNat 5 r)], false)
  | .links g => ([.memPort (Fin.ofNat 20 (2 * g)), .memPort (Fin.ofNat 20 (2 * g + 1))], false)
  | .net r => ([.netPort (Fin.ofNat 10 (2 * r)), .netPort (Fin.ofNat 10 (2 * r + 1)), .collective (Fin.ofNat 5 r)], false)
  | .skim => ([.skim], false)
  | .control => ((List.range 16).map (fun e => .engine (Fin.ofNat 16 e)), true)
  | _ => ([], true)

end Sys2Proof.Machine
end

