-- ==== Sys2Proof/Machine/Fault.lean ====
section
/-! DEFINITION. The fault collector at work: events, grace timers, supervision, the snag queue's registers, and MAKE_GOOD's outcome
(15_faults_and_dust_sheets.md R397 to R417; 07_caches_and_coherence.md R202, R203). -/
namespace Sys2Proof.Machine

/-! ### Retired frames (07_caches_and_coherence.md R202, R203) -/

/-- A cache frame as the detail of an event names it: bit 63 set, the line held in [62:18], the set in [17:5], the way in [4:0]. -/
def frameOf (d : W64) : Option (Nat × Nat × Nat) := if bit d 63 then some (bits d 17 5, bits d 4 0, bits d 62 18) else none

/-- The tag that stands in a frame of a region cache. -/
def RCache.inFrame (c : RCache) (set way : Nat) : Option (Nat × RLine) :=
  (c.inSet set false ++ c.inSet set true).find? (fun x => x.2.way == way)

/-- A frame of a region cache leaves service: its line is written back, or poisoned first when it is dirty and cannot be corrected. The
65th takes its whole way out of service. How many lines were poisoned, and the state. -/
def State.retireFrame (s : State) (r set way : Nat) (lost : Bool) (d : W64) : Nat × State :=
  if !((s.rc r).wayOk set way) then (0, s)
  else
    let hit := (s.rc r).inFrame set way
    let x : Nat × State := match hit with
      | none => (0, s)
      | some (k, e) =>
        let l := lineAt k
        if lost && e.dirty != 0 then (1, (s.poisonLine r l (if l.host then e.dirty else 15) (!l.host)).giveUp r l) else (0, s.giveUp r l)
    let c := x.2.rc r
    if c.retired.length < 64 then (x.1, x.2.setRc r { c with retired := c.retired ++ [(set, way)], once := c.once.filter (fun f => f != (set, way)) })
    else
      let t := x.2.setRc r { c with
        wayfail := setBit c.wayfail way true, retired := c.retired.filter (fun f => f.2 != way), once := c.once.filter (fun f => f.2 != way) }
      let u := t.each (t.rc r).lines (fun v k => match k.2 with
        | some e => if e.way = way then v.giveUp r (lineAt k.1) else v
        | none => v)
      (x.1, u.report 2 r 2 d)

/-- The line that stands in a frame of a block cache. -/
def BCache.inFrame (c : BCache) (set way : Nat) : Option (Nat × BLine) := (c.inSet set).find? (fun x => x.2.way == way)

/-- A frame of a block cache leaves service; the 17th takes its whole way (R203), which is an event of the region's cache. -/
def State.retireBlockFrame (s : State) (b set way : Nat) (lost : Bool) (d : W64) : State :=
  let c0 := s.bc b
  if c0.ways.getLsbD way || c0.retired.any (fun f => f == (set, way)) then s
  else
    let s1 := match c0.inFrame set way with
      | none => s
      | some (k, e) =>
        let l := lineAt k
        if lost && e.modi != 0 then
          (match s.home l with
            | some r => (s.setBline b l none).poisonLine r l (if l.host then e.modi else 15) (!l.host)
            | none => s.setBline b l none)
        else s.evictB b l
    let c := s1.bc b
    if c.retired.length < 16 then s1.setBc b { c with retired := c.retired ++ [(set, way)], once := c.once.filter (fun f => f != (set, way)) }
    else
      let t := s1.setBc b { c with
        ways := setBit c.ways way true, retired := c.retired.filter (fun f => f.2 != way), once := c.once.filter (fun f => f.2 != way) }
      let u := t.each (t.bc b).lines (fun v k => match k.2 with
        | some e => if e.way = way then v.evictB b (lineAt k.1) else v
        | none => v)
      u.report 2 (regionOf b) 2 d

/-- The word of a cell's stores, or of a block store, as the detail of an uncorrectable error names it: bit 63 clear, bit 62 set, the
word in [17:0], counted from the first of the operand store, or of the block store (notes/assumptions 38). -/
def wordOf (d : W64) : Option Nat := if bit d 62 && !(bit d 63) then some (bits d 17 0) else none

/-- An uncorrectable error marks the word of a cell's stores, or of a block store, poisoned (03_tensor_cells.md R66;
04_blocks_and_threads.md R93). -/
def State.storeError (s : State) (g u k : Nat) (d : W64) : State :=
  match wordOf d, g, k with
  | some w, 0, 1 =>
    let b := u / 17
    let c := (s.blk b).cell (u % 17)
    if w ≥ 640 * 32 then s
    else s.setBlk b ((s.blk b).setCell (u % 17) { c with good := Tab.set 0 c.good (w / 32) (Tab.get 0 c.good (w / 32) &&& ~~~(1#32 <<< (w % 32))) })
  | some w, 1, 1 => s.setBlk u { s.blk u with store := (s.blk u).store.setBad w true }
  | _, _, _ => s

/-- What an error in a cache frame does to the cache that reports it: the second corrected error of a frame since the last conventional
reset retires it, and an uncorrectable one at once. How many lines were poisoned, and the state. -/
def State.frameError (s : State) (g u k : Nat) (d : W64) : Nat × State :=
  match frameOf d with
  | none => (0, s.storeError g u k d)
  | some (set, way, _) =>
    match g, k with
    | 2, 0 =>
      let c := s.rc u
      if c.once.any (fun f => f == (set, way)) then
        let x := s.retireFrame u set way false d
        (x.1, x.2.report 2 u 1 d)
      else (0, s.setRc u { c with once := c.once ++ [(set, way)] })
    | 2, 1 => s.retireFrame u set way true d
    | 1, 0 =>
      let c := s.bc u
      if c.once.any (fun f => f == (set, way)) then (0, s.retireBlockFrame u set way false d)
      else (0, s.setBc u { c with once := c.once ++ [(set, way)] })
    | 1, 1 => (0, s.retireBlockFrame u set way true d)
    | _, _ => (0, s)

/-! ### The record of an event (Table 15-6) -/

/-- The record class of a group: none where an event writes no record of its own. -/
def recClass (g : Nat) : Option Nat :=
  match g with
  | 2 => some 5
  | 3 => some 4
  | 5 => some 8
  | 7 => some 9
  | 8 => some 14
  | 9 => some 10
  | 10 => some 11
  | 11 => some 13
  | 12 => some 13
  | 13 => some 14
  | 14 => some 14
  | _ => none

/-- The CODE of an event's record; 0x8000_0000 + KIND where Table 15-6 gives none (R415). -/
def recCode (g k : Nat) (d : W64) : Nat :=
  match g, k with
  | 2, 1 => 0
  | 2, 2 => 1
  | 3, 0 => 0
  | 3, 1 => 1
  | 3, 3 => bits d 35 32
  | 5, 0 => bits d 63 56
  | 5, 2 => if bit d 63 then 3 else 4
  | 5, 3 => 0
  | 7, 1 => 1
  | 7, 2 => 0
  | 8, 0 => 2
  | 8, 1 => 3
  | 8, 2 => 4
  | 9, 1 => 2
  | 10, 0 => 1
  | 11, 0 => 0
  | 11, 1 => 1
  | 11, 2 => 2
  | 11, 3 => 3
  | 12, 0 => 4
  | 12, 1 => 4
  | 14, 1 => 1
  | _, _ => 2 ^ 31 + k

/-- ADDR of an event's record. -/
def recAddr (g k : Nat) (d : W64) : W64 :=
  match g, k with
  | 2, _ => (match frameOf d with | some (_, _, line) => BitVec.ofNat 64 (line * 256) | none => 0)
  | 5, 0 => BitVec.ofNat 64 (bits d 55 0)
  | 5, 2 => if bit d 63 then 0 else d
  | _, _ => 0

/-- AUX of an event's record. -/
def State.recAux (s : State) (g u k : Nat) (d : W64) : List Byte :=
  match g, k with
  | 2, _ => (match frameOf d with | some (set, way, _) => leBytes 2 set ++ leBytes 2 way | none => [])
  | 3, 2 => leBytes 2 (s.lg (u - 20)).modules.toNat
  | 7, 1 => leBytes 2 u
  | 7, 2 => leBytes 2 (bits d 15 0)
  | 8, _ =>
    let m := s.modl u
    let n := match m.id with | some i => i.serial.toNat | none => m.lastSerial.toNat
    leBytes 16 n ++ leBytes 4 m.hours.toNat
  | 9, _ => leBytes 2 (bits d 27 16) ++ leBytes 2 (bits d 15 0)
  | 10, 0 => leBytes 1 (u - 1) ++ leBytes 2 (bits d 15 0)
  | 11, _ => leBytes 2 (if u ≥ 64 then u - 64 else u) ++ leBytes 2 (bits d 15 0)
  | _, _ => []

/-- The record of an event, of the class and with the fields of Table 15-6. count is the lines that a cache poisoned. -/
def State.eventRec (s : State) (g u k : Nat) (rail : Bool) (oclk d : W64) (count : Nat) : Rec :=
  { cls := (recClass g).getD 0, grp := g, kind := k, sev := 0, unit := u, rail := rail, promoted := false, dust := false, oclk := oclk,
    addr := recAddr g k d, code := recCode g k d,
    count := match g, k with
      | 3, 3 => bits d 31 0
      | 5, 3 => bits d 31 0
      | 2, _ => count
      | _, _ => 0,
    aux := s.recAux g u k d }

/-- An event's record is written, where its group has a class; a rail fault's own source writes none. -/
def State.logEvent (s : State) (r : Rec) : State := if (recClass r.grp).isSome ∧ r.kind ≠ 7 then s.offer r none else s

/-! ### Promotion (R402, R403) -/

/-- The count of a series whose window has this number, after one more event. -/
def bump (win : W64) (cnt : Nat) (w : Nat) : W64 × Nat :=
  if win.toNat = w then (win, cnt + 1) else (BitVec.ofNat 64 w, 1)

/-- An event counts in one window of each series, and the count that reaches N promotes its source one class, up to CEIL; both counts
then restart. The class, whether this event promoted it, and the source. -/
def promote (sev : W64) (oclk : Nat) (x : SrcState) : Nat × Bool × SrcState :=
  let base := bits sev 2 0
  let cls := base + x.raised
  let n := bits sev 23 16
  let k := bits sev 13 8
  if n = 0 then (cls, false, x)
  else
    let a := bump x.winA x.cntA (oclk / 2 ^ k)
    let b := bump x.winB x.cntB ((oclk + 2 ^ (k - 1)) / 2 ^ k)
    if a.2 ≥ n ∨ b.2 ≥ n then
      let up := decide (cls < bits sev 6 4)
      (if up then cls + 1 else cls, up, { x with
        winA := a.1, winB := b.1, cntA := 0, cntB := 0, raised := if up then x.raised + 1 else x.raised })
    else (cls, false, { x with winA := a.1, winB := b.1, cntA := a.2, cntB := b.2 })

/-! ### Reactions (R405 to R407) -/

/-- Whether a source's unit is under a dust sheet (R400): a port that died of itself is not, until its own event has been taken. -/
def State.covered (s : State) (g u : Nat) : Bool :=
  s.goneWithRegion g u || (match dustUnitOf g u with
    | none => false
    | some v => (match v with | .memPort _ => s.dusted v | w => s.ownSheet w) || underAny s.ownSheet v)

/-- The unit for which a waiting command orders a dust sheet in an OCLK cycle: an event of class FENCE, or a grace timer whose error is
still there. -/
def State.ordersSheet (s : State) (oclk : W64) (c : Instr) : Option DustUnit :=
  let ask : Src → Bool → Option DustUnit := fun src yes =>
    if yes && !s.covered src.g.toNat src.u.toNat then dustUnitOf src.g.toNat src.u.toNat else none
  match c with
  | .faultSourceEvent src rails at' _ =>
    ask src (rails != 1 && srcUnit src.g.toNat src.u.toNat && at' == oclk &&
      (promote (s.sev src.g.toNat src.k.toNat) oclk.toNat (s.srcSt src.g.toNat src.u.toNat src.k.toNat)).1 == 3)
  | .graceTimerExpiry src =>
    let x := s.srcSt src.g.toNat src.u.toNat src.k.toNat
    ask src (x.grace && x.level && bits (s.sev src.g.toNat src.k.toNat) 55 32 != 0 && s.flt.oclk == oclk)
  | _ => none

/-- Whether a unit in which another stands is ordered under a dust sheet in the same OCLK cycle: the higher level wins, and the lower
unit's dust sheet is not ordered by itself (R411). Events of one cycle are those that wait with its count (notes/assumptions 67). -/
def State.higherComes (s : State) (u : DustUnit) (oclk : W64) : Bool :=
  s.pending.any (fun c => match s.ordersSheet oclk c with | some v => underAny (fun w => decide (w = v)) u | none => false)

/-- The FENCE of a source: its unit takes a dust sheet; a domain's switch failure takes the domain down and dust-sheets its units; any
other unit is handled as DEVICE. -/
def State.fence (s : State) (g u k : Nat) (d : W64) (i : Rec) : State :=
  match dustUnitOf g u with
  | some v =>
    if s.higherComes v i.oclk then s
    else if g = 3 ∧ k = 3 then s.dustUnit v (if bits d 35 32 = 0 then 1 else bits d 35 32) (bits d 31 0) i
    else s.dustUnit v 9 0 i
  | none =>
    let i4 := { i with sev := 4 }
    if g = 11 ∧ k = 3 ∧ 64 ≤ u ∧ u < 114 then
      let us := domUnits (u - 64)
      let s1 := (s.forceDown (u - 64) 4).each us.1 (fun t v => t.dustUnit v 8 0 i)
      if us.2 then (s1.logEvent i4).chipReaction g u k 4 else s1
    else (s.logEvent i4).chipReaction g u k 4

/-- A CORRECTED event is counted, and its record written when CORR_REC is 1. -/
def State.correctedEvent (s : State) (g u k : Nat) (i : Rec) : State :=
  let x := s.srcSt g u k
  let n := (satAdd x.corrected 1).toNat
  if bit s.snag.ctl 2 then
    (s.setSrc g u k { x with corrected := 0 }).offer
      { i with cls := 15, addr := 0, code := k * 2 ^ 20 + g * 2 ^ 16 + u, count := n, aux := [] } none
  else s.setSrc g u k { x with corrected := BitVec.ofNat 32 n }

/-- The reaction to an event of a class; a sensor at 110 °C trips whatever its class is (R409). -/
def State.react (s : State) (g u k cls : Nat) (d : W64) (i : Rec) : State :=
  let t := match cls with
    | 0 => s.logEvent i
    | 1 => s.correctedEvent g u k i
    | 2 => (s.logEvent i).setSrc g u k { (s.logEvent i).srcSt g u k with grace := true }
    | 3 => s.fence g u k d i
    | c =>
      let s1 := (s.logEvent i).chipReaction g u k c
      if g = 13 ∧ u = 0 ∧ c = 5 then s1.takeover 2 else s1
  if g = 11 ∧ k = 1 then t.thermtrip else t

/-- Whether the reports of a source's unit go to the running test (R412). -/
def State.inTest (s : State) (g u : Nat) : Bool :=
  match s.flt.makeGood with
  | none => false
  | some m => match dustUnitOf g u with
    | some v => decide (v = m.u) || underAny (fun w => decide (w = m.u)) v
    | none => (match m.u with
      | .region r => (g == 2 && u == r.val) || (g == 6 && u == r.val) || (g == 3 && (u - 20) / 2 == r.val)
      | _ => false)

/-- The test learns of an error that a unit showed. -/
def State.testSees (s : State) (g u : Nat) : State :=
  match s.flt.makeGood, dustUnitOf g u with
  | some m, some v => { s with flt := { s.flt with makeGood := some { m with seen := m.seen.filter (fun w => w != v) ++ [v] } } }
  | _, _ => s

/-- An adder of a collective engine has failed its residue check. Kind 0: the element was recomputed, and is right. Kind 1: it failed
again, and the collective that the detail names fails there: an endpoint writes the sector of RBUF poisoned, from the byte offset in
[63:32], and a tree node frees its slots and refuses the SEQ (13_collectives_and_hawk_store.md R356, R357, notes/assumptions 38). -/
def State.residueEvent (s : State) (r k : Nat) (d : W64) : State :=
  let c := s.ceng r
  let g := bits d 27 16
  let seq : W16 := BitVec.ofNat 16 (bits d 15 0)
  if k = 0 then s.setCeng r { c with retried := satAdd c.retried 1 }
  else if k = 1 then
    let s1 := s.setCeng r { c with retried := satAdd c.retried 1, failed := satAdd c.failed 1 }
    let s2 := s1.each (c.nodes.filter (fun x => x.group == g && decide (x.seq = seq) && !x.failed && !x.timedOut)) (fun t x =>
      (t.freeSlots r g seq x.role).updNode r g seq x.role (fun y => { y with failed := true, waiting := [] }))
    let o := bits d 63 32 / 64 * 64
    s2.updMember r g seq (fun m => if m.way = .fallback then { m with poisonAt := some (Nat.min o (m.poisonAt.getD o)) } else m)
  else s

/-- An event of a source reaches the collector. -/
def State.faultEvent (s0 : State) (g u k : Nat) (rail : Bool) (oclk d : W64) : State :=
  let s := s0.setSrc g u k { s0.srcSt g u k with level := true, detail := d }
  if s.inTest g u then s.testSees g u
  else
    let s1 := s.stick g u k
    if s1.covered g u then s1
    else
      let f := if g = 9 then (0, s1.residueEvent u k d) else s1.frameError g u k d
      let s2 := if g = 0 ∧ k = 0 then
          let b := u / 17
          let c := (f.2.blk b).cell (u % 17)
          f.2.setBlk b ((f.2.blk b).setCell (u % 17) { c with corrected := satAdd c.corrected 1 })
        else f.2
      let p := promote (s2.sev g k) oclk.toNat (s2.srcSt g u k)
      let s3 := s2.setSrc g u k p.2.2
      let s4 : State := if p.2.1 then { s3 with flt := { s3.flt with
        promoted := Tab.set 0 s3.flt.promoted g (satAdd (Tab.get 0 s3.flt.promoted g) 1) } } else s3
      let i := { s4.eventRec g u k rail oclk d f.1 with sev := p.1, promoted := p.2.1 }
      s4.react g u k p.1 d i

/-- FAULT_SOURCE_EVENT: a source's pair first shows error (R397 to R407); rails is (T, C), of which (0, 1) is no error, and both alike a
rail fault, which is an event of kind 7 of the unit as well. A cell of STATE 3 reports nothing (R410). -/
def execFaultSourceEvent (src : Src) (rails : BitVec 2) (oclk detail : W64) (s : State) : Host.Outcome State Fault Refusal :=
  let g := src.g.toNat
  let u := src.u.toNat
  let rail := rails == 0 || rails == 3
  .next (if rails = 1 ∨ srcUnit g u = false ∨ (g = 0 ∧ ((s.blk (u / 17)).cell (u % 17)).state.toNat = 3) then s
    else
      let s1 := s.faultEvent g u src.k.toNat rail oclk detail
      if rail ∧ src.k ≠ 7 then s1.faultEvent g u 7 true oclk 0 else s1)

/-- FAULT_SOURCE_CLEARED: a source shows no error any more; its grace timer stops (R405). -/
def execFaultSourceCleared (src : Src) (s : State) : Host.Outcome State Fault Refusal :=
  let x := s.srcSt src.g.toNat src.u.toNat src.k.toNat
  .next (s.setSrc src.g.toNat src.u.toNat src.k.toNat { x with level := false, grace := false })

/-- GRACE_TIMER_EXPIRY: a source still shows error at the end of its grace time, and is escalated to FENCE for this event (R405). -/
def execGraceTimerExpiry (src : Src) (s : State) : Host.Outcome State Fault Refusal :=
  let g := src.g.toNat
  let u := src.u.toNat
  let k := src.k.toNat
  let x := s.srcSt g u k
  .next (if x.grace = false ∨ bits (s.sev g k) 55 32 = 0 then s
    else
      let s1 := s.setSrc g u k { x with grace := false }
      if x.level = false ∨ s1.covered g u ∨ s1.inTest g u then s1
      else s1.fence g u k x.detail { s1.eventRec g u k (k == 7) s1.flt.oclk x.detail 0 with sev := 3 })

/-! ### Supervision (R417) -/

/-- HEARTBEAT_TIMEOUT: FLT_HB has not changed for 10 ms, after it had changed since the start. -/
def execHeartbeatTimeout (s : State) : Host.Outcome State Fault Refusal := .next (if s.flt.hbSeen then s.takeover 1 else s)

/-- LOCKUP_TIMEOUT: the site processor has retired nothing for 1 ms while it was not sleeping, in its firmware or in its boot ROM
(16_stolpel_and_events.md R439). -/
def execLockupTimeout (s : State) : Host.Outcome State Fault Refusal := .next (s.takeover 3)

/-- FIRMWARE_HEARTBEAT: running firmware advances FLT_HB (16_stolpel_and_events.md R439). -/
def execFirmwareHeartbeat (s : State) : Host.Outcome State Fault Refusal :=
  .next (if s.mail.fw = .running ∧ s.hpt.fallback = false ∧ s.domOn 1 = true then { s with flt := { s.flt with hb := s.flt.hb + 1, hbSeen := true } } else s)

/-! ### The snag queue's registers (R414, R416) -/

/-- Records that wait are written while the ring has room. -/
def State.drainSnag (s : State) : State := s.snagDrain s.snag.waits.length

/-- A write of SNAG_CTL: a rise of EN starts the ring anew; while EN is 1, SIZE and LOC stay. A reserved SIZE leaves the field. -/
def State.writeSnagCtl (s : State) (v : W32) : State :=
  let old := s.snag.ctl
  let free := !bit old 0
  let size := if !free ∨ bits v 7 3 < 10 ∨ bits v 7 3 > 20 then bits old 7 3 else bits v 7 3
  let loc := if free then bit v 1 else bit old 1
  let new : W32 := BitVec.ofNat 32 (size * 8 + b2n (bit v 2) * 4 + b2n loc * 2 + b2n (bit v 0))
  let s1 : State := { s with snag := { s.snag with ctl := new } }
  if free ∧ bit v 0 then
    let n := 64 * 2 ^ size
    let s2 : State := { s1 with snag := { s1.snag with
      pi := 0, ci := 0, phase := true, ringBase := BitVec.ofNat 64 (s1.snag.base.toNat / n * n), ringSize := size, ringHost := loc } }
    s2.drainSnag
  else s1.drainSnag

/-- SNAG_RECORD_WRITE: the oldest waiting records are written to the ring while it has room (R414, R416). -/
def execSnagRecordWrite (s : State) : Host.Outcome State Fault Refusal := .next s.drainSnag

/-- SNAG_ENABLE: SNAG_CTL is written (R414). -/
def execSnagEnable (v : W32) (s : State) : Host.Outcome State Fault Refusal := .next (s.barWrite 0 0x120008 (fun t => t.writeSnagCtl v))

/-- A write of SNAG_IDX.CI; one at or above the ring's size is ignored. -/
def State.writeSnagCi (s : State) (ci : BitVec 20) : State :=
  if ci.toNat ≥ 2 ^ bits s.snag.ctl 7 3 then s else ({ s with snag := { s.snag with ci := ci } }).drainSnag

/-- SNAG_CI_WRITE: the driver has read records, and space frees (R416). -/
def execSnagCiWrite (ci : BitVec 20) (s : State) : Host.Outcome State Fault Refusal :=
  .next (s.barWrite 0 0x120018 (fun t => t.writeSnagCi ci))

/-! ### MAKE_GOOD's outcome (R412, R413; 08_memory_stacks.md R226) -/

/-- Whether a source of a unit shows error. -/
def State.showsError (s : State) (u : DustUnit) : Bool :=
  s.flt.src.any (fun e => e.2.level && dustUnitOf (e.1 / 2 ^ 19) (e.1 % 2 ^ 19 / 8) == some u) ||
    (match s.flt.makeGood with | some m => m.seen.any (fun v => decide (v = u)) | none => false)

/-- The sources of a unit take their FLT_SEV classes, and their counts restart. -/
def State.calmSources (s : State) (u : DustUnit) : State :=
  { s with flt := { s.flt with src := s.flt.src.map (fun e =>
    if dustUnitOf (e.1 / 2 ^ 19) (e.1 % 2 ^ 19 / 8) = some u
    then (e.1, { e.2 with raised := 0, cntA := 0, cntB := 0, winA := 0, winB := 0, grace := false }) else e) } }

/-- A unit leaves those under a dust sheet. -/
def State.unsheet (s : State) (u : DustUnit) : State :=
  { s with flt := { s.flt with dust := s.flt.dust.filter (fun v => v != u) } }

/-- The physical cells of a block that a block's test finds good: fused-off ones stay out. -/
def State.goodCells (s : State) (b : Nat) (bad : List DustUnit) : List Nat :=
  (List.range 17).filter (fun p =>
    let u : DustUnit := .cell (Fin.ofNat 100 b) (Fin.ofNat 17 p)
    ((s.blk b).cell p).state.toNat != 3 && !(bad.any (fun v => decide (v = u))) && !s.showsError u)

/-- How many logical numbers of a block have a physical cell, given the good ones: the spare stands in for one. -/
def logicalCount (good : List Nat) : Nat := Nat.min 16 good.length

/-- The cell map of a block rebuilt from its good cells (R95): the spare covers the lowest cell that is out, and LOST names the
next. -/
def Block.rebuild (x : Block) (good : List Nat) : Block :=
  let out := (List.range 16).filter (fun p => !(good.any (fun g => g == p)))
  let spare := good.any (fun g => g == 16)
  let cover := if spare then out.head? else none
  let left := if spare then out.drop 1 else out
  let y := (List.range 17).foldl (fun (w : Block) p =>
    let c := w.cell p
    if c.state.toNat = 3 then w
    else if good.any (fun g => g == p) then w.setCell p { c.spoiled with state := if p = 16 ∧ cover.isNone then 1 else 0 }
    else w.setCell p { c.spoiled with state := 2 }) x
  let z : Block := { y with
    spareFor := match cover with | some p => BitVec.ofNat 5 p | none => 31, spareUsed := cover.isSome, spareHad := 31, back := [], lostNow := [],
    lost := match left with | p :: _ => BitVec.ofNat 5 p | [] => 31 }
  { z with mapSpare := z.spareFor, mapLost := z.lost, cellsN := if left = [] then 16 else 15 }.renumber

/-- A block returns from its dust sheet: IDLE, or OFF while its domain is gated or off (R413). -/
def State.blockBack (s : State) (b : Nat) (bad : List DustUnit) : State :=
  let s1 := s.each (List.range 5) (fun t r => t.reclaimBlock r b)
  let good := s1.goodCells b bad
  let x := (s1.blk b).rebuild good
  let s2 := s1.setBlk b { x with store := Memory.empty, lastPasid := none, task := none, reserved := none, mode := s1.modeOf (regionOf b),
                                 state := if s1.domOn (computeDom b) then .idle else .off }
  let cells := (List.range 17).map (fun p => (.cell (Fin.ofNat 100 b) (Fin.ofNat 17 p) : DustUnit))
  let s3 := (s2.setBc b BCache.init).unsheet (.block (Fin.ofNat 100 b))
  s3.each cells (fun t u => t.calmSources u)

/-- Whether a block's own test passes. -/
def State.blockGood (s : State) (b : Nat) (bad : List DustUnit) : Bool :=
  let u : DustUnit := .block (Fin.ofNat 100 b)
  !(bad.any (fun v => decide (v = u))) && !s.showsError u && decide (logicalCount (s.goodCells b bad) ≥ 15)

/-- Every sector that the map places at a port becomes poisoned. -/
def State.poisonPort (s : State) (mp : Nat) : State :=
  let here : Nat → Bool := fun k => match s.place (64 * k) with | some p => p.port == mp | none => false
  s.setBacking false (((List.range (allMem / 64)).filter here).foldl (fun (t : Memory) k => t.setBad k true) s.stk.mem)

/-- A memory port is in service again, its link group retrained when it had no module left. -/
def State.portServes (s : State) (mp : Nat) : State :=
  let s1 := (s.unsheet (.memPort (Fin.ofNat 20 mp))).setMport mp { s.mport mp with state := 2, cause := 0, reqs := [], ready := [] }
  let x := s1.lg (mp / 2)
  if x.modules = 0 then s1.setLg (mp / 2) { x with modules := 0x3FF, training := false, retrains := satAdd x.retrains 1 } else s1

/-- A memory port returns to service under the map in force, with every sector poisoned (08_memory_stacks.md R226). -/
def State.portBack (s : State) (mp : Nat) : State := (s.portServes mp).poisonPort mp

/-- Whether a memory port's test may pass: a far port's near base die must not be dead. -/
def State.nearAlive (s : State) (mp : Nat) : Bool :=
  let near := s.mport (mp - 1)
  mp % 2 == 0 || !((near.state == 3 || near.state == 4) && near.cause.toNat == 3)

/-- What a unit in a region returns with: its own outcome decides. -/
def State.innerBack (s : State) (u : DustUnit) (bad : List DustUnit) (f : State → State) : State :=
  if bad.any (fun v => decide (v = u)) || s.showsError u then s else (f s).calmSources u

/-- A region returns from its dust sheet (R413): each block, port and engine as its own test says. Its host share moves back: the other
regions give up what they held of it first (07_caches_and_coherence.md R179). -/
def State.regionBack (s0 : State) (r : Nat) (bad : List DustUnit) : State :=
  let after := s0.unsheet (.region (Fin.ofNat 5 r))
  let mine : LineId → Bool := fun l => l.host && after.home l == some r
  let others := (List.range 5).filter (fun q => q != r)
  let again := others.flatMap (fun q => s0.strays q mine)
  let s := s0.each others (fun t q => t.giveShare q mine)
  let walked := !(s.flt.noWalk.any (fun x => x == r))
  let c := s.rc r
  let s1 := (s.unsheet (.region (Fin.ofNat 5 r))).setRc r { RCache.init with
    ctl := c.ctl, waydis := c.waydis, hlost := c.hlost, poisoned := c.poisoned, hostDead := c.hostDead, evict := c.evict }
  let s2 := s1.each (List.range 4) (fun t j =>
    let mp := 4 * r + j
    let p := t.mport mp
    if p.state = 3 ∧ t.nearAlive mp then
      t.innerBack (.memPort (Fin.ofNat 20 mp)) bad (fun u => if walked ∧ p.cause = 6 then u.portServes mp else u.portBack mp)
    else t)
  let s3 := s2.each [2 * r, 2 * r + 1] (fun t p => t.innerBack (.netPort (Fin.ofNat 10 p)) bad (fun u => u.unsheet (.netPort (Fin.ofNat 10 p))))
  let s4 := s3.innerBack (.collective (Fin.ofNat 5 r)) bad (fun u => u.unsheet (.collective (Fin.ofNat 5 r)))
  let s5 := s4.each (blocksOf r) (fun t b =>
    if t.blockGood b bad then (t.blockBack b bad).calmSources (.block (Fin.ofNat 100 b))
    else (t.sheet (.block (Fin.ofNat 100 b))).setBlk b { t.blk b with state := .dustsheet })
  ({ s5 with flt := { s5.flt with noWalk := s5.flt.noWalk.filter (fun x => x != r) } } : State).sendOn again

/-- Whether the test of a unit passes, by what the test itself found and by what the unit's sources show (R412). -/
def State.testPasses (s : State) (u : DustUnit) (passed : Bool) (bad : List DustUnit) : Bool :=
  passed && !s.showsError u && (match u with
    | .block b => s.blockGood b.val bad
    | .memPort p => s.nearAlive p.val
    | _ => true)

/-- A unit that passed its test returns to service. -/
def State.unitBack (s : State) (u : DustUnit) (bad : List DustUnit) : State :=
  let t := match u with
    | .cell b p =>
      let x := s.blk b.val
      s.setBlk b.val { x.setCell p.val { (x.cell p.val).spoiled with state := 2 } with back := x.back.filter (fun k => k != p.val) ++ [p.val] }
    | .block b => s.blockBack b.val bad
    | .region r => s.regionBack r.val bad
    | .memPort p => s.portBack p.val
    | v => s.unsheet v
  t.calmSources u

/-- MAKE_GOOD_TEST_COMPLETE: the test of a unit ends (R413): with step, what failed, and bad, the units in it that failed. Either outcome
writes a record, and ends the background command. -/
def execMakeGoodTestComplete (u : DustUnit) (passed : Bool) (step : Byte) (bad : List DustUnit) (s : State) :
    Host.Outcome State Fault Refusal :=
  .next (match s.flt.makeGood with
    | none => s
    | some m =>
      if m.u ≠ u then s
      else
        let ok := s.testPasses u passed bad
        let n := dustNum u
        let walked := match u with | .region r => !(s.flt.noWalk.any (fun x => x == r.val)) | _ => false
        let s1 := if ok then s.unitBack u bad else s
        let s2 : State := { s1 with flt := { s1.flt with makeGood := none }, mail := { s1.mail with
          bg := s1.mail.bg.map (fun g => if g.kind = .makeGood
            then { g with result := some (if ok then (0, 0) else (2, 5)), step := if ok then 0 else step.setWidth 32 } else g) } }
        let base := s2.plainRec (match u with | .region _ => 7 | _ => 6) n.2 0 (if ok then 2 else 3 + step.toNat * 256) 0 (match u with
          | .cell b _ => (s2.blk b.val).mapBytes
          | .block b => (s2.blk b.val).mapBytes
          | .region _ => [if walked then 1 else 0]
          | _ => [])
        (s2.offer { base with grp := n.1, kind := 0, dust := true } none).drainSnag)

end Sys2Proof.Machine
end

