-- ==== Sys2Proof/Machine/Queues.lean ====
section
/-! DEFINITION. The queue front-end at work: doorbells, fetching, the commands that it runs itself, completion, MODESET and queue control
(11_queues_and_copy.md R286 to R302). -/
namespace Sys2Proof.Machine

/-! ### Doorbells and fetching (R293, R294) -/

/-- A doorbell gives a queue its producer index: one beyond the ring sets DB_ERR, and stops the queue. -/
def State.doorbell (s : State) (q : Nat) (pi : W16) : State :=
  if pi.toNat ≥ (s.q q).size then s.stopQ q 3 else s.setQ q { s.q q with pi := pi }

/-- QUE_DOORBELL: a write of a queue's doorbell page (R293), recorded in D3hot too (17_power_clocks_startup.md R463). -/
def execQueDoorbell (q : Fin 1024) (pi : W32) (s : State) : Host.Outcome State Fault Refusal :=
  .next (if s.hpt.flr then s
    else if s.domOn 2 then s.doorbell q.val (pi.setWidth 16) else s.hostLog 2 (q.val * 4096))

/-- DESCRIPTOR_FETCH: the slot at a queue's CI is read (R293). -/
def execDescriptorFetch (q : Fin 1024) (s : State) : Host.Outcome State Fault Refusal :=
  .next (if s.fetches q.val ∧ (s.q q.val).rereads = 0 then s.readSlot q.val else s)

/-- STALE_REREAD: a stale slot is read again (R294). -/
def execStaleReread (q : Fin 1024) (s : State) : Host.Outcome State Fault Refusal :=
  .next (if s.fetches q.val ∧ (s.q q.val).rereads > 0 then s.readSlot q.val else s)

/-! ### NOP and KLAUNCH (R289, R290; 04_blocks_and_threads.md R100) -/

/-- NOP_COMMAND: completes at once. -/
def execNopCommand (q : Fin 1024) (slot : W16) (s : State) : Host.Outcome State Fault Refusal :=
  .next (s.startCmd q.val slot.toNat 0 (fun t _ _ => t.updCmd q.val slot.toNat (Cmd.ended 0 0)))

/-- The kernel that a KLAUNCH descriptor describes (Table 11-2). -/
def kernelOf (q slot : Nat) (pasid : BitVec 20) (d : BitVec 512) : Kernel :=
  let f := dfield d
  { q := q, slot := slot, prog := BitVec.ofNat 64 (f 16 8), args := BitVec.ofNat 64 (f 24 8), gx := f 32 2 + 1, gy := f 34 2 + 1,
    gz := f 36 2 + 1, threads := bits d 310 304 + 1, rmask := BitVec.ofNat 5 (f 39 1), cwmask := BitVec.ofNat 8 (f 40 1),
    tlimit := BitVec.ofNat 32 (f 48 4), pasid := pasid, mode := none, next := 0, blocks := [], aborted := false, status := none, info := 0,
    lostBlocks := 0 }

/-- KLAUNCH: a kernel is launched; its tasks are then placed (R100). -/
def execKlaunch (q : Fin 1024) (slot : W16) (s : State) : Host.Outcome State Fault Refusal :=
  let n := slot.toNat
  .next (s.startCmd q.val n 1 (fun t x c =>
    let ks := t.blocks.kernels.filter (fun k => !(k.q == q.val && k.slot == n))
    let u : State := { t with blocks := { t.blocks with kernels := ks ++ [kernelOf q.val n x.pasid c.desc] } }
    u.runCmd q.val n))

/-! ### SIGNAL and WAIT (R296, R297) -/

/-- ADDR of a SIGNAL or WAIT. -/
def Cmd.semAddr (c : Cmd) : W64 := BitVec.ofNat 64 (dfield c.desc 16 8)
/-- VALUE of a SIGNAL or WAIT. -/
def Cmd.semValue (c : Cmd) : W64 := BitVec.ofNat 64 (dfield c.desc 24 8)
/-- Whether a SIGNAL writes the maximum. -/
def Cmd.semMax (c : Cmd) : Bool := bit c.desc 256
/-- COND of a WAIT. -/
def Cmd.cond (c : Cmd) : Nat := bits c.desc 257 256

/-- Whether a target in host memory waits for bus mastering. -/
def State.hostHeld (s : State) (g : Target) : Bool := match g with | .host _ => !s.busMaster | _ => false

/-- A running SIGNAL sends its far atomic, once its semaphore is translated and, in host memory, bus mastering is on. -/
def State.sendSignal (s : State) (q slot : Nat) (c : Cmd) : State :=
  match s.semAt q slot (s.q q).pasid c.semAddr true c.tries with
  | .wait t => t
  | .bad st info t => t.updCmd q slot (Cmd.ended st info)
  | .at' g t => if t.hostHeld g then t else t.semSend q slot g c.semMax c.semValue

/-- SIGNAL: a far atomic on the semaphore, whose answer is waited for (R296); one that could not send it yet tries again. -/
def execSignal (q : Fin 1024) (slot : W16) (s : State) : Host.Outcome State Fault Refusal :=
  let n := slot.toNat
  .next (match s.cmd q.val n with
    | none => s
    | some c =>
      if c.op = 4 ∧ c.stat = .running then (if c.asked ∨ s.hpt.flr then s else s.sendSignal q.val n c)
      else s.startCmd q.val n 4 (fun t _ c => (t.runCmd q.val n).sendSignal q.val n c))

/-- A WAIT has read its semaphore (R297). -/
def State.judgeWait (s : State) (q slot : Nat) (c : Cmd) (v : W64) : State :=
  let s1 := s.updCmd q slot (fun y => { y with val := v, read := true, asked := false })
  if semMeets c.cond v c.semValue then s1.updCmd q slot (Cmd.ended 0 0) else s1

/-- A WAIT that has asked for its semaphore is judged once the value has come; a failed read ends it. -/
def State.judgeAsked (s : State) (q slot : Nat) : State :=
  match s.cmd q slot with
  | none => s
  | some c =>
    if !c.asked || decide (c.left > 0) then s
    else if c.first.isSome then s.updCmd q slot (Cmd.ended 0 0)
    else s.judgeWait q slot c c.val

/-- A WAIT reads its semaphore with a non-caching coherent read at its home, or with a remote read (R297). -/
def State.lookWait (s : State) (q slot : Nat) (c : Cmd) : State :=
  match s.semAt q slot (s.q q).pasid c.semAddr false c.tries with
  | .wait t => t
  | .bad st info t => t.updCmd q slot (Cmd.ended st info)
  | .at' g t =>
    let u := t.updCmd q slot (fun y => { y with left := 1, asked := true })
    match g with
    | .remote d off => u.netSend d.toNat (.sem q slot) [readPkt off 8]
    | _ => (u.toUnit g (.sem q slot) (fun off => .read 0 off 8)).judgeAsked q slot

/-- WAIT: waits until the semaphore meets the condition (R297). -/
def execWait (q : Fin 1024) (slot : W16) (s : State) : Host.Outcome State Fault Refusal :=
  let n := slot.toNat
  .next (s.startCmd q.val n 5 (fun t _ c => (t.runCmd q.val n).lookWait q.val n c))

/-- WAIT_REREAD: a running WAIT reads its semaphore again, or judges what another device has answered (R297). -/
def execWaitReread (q : Fin 1024) (slot : W16) (s : State) : Host.Outcome State Fault Refusal :=
  let n := slot.toNat
  .next (match s.cmd q.val n with
    | none => s
    | some c =>
      if c.op ≠ 5 ∨ c.stat ≠ .running ∨ s.hpt.flr then s
      else if c.asked then s.judgeAsked q.val n
      else s.lookWait q.val n c)

/-- WAIT_TIMEOUT: a running WAIT's time has passed: TIMEOUT, with the value last read; before any was read, a free one (R297). -/
def execWaitTimeout (q : Fin 1024) (slot : W16) (s : State) : Host.Outcome State Fault Refusal :=
  let n := slot.toNat
  .next (match s.cmd q.val n with
    | none => s
    | some c =>
      if c.op ≠ 5 ∨ c.stat ≠ .running ∨ dfield c.desc 36 4 = 0 then s
      else if c.read then s.updCmd q.val n (Cmd.ended 6 c.val)
      else (s.updCmd q.val n (Cmd.ended 6 s.freeVal)).took 1)

/-! ### FLUSH (R299) -/

/-- The device lines of a FLUSH of KIND 1. -/
def Cmd.inRange (c : Cmd) (line : Nat) : Bool :=
  let start := dfield c.desc 24 8
  let len := dfield c.desc 32 8
  len == 0 || (decide (start ≤ line * 256) && decide (line * 256 < start + len))

/-- The write-backs of a FLUSH start. -/
def State.flushCmd (s : State) (c : Cmd) : State :=
  match dfield c.desc 16 1 with
  | 1 => s.each (List.range 5) (fun t r => t.each (t.rc r).lines (fun u k =>
      if (lineAt k.1).host || !c.inRange (lineAt k.1).line.toNat then u else u.recallClean r (lineAt k.1)))
  | 2 => s.each (List.range 5) (fun t r => t.each (t.rc r).lines (fun u k => match k.2 with
      | some e => if e.host && e.dirty != 0 then u.giveUp r (lineAt k.1) else u
      | none => u))
  | _ => s

/-- Whether the write-backs of a FLUSH have been made and acknowledged. -/
def State.flushDone (s : State) (c : Cmd) : Bool :=
  let clear : StackOp → Bool := fun op => match op with | .wr line _ _ _ => !c.inRange line | _ => true
  let open' : HReq → (LineId → Bool) → Bool := fun q p => (List.range 5).any (fun r => (s.rc r).txns.any (fun x =>
    p (lineAt x.line) && (x.req :: x.queued).any (fun y => y == q)))
  match dfield c.desc 16 1 with
  | 1 => (List.range 20).all (fun mp => (s.mport mp).reqs.all (fun r => clear r.op) && (s.mport mp).ready.all (fun r => clear r.2)) &&
      !(open' .clean (fun l => !l.host && c.inRange l.line.toNat))
  | 2 => (List.range 5).all (fun r => (s.rc r).evict.isEmpty) && !(open' .evict LineId.host)
  | _ => true

/-- FLUSH: writes back what its KIND names, once every earlier command has completed (R299). -/
def execFlush (q : Fin 1024) (slot : W16) (s : State) : Host.Outcome State Fault Refusal :=
  .next (s.startCmd q.val slot.toNat 6 (fun t _ c => (t.runCmd q.val slot.toNat).flushCmd c))

/-! ### MODESET (R300, R301) -/

/-- MODESET: prepares a change of mode, unless another one runs; it then waits (R300). -/
def execModeset (q : Fin 1024) (slot : W16) (s : State) : Host.Outcome State Fault Refusal :=
  let n := slot.toNat
  .next (s.startCmd q.val n 8 (fun t _ c =>
    if t.que.modeset.isSome then t
    else
      let m : ModeSet := { q := q.val, slot := n, mode := BitVec.ofNat 8 (dfield c.desc 16 1), scope := BitVec.ofNat 5 (dfield c.desc 20 1),
                           acked := [], lost := [] }
      let u : State := { t with que := { t.que with modeset := some m }, pwr := { t.pwr with transition := true, scope := m.scope } }
      u.runCmd q.val n))

/-- Whether a kernel that has placed a task holds a region's blocks back. -/
def State.heldBy (s : State) (r : Nat) : Bool :=
  s.blocks.kernels.any (fun k => k.next > 0 && k.rmask.getLsbD r && (!k.blocks.isEmpty || (!k.aborted && decide (k.next < k.total))))

/-- Whether a block takes part in a MODESET and has not answered. -/
def State.owesAck (s : State) (m : ModeSet) (b : Nat) : Bool :=
  m.scope.getLsbD (regionOf b) && (s.blk b).reserved.isNone && !(m.acked.any (fun x => x == b)) && !(m.lost.any (fun x => x == b))

/-- Whether a block acknowledges at once. -/
def State.outOfService (s : State) (b : Nat) : Bool := decide ((s.blk b).state = .off) || s.blockDust b

/-- MODESET_ACKNOWLEDGE: a block in scope, held back by no kernel, applies the new mode and acknowledges; one that is OFF or under a
dust sheet acknowledges at once (R300). -/
def execModesetAcknowledge (b : Fin 100) (s : State) : Host.Outcome State Fault Refusal :=
  let n := b.val
  .next (match s.que.modeset with
    | none => s
    | some m =>
      if s.owesAck m n = false then s
      else
        let ack : State → State := fun t => { t with que := { t.que with modeset := some { m with acked := m.acked ++ [n] } } }
        if s.outOfService n then ack s
        else if s.heldBy (regionOf n) ∨ (s.blk n).task.isSome then s
        else ack (s.setBlk n { s.blk n with mode := m.mode }))

/-- Whether every block in scope has acknowledged. -/
def State.allAcked (s : State) (m : ModeSet) : Bool :=
  (List.range 100).all (fun b => !s.owesAck m b || s.outOfService b)

/-- MODESET_COMMIT: every block in scope has acknowledged: the mode is in force, dispatch is released and the command ends: with
BLOCK_LOST when a block was lost (R300, R301). -/
def execModesetCommit (s : State) : Host.Outcome State Fault Refusal :=
  .next (match s.que.modeset with
    | none => s
    | some m =>
      if s.allAcked m = false then s
      else
        let s1 := s.each (ones m.scope) (fun t r => t.setMode r m.mode)
        let s2 := s1.each (List.range 100) (fun t b =>
          if m.scope.getLsbD (regionOf b) && (t.blk b).reserved.isNone then t.setBlk b { t.blk b with mode := m.mode } else t)
        let s3 : State := { s2 with que := { s2.que with modeset := none }, pwr := { s2.pwr with transition := false, scope := 0 } }
        match m.lost with
        | [] => s3.updCmd m.q m.slot (Cmd.ended 0 0)
        | b :: _ => s3.updCmd m.q m.slot (Cmd.ended 4 (BitVec.ofNat 64 (b * 256 + Nat.min m.lost.length 127))))

/-- MODESET_ACK_TIMEOUT: a block that could have acknowledged has not within 1 ms: it is placed under a dust sheet (R301). -/
def execModesetAckTimeout (b : Fin 100) (s : State) : Host.Outcome State Fault Refusal :=
  let n := b.val
  .next (match s.que.modeset with
    | none => s
    | some m =>
      if s.owesAck m n = false ∨ s.outOfService n ∨ s.heldBy (regionOf n) then s
      else
        let i := { s.plainRec 6 n 0 0 0 [] with grp := 1, kind := 4, sev := 3 }
        (s.dustBlock n i).report 1 n 4 0)

/-! ### Completion (R291, R292; 06_memory_ordering.md R166, R167) -/

/-- The write-combining lines that hold a kernel's stores start to drain. -/
def State.drainKernel (s : State) (q slot : Nat) : State :=
  s.each (List.range 5) (fun t r =>
    t.drainLines r ((t.wc r).filter (fun l => !l.out && l.who.any (fun e => e.2.kern == some (q, slot)))))

/-- Whether stores of a kernel are still on their way. -/
def State.kernelBusy (s : State) (q slot : Nat) : Bool :=
  let mine : Storer → Bool := fun k => k.kern == some (q, slot)
  (List.range 5).any (fun r => (s.wc r).any (fun l => l.who.any (fun e => mine e.2))) ||
    s.net.qp.any (fun x => (x.2.sent ++ x.2.unsent).any (fun y => y.own.kernels.any (fun k => k == (q, slot)))) ||
    s.coh.bc.any (fun e => e.2.out.any (fun x => x.kern == some (q, slot)))

/-- Whether no copy engine is left for a command's destination. -/
def State.noEngine (s : State) (c : Cmd) : Bool := match c.near with | some near => (s.engSet near).isEmpty | none => false

/-- The status and INFO with which a running command has come to its end, if it has. -/
def State.finished (s : State) (q : Nat) (c : Cmd) : Option (Byte × W64) :=
  match c.op with
  | 1 => (match s.kernel q c.slot with
    | none => some (c.first.getD (0, 0))
    | some k =>
      if (k.next ≥ k.total ∨ k.aborted) ∧ k.blocks = [] ∧ s.kernelBusy q c.slot = false
      then some (match k.status with | some st => (st, k.info) | none => (0, 0)) else none)
  | 4 => if c.asked ∧ c.left = 0 then some (c.first.getD (0, 0)) else none
  | 6 => if s.flushDone c then some (c.first.getD (0, 0)) else none
  | 2 =>
    let stop : Bool := match c.first with | some (st, _) => stopsCopy st | none => false
    if c.left = 0 ∧ (c.val.toNat ≥ c.total ∨ stop ∨ s.noEngine c)
    then some (c.first.getD (if c.val.toNat ≥ c.total then (0, if c.cvt then c.flags.setWidth 64 else 0) else (1, c.dst))) else none
  | 9 =>
    let stop : Bool := match c.first with | some (st, _) => stopsCopy st | none => false
    if c.left = 0 ∧ (c.val.toNat ≥ c.total ∨ stop ∨ s.noEngine c)
    then some (c.first.getD (if c.val.toNat ≥ c.total then (0, 0) else (1, c.dst))) else none
  | _ => none

/-- The completion record of a command (Table 11-3). -/
def Cmd.record (c : Cmd) (st : Byte) (info : W64) : List Byte :=
  leBytes 4 c.tag ++ leBytes 1 (bits c.desc 7 0) ++ leBytes 1 st.toNat ++ leBytes 2 c.slot ++ leBytes 8 info.toNat

/-- Bytes are written to device memory by one of the device's own engines; nothing is at an unpopulated or dead place. -/
def State.devWrite (s : State) (a : Nat) (bs : List Byte) : State :=
  if (s.place a).isNone || (s.deadDev a).isSome then s else s.cohWrite false a bs

/-- The unit that refused a command, as CODE of its record: group in [19:16], unit in [15:0]. -/
def State.refuser (s : State) (c : Cmd) : Nat :=
  if c.op = 3 then 9 * 2 ^ 16 + (match s.groupEntry (dfield c.desc 40 2) with | some e => (s.collEngine e).getD 0 | none => 0)
  else 10 * 2 ^ 16 + (dfield c.desc 16 2 + 1)

/-- What follows a command's record and CSEM: its event, its own snag record, and the queue's stop; the command is gone. -/
def State.closeCmd (s : State) (q : Nat) (c : Cmd) (st : Byte) : State :=
  let x := s.q q
  let s1 := if bit c.desc 9 then s.complEvent (if bit x.cfg 43 then some (bits x.cfg 42 32) else none) (q % 256) else s
  let s2 := if st = 0 then s1 else s1.offer (s1.plainRec 12 q 0 (if st = 11 then s1.refuser c else st.toNat) 0
    (leBytes 4 q ++ leBytes 4 c.slot ++ leBytes 4 c.tag)) none
  let s3 := if st = 0 ∨ st = 10 then s2 else s2.stopQ q 2
  let s4 := (s3.setQ q { s3.q q with cmds := (s3.q q).cmds.filter (fun y => y.slot != c.slot) }).forgetOnce (fun w => decide (w = .queue q c.slot))
  if c.op = 1 then { s4 with blocks := { s4.blocks with kernels := s4.blocks.kernels.filter (fun k => !(k.q == q && k.slot == c.slot)) } } else s4

/-- A command that has ended writes its record and signals its CSEM; what must wait waits (R291). A signal that fails is the command's
status from then on, in a snag record and for its queue (R292). -/
def State.completeCmd (s : State) (q : Nat) (c : Cmd) (st : Byte) (info : W64) : State :=
  let x := s.q q
  if c.recorded then (if c.left > 0 then s else s.closeCmd q c (match c.first with | some f => f.1 | none => st))
  else if x.cplHost ∧ s.hpt.hostLost then
    let t := s.hostStop q
    t.setQ q { t.q q with cmds := (t.q q).cmds.filter (fun y => y.slot != c.slot) }
  else if x.cplHost ∧ s.busMaster = false then s
  else
    let a := x.cplAddr c.slot
    let write : State → State := fun t => if x.cplHost then t.ioWrite a (c.record st info) false else t.devWrite a (c.record st info)
    if bit c.desc 10 ∧ st = 0 then
      match s.semAt q c.slot x.pasid c.csem true c.tries with
      | .wait t => t
      | .bad fs _ t => (write t).closeCmd q c fs
      | .at' g t =>
        if t.hostHeld g then s
        else
          let u := ((write t).updCmd q c.slot (fun y => { y with recorded := true, first := none })).semSend q c.slot g false 1
          match u.cmd q c.slot with
          | some y => if y.left > 0 then u else u.closeCmd q y (match y.first with | some f => f.1 | none => st)
          | none => u
    else (write s).closeCmd q c st

/-- What a running command still has to do goes on: a kernel without tasks drains its stores, and a copy hands out pieces. -/
def State.pushCmd (s : State) (q slot : Nat) : State :=
  match s.cmd q slot with
  | none => s
  | some c =>
    if c.stat ≠ .running ∨ s.hpt.flr then s
    else if c.op = 1 then (match s.kernel q slot with
      | some k => if k.blocks.isEmpty then s.drainKernel q slot else s
      | none => s)
    else if c.op = 2 ∨ c.op = 9 then s.goCopy q slot
    else s

/-- COMMAND_COMPLETION: a command all of whose effects stand completes (R291, R292); one of a reserved opcode that may start is malformed
(R289). One that a function-level reset has aborted writes no record. -/
def execCommandCompletion (q : Fin 1024) (slot : W16) (s : State) : Host.Outcome State Fault Refusal :=
  let n := slot.toNat
  let s1 := s.pushCmd q.val n
  .next (match s1.cmd q.val n with
    | none => s1
    | some c =>
      let ended : Option (Byte × W64) := match c.stat with
        | .waiting => if (c.op = 7 ∨ c.op > 10) ∧ s1.mayStart q.val c then some (7, 0) else none
        | .running => s1.finished q.val c
        | .done st info => some (st, info)
      match ended with
      | none => s1
      | some (st, info) =>
        if s.hpt.flr then s1
        else
          let t := if c.isDone then s1 else s1.updCmd q.val n (fun y => { y with stat := .done st info, asked := false, left := 0 })
          match t.cmd q.val n with
          | some d => t.completeCmd q.val d st info
          | none => t)

/-! ### Queue control (R302) -/

/-- A queue's control command is ignored, and CMD_REFUSED set. -/
def State.refuseQ (s : State) (q : Nat) : State := s.setQ q { s.q q with bits := setBit (s.q q).bits 5 true }

/-- ENABLE (Table 11-8); it is refused while the firmware does not run (16_stolpel_and_events.md R435). -/
def State.queEnable (s : State) (q : Nat) : State :=
  let x := s.q q
  if s.mail.fw ≠ .running then s.refuseQ q
  else match x.state with
    | .disabled => s.setQ q { x with state := .running }
    | .quiesced => s.setQ q { x with state := .running }
    | .quiescing => s.setQ q { x with bits := setBit x.bits 4 true }
    | .stopped => if bit x.bits 1 then s.refuseQ q else s.setQ q { x with state := .running, bits := x.bits &&& 0b110010#6 }
    | .running => s.refuseQ q

/-- QUIESCE (Table 11-8). -/
def State.queQuiesce (s : State) (q : Nat) : State :=
  match (s.q q).state with
  | .running => s.setQ q { s.q q with state := .quiescing }
  | _ => s.refuseQ q

/-- ABORT (Table 11-8). -/
def State.queAbort (s : State) (q : Nat) : State :=
  let go := (s.setQ q { s.q q with state := .quiescing }).abortCmds q 10
  match (s.q q).state with
  | .running => go
  | .quiescing => go
  | .stopped => if bit (s.q q).bits 1 then s.refuseQ q else go
  | _ => s.refuseQ q

/-- What still runs of a queue is abandoned and writes no record: its kernels are aborted, and go on under a number that no command
has; its pieces leave the engines. -/
def State.abandonCmds (s : State) (q : Nat) : State :=
  let s1 := s.abortCmds q 10
  let away : Nat → Nat → Nat := fun k slot => if k = q ∧ slot < 65536 then slot + 65536 else slot
  let kid : Storer → Storer := fun k => { k with kern := k.kern.map (fun x => (x.1, away x.1 x.2)) }
  let own : Own → Own := fun o => match o with | .drain ks => .drain (ks.map (fun k => (kid k.1, k.2))) | _ => o
  let sent : Sent → Sent := fun x => { x with own := own x.own }
  let s2 : State := { s1 with
   coh := { s1.coh with bc := s1.coh.bc.map (fun e =>
    (e.1, { e.2 with out := e.2.out.map (fun x => { x with kern := x.kern.map (fun k => (k.1, away k.1 k.2)) }) })) },
   net := { s1.net with qp := s1.net.qp.map (fun e => (e.1, { e.2 with sent := e.2.sent.map sent, unsent := e.2.unsent.map sent })) },
   blocks := { s1.blocks with
    kernels := s1.blocks.kernels.map (fun (k : Kernel) => { k with slot := away k.q k.slot }),
    blk := s1.blocks.blk.map (fun e => (e.1, { e.2 with task := e.2.task.map (fun t => { t with slot := away t.q t.slot }) })) } }
  let s3 := s2.each (List.range 5) (fun t r => t.setWc r ((t.wc r).map (fun (l : WLine) => { l with
    who := l.who.map (fun e => (e.1, kid e.2)) })))
  let s4 := s3.each (List.range 16) (fun t e => if (t.eng e).pieces.any (fun p => p.q == q)
    then t.setEng e { t.eng e with pieces := (t.eng e).pieces.filter (fun p => p.q != q) } else t)
  let s5 : State := match s4.que.modeset with
    | some m => if m.q = q
      then (s4.each m.acked (fun t b => t.setBlk b { t.blk b with mode := t.modeOf (regionOf b) })).setQ q (s4.q q) else s4
    | none => s4
  let s6 : State := match s5.que.modeset with
    | some m => if m.q = q then { s5 with que := { s5.que with modeset := none }, pwr := { s5.pwr with transition := false, scope := 0 } } else s5
    | none => s5
  s6.setQ q { s6.q q with cmds := [] }

/-- RESET (Table 11-8). -/
def State.queReset (s : State) (q : Nat) : State :=
  let go :=
    let t := s.abandonCmds q
    t.setQ q { t.q q with ci := 0, pi := 0, phase := true, bits := 0, rereads := 0, state := .disabled }
  match (s.q q).state with
  | .disabled => go
  | .quiesced => go
  | .stopped => go
  | _ => s.refuseQ q

/-- A write of QUE_CTL (Table 11-12): 0 and the reserved commands do nothing. -/
def State.queCtl (s : State) (q c : Nat) : State :=
  match c with
  | 1 => s.queEnable q
  | 2 => s.queQuiesce q
  | 3 => s.queAbort q
  | 4 => s.queReset q
  | _ => s

/-- The offset of QUE_CTL of a queue. -/
def queCtlOff (q : Nat) : Nat := 0x201018 + q * 64

/-- QUE_CTL_ENABLE (R302). -/
def execQueCtlEnable (q : Fin 1024) (s : State) : Host.Outcome State Fault Refusal :=
  .next (s.barWrite 2 (queCtlOff q.val) (fun t => t.queCtl q.val 1))

/-- QUE_CTL_QUIESCE (R302). -/
def execQueCtlQuiesce (q : Fin 1024) (s : State) : Host.Outcome State Fault Refusal :=
  .next (s.barWrite 2 (queCtlOff q.val) (fun t => t.queCtl q.val 2))

/-- QUE_CTL_ABORT (R302). -/
def execQueCtlAbort (q : Fin 1024) (s : State) : Host.Outcome State Fault Refusal :=
  .next (s.barWrite 2 (queCtlOff q.val) (fun t => t.queCtl q.val 3))

/-- QUE_CTL_RESET (R302). -/
def execQueCtlReset (q : Fin 1024) (s : State) : Host.Outcome State Fault Refusal :=
  .next (s.barWrite 2 (queCtlOff q.val) (fun t => t.queCtl q.val 4))

/-- QUIESCE_DRAIN_COMPLETE: nothing of a quiescing queue runs any more: QUIESCED, or RUNNING when an ENABLE was latched (R302). -/
def execQuiesceDrainComplete (q : Fin 1024) (s : State) : Host.Outcome State Fault Refusal :=
  let x := s.q q.val
  .next (if x.state ≠ .quiescing ∨ x.cmds.any (fun c => decide (c.stat ≠ .waiting)) then s
    else if bit x.bits 4 then s.setQ q.val { x with state := .running, bits := setBit x.bits 4 false }
    else s.setQ q.val { x with state := .quiesced })

end Sys2Proof.Machine
end

