-- ==== Sys2Proof/Machine/Translate.lean ====
section
/-! DEFINITION. The commands of the translation logic: what the host answers, and the invalidations (10_translation.md R269 to R282). -/
namespace Sys2Proof.Machine

/-! ### Answers of the host (R269, R270, R273) -/

/-- Who waited on translation looks up again; a thread becomes ready for it (R273). -/
def State.wakeWaiter (s : State) (w : Waiter) : State :=
  match w with
  | .thread b t => if (s.thr b t).stat = .pageWait then s.setThr b t { s.thr b t with stat := .ready } else s
  | _ => s

/-- Everyone in a list looks up again. -/
def State.wakeAll (s : State) (ws : List Waiter) : State := s.each ws (fun t w => t.wakeWaiter w)

/-- Everyone in a list learns that its page stays untranslated, and why. -/
def State.denyAll (s : State) (ws : List Waiter) (pasid : BitVec 20) (page : W64) (cause : Nat) : State :=
  let no : List AtsNo := ws.map (fun w => { who := w, pasid := pasid, page := page, cause := BitVec.ofNat 4 cause })
  ({ s with xlt := { s.xlt with refusedPages := s.xlt.refusedPages ++ no } }).wakeAll ws

/-- The largest page size of an entry that is no larger than a translation of 2^log2 bytes (R269). -/
def entryLog2 (log2 : Nat) : Nat := if log2 ≥ 30 then 30 else if log2 ≥ 21 then 21 else 12

/-- The entry of an ATS translation of 2^log2 bytes that stands at hpa, for an address in it (R268, R269). -/
def atsEntry (pasid : BitVec 20) (va : W64) (w : Bool) (log2 : Nat) (hpa : W64) : Tlb :=
  let span := 2 ^ Nat.max log2 12
  let l := entryLog2 log2
  { pasid := pasid, page := BitVec.ofNat 64 (va.toNat / 2 ^ l * 2 ^ l), log2 := l,
    tgt := .host ((hpa.toNat / span * span + va.toNat % span) / 2 ^ l * 2 ^ l), w := w, mirror := false, way := 0 }

/-- Whether a waiter reaches host memory over CXL.io (09_host_port.md R247, Table 9-8). -/
def Waiter.overIo : Waiter → Bool
  | .piece _ | .queue _ _ => true
  | _ => false

/-- What a request's translation gives its waiters: an entry, or why there is none: 9 ATS_ERROR, 1 NOT_PRESENT, 6 MIRROR_MISS for a range of
this device (R269, R270). While Cache_Enable is 0 no entry is held: those who reach host memory over CXL.io use the translation
for their access, and it is CACHE_DISABLED for the others (R247). -/
def State.atsAnswer (s : State) (r : AtsReq) (va : W64) (ok u rd wr : Bool) (log2 : Nat) (hpa : W64) : State :=
  let e := atsEntry r.pasid va wr log2 hpa
  if !ok then s.denyAll r.waiters r.pasid r.page 9
  else if u || (!rd && !wr) then s.denyAll r.waiters r.pasid r.page 1
  else match e.target va with
    | .host h =>
      if s.ownHdm h then s.denyAll r.waiters r.pasid r.page 6
      else if s.cacheEnable then (s.tlbFill r.unit e).wakeAll r.waiters
      else
        let io := r.waiters.filter Waiter.overIo
        let t : State := { s with xlt := { s.xlt with once := s.xlt.once ++ io.map (fun w => (w, e)) } }
        (t.wakeAll io).denyAll (r.waiters.filter (fun w => !w.overIo)) r.pasid r.page 11
    | _ => s.wakeAll r.waiters

/-- ATS_TRANSLATION_COMPLETION: the host answers the oldest translation request for a page (R269, R270). A request that an
invalidation has met gives nothing, and its accesses look up again (R280). -/
def execAtsTranslationCompletion (pasid : BitVec 20) (va : W64) (ok u rd wr : Bool) (log2 : Nat) (hpa : W64) (s : State) :
    Host.Outcome State Fault Refusal :=
  .next (match s.xlt.ats.find? (fun r => decide (r.pasid = pasid) && decide (r.page = pageOf va)) with
    | none => s
    | some r =>
      let s1 : State := { s with xlt := { s.xlt with ats := s.xlt.ats.erase r } }
      (if r.stale || s1.hpt.hostLost then s1.wakeAll r.waiters else s1.atsAnswer r va ok u rd wr log2 hpa).collRun)

/-- A page request ends, and its index is free again. -/
def State.endPageReq (s : State) (i : Nat) : State :=
  { s with xlt := { s.xlt with pri := s.xlt.pri.filter (fun r => r.idx != i), burnt := s.xlt.burnt.filter (fun j => j != i) } }

/-- Response Failure and Stopped of PRI Status (Table 10-4). -/
def State.stopPri (s : State) : State :=
  { s with hpt := { s.hpt with cfg := { s.hpt.cfg with pristatus := s.hpt.cfg.pristatus ||| 0x101 } } }

/-- PAGE_REQUEST_RESPONSE: the host answers a page request (R273, Table 10-4). -/
def execPageRequestResponse (idx : Fin 512) (code : PriCode) (s : State) : Host.Outcome State Fault Refusal :=
  let known := s.xlt.pri.any (fun r => r.idx == idx.val) || s.xlt.burnt.any (fun j => j == idx.val)
  .next (if !known then s
    else
      let s1 := s.endPageReq idx.val
      let s2 := match code with | .failure => s1.stopPri | _ => s1
      let s3 := match s.xlt.pri.find? (fun r => r.idx == idx.val) with
        | none => s2
        | some r => match code with
          | .success => s2.wakeAll r.waiters
          | _ => s2.denyAll r.waiters r.pasid r.page 3
      s3.collRun)

/-- PRI_TIMEOUT: no answer to a page request has come within XLT_PRI_TIMEOUT; its index is not used again until one comes or PRI
is reset (R273). -/
def execPriTimeout (idx : Fin 512) (s : State) : Host.Outcome State Fault Refusal :=
  .next (match s.xlt.pri.find? (fun r => r.idx == idx.val) with
    | none => s
    | some r =>
      let s1 := s.endPageReq idx.val
      let s2 : State := { s1 with xlt := { s1.xlt with burnt := s1.xlt.burnt ++ [idx.val] } }
      (s2.denyAll r.waiters r.pasid r.page 4).collRun)

/-! ### Invalidation (R280 to R282) -/

/-- Whether an entry's page meets a range of addresses. -/
def Tlb.meets (e : Tlb) (start len : Nat) : Bool := decide (e.page.toNat < start + len) && decide (start < e.page.toNat + 2 ^ e.log2)

/-- Whether a target lies in an entry's page. -/
def Tlb.covers (e : Tlb) (g : Target) : Bool :=
  match e.tgt, g with
  | .dev a, .dev b => decide (a ≤ b) && decide (b < a + 2 ^ e.log2)
  | .host a, .host b => decide (a ≤ b) && decide (b < a + 2 ^ e.log2)
  | .remote d a, .remote c b => decide (d = c) && decide (a ≤ b) && decide (b < a + 2 ^ e.log2)
  | _, _ => false

/-- The entries that meet a test leave every translation unit and every micro-TLB, and what came for one access alone goes. -/
def State.dropTlb (s : State) (p : Tlb → Bool) : State :=
  let keep : Tab (List Tlb) → Tab (List Tlb) := fun t => (t.map (fun m => (m.1, m.2.filter (fun e => !p e)))).filter (fun m => !m.2.isEmpty)
  { s with xlt := { s.xlt with tlb := keep s.xlt.tlb, micro := keep s.xlt.micro, once := s.xlt.once.filter (fun x => !p x.2) } }

/-- The entries that meet a test. -/
def State.tlbWhere (s : State) (p : Tlb → Bool) : List Tlb :=
  (s.xlt.tlb ++ s.xlt.micro).flatMap (fun m => m.2.filter p) ++ (s.xlt.once.map (fun x => x.2)).filter p

/-- Whether a command has a semaphore access under way: a SIGNAL's or a WAIT's, or its CSEM. -/
def Cmd.semBusy (c : Cmd) : Bool := (c.op == 4 || c.op == 5 || c.recorded) && c.left != 0

/-- The accesses under way that used one of some entries (R282): threads' accesses, by each page that a tile has; buffered lines, and
those on their way to another device; pieces of copies that have read or written; semaphores of queue commands, and those that a
SEMSIG or SEMWAIT names. -/
def State.usesOf (s : State) (gone : List Tlb) : List XUse :=
  let hit : BitVec 20 → W64 → Bool := fun p a => gone.any (fun e => e.hits p a)
  let pas : Nat → BitVec 20 := fun k => s.pasidOf (k / 128)
  let accs := s.blocks.thr.flatMap (fun x => (x.2.accs.filter (fun a => hit (pas x.1) a.va ||
      a.pages.any (fun p => hit (pas x.1) (BitVec.ofNat 64 (p.1 * 4096))))).map (fun a => XUse.acc (x.1 / 128) (x.1 % 128) a.id))
  let sigs := s.blocks.thr.flatMap (fun x => (x.2.fences.filterMap (fun f => f.sem)).filterMap (fun g =>
    if hit (pas x.1) g.va then some (XUse.semsig (x.1 / 128) (x.1 % 128) g.va) else none))
  let waits := s.blocks.thr.filterMap (fun x => match x.2.sem with
    | some w => if hit (pas x.1) w.va then some (XUse.semwait (x.1 / 128) (x.1 % 128) w.va) else none
    | none => none)
  let drains := s.net.qp.flatMap (fun x => ((x.2.sent ++ x.2.unsent).filter (fun y => (match y.own with | .drain _ => true | _ => false) &&
    gone.any (fun e => e.covers (.remote (s.peer x.1) (bits y.pkt.addr 45 0))))).map (fun y => XUse.drain (s.peer x.1) y.pkt.addr))
  let lines := s.coh.wc.flatMap (fun x => (x.2.filter (fun l => gone.any (fun e => e.covers l.tgt))).map (fun l => XUse.line x.1 l.tgt))
  let pieces := s.que.eng.flatMap (fun x => (x.2.pieces.filter (fun p => p.stage != 0 &&
    (gone.any (fun e => decide (e.pasid = p.pasid) && (e.meets p.src.toNat p.len || e.meets p.dst.toNat p.len))))).map
      (fun p => XUse.piece x.1 p.q p.slot p.off))
  let sems := s.que.que.flatMap (fun x => (x.2.cmds.filter (fun c => c.semBusy && hit x.2.pasid c.semVa)).map
    (fun c => XUse.sem x.1 c.slot))
  accs ++ sigs ++ waits ++ lines ++ drains ++ pieces ++ sems

/-- Whether an access that an invalidation waits for is over. -/
def State.useOver (s : State) (u : XUse) : Bool :=
  match u with
  | .acc b t id => !((s.thr b t).accs.any (fun a => a.id == id))
  | .semsig b t va => !((s.thr b t).fences.any (fun f => match f.sem with | some g => decide (g.va = va) | none => false)) &&
      !((s.thr b t).accs.any (fun a => decide (a.va = va)))
  | .semwait b t va => (match (s.thr b t).sem with | some w => decide (w.va ≠ va) | none => true)
  | .line r g => !((s.wc r).any (fun l => decide (l.tgt = g)))
  | .drain d a => !(s.net.qp.any (fun x => decide (s.peer x.1 = d) && (x.2.sent ++ x.2.unsent).any (fun y =>
      decide (y.pkt.addr = a) && (match y.own with | .drain _ => true | _ => false))))
  | .piece e q slot off => !((s.eng e).pieces.any (fun p => p.q == q && p.slot == slot && p.off == off))
  | .sem q slot => (match s.cmd q slot with | some c => !c.semBusy | none => true)

/-- ATS_INVALIDATE_REQUEST: the host withdraws translations of a PASID, or of all, in a range (R280): matching entries go, a
translation request under way gives nothing, and the request is held, of which there are 32 at most. -/
def execAtsInvalidateRequest (pasid : BitVec 20) (glob : Bool) (start len : W64) (s : State) : Host.Outcome State Fault Refusal :=
  .next (if s.xlt.invs.length ≥ 32 then s
    else
      let p : Tlb → Bool := fun e => (glob || decide (e.pasid = pasid)) && e.meets start.toNat len.toNat
      let v : Inv := { pasid := pasid, glob := glob, start := start, len := len, uses := s.usesOf (s.tlbWhere p) }
      let s1 := s.dropTlb p
      { s1 with xlt := { s1.xlt with
        invs := s1.xlt.invs ++ [v],
        ats := s1.xlt.ats.map (fun r => if (glob || decide (r.pasid = pasid)) && decide (r.page.toNat < start.toNat + len.toNat) &&
          decide (start.toNat < r.page.toNat + 4096) then { r with stale := true } else r) } })

/-- INVALIDATION_COMPLETE: every access that used a removed entry is over (R282): the Invalidate Completion of the oldest request is
sent, or BUSY clears. A function-level reset sends none (09_host_port.md R256). -/
def execInvalidationComplete (ats : Bool) (s : State) : Host.Outcome State Fault Refusal :=
  .next (if ats then
      match s.xlt.invs with
      | [] => s
      | v :: rest =>
        if v.uses.all s.useOver && !s.hpt.flr then
          let s1 : State := { s with xlt := { s.xlt with invs := rest } }
          s1.emit .invDone
        else s
    else match s.xlt.mirrorInv with
      | none => s
      | some us => if us.all s.useOver then { s with xlt := { s.xlt with mirrorInv := none } } else s)

/-- An invalidation of mirror-derived entries that meet a test, and of contexts (R281): refused while BUSY is 1. -/
def State.mirrorInv (s : State) (p : Tlb → Bool) (c : BitVec 20 → Bool) : State :=
  match s.xlt.mirrorInv with
  | some _ => { s with xlt := { s.xlt with refusals := s.xlt.refusals ||| 2 } }
  | none =>
    let m : Tlb → Bool := fun e => e.mirror && p e
    let us := s.usesOf (s.tlbWhere m)
    let s1 := s.dropTlb m
    { s1 with xlt := { s1.xlt with mirrorInv := some us, ctx := s1.xlt.ctx.filter (fun x => !c x.2.1) } }

/-- The range of XLT_INV_ADDR: its first byte and its bytes (Table 10-10). -/
def State.invRange (s : State) : Nat × Nat := (bits s.xlt.invAddr 47 21 * twoMib, (bits s.xlt.invAddr 20 0 + 1) * twoMib)

/-- Scope 0: a PASID and the range of XLT_INV_ADDR. -/
def State.invScope0 (s : State) (pasid : BitVec 20) : State :=
  s.mirrorInv (fun e => decide (e.pasid = pasid) && e.meets s.invRange.1 s.invRange.2) (fun _ => false)

/-- Scope 1: a PASID and its context entry. -/
def State.invScope1 (s : State) (pasid : BitVec 20) : State :=
  s.mirrorInv (fun e => decide (e.pasid = pasid)) (fun p => decide (p = pasid))

/-- Scope 2: every PASID and every context entry. -/
def State.invScope2 (s : State) : State := s.mirrorInv (fun _ => true) (fun _ => true)

/-- XLT_INV_RANGE: a write of XLT_INV_CMD with GO and SCOPE 0 (R281). -/
def execXltInvRange (pasid : BitVec 20) (s : State) : Host.Outcome State Fault Refusal :=
  .next (s.barWrite 3 0x310028 (fun t => t.invScope0 pasid))

/-- XLT_INV_PASID: a write of XLT_INV_CMD with GO and SCOPE 1 (R281). -/
def execXltInvPasid (pasid : BitVec 20) (s : State) : Host.Outcome State Fault Refusal :=
  .next (s.barWrite 3 0x310028 (fun t => t.invScope1 pasid))

/-- XLT_INV_ALL: a write of XLT_INV_CMD with GO and SCOPE 2 (R281); its PASID field means nothing. -/
def execXltInvAll (_pasid : BitVec 20) (s : State) : Host.Outcome State Fault Refusal :=
  .next (s.barWrite 3 0x310028 (fun t => t.invScope2))

/-! ### The regime (R32, R279) -/

/-- Whether queue q is running in the sense of 01_architecture.md R32. -/
def Queue.runs (x : Queue) : Bool :=
  match x.state with
  | .running => true
  | .quiescing => true
  | .stopped => x.cmds.any (fun c => decide (c.stat ≠ .waiting))
  | _ => false

/-- Whether any queue is running (01_architecture.md R32). -/
def State.anyRuns (s : State) : Bool := s.que.que.any (fun x => x.2.runs)

/-- Whether a value of XLT_GCTL is accepted (R279): no queue runs, and the aperture ends at or below 2^47. -/
def State.gctlOk (s : State) (v : W64) : Bool := !s.anyRuns && decide (bits v 49 32 * 2 ^ 30 + allMem ≤ 2 ^ 47)

/-- The fields of XLT_GCTL that can be written (Table 10-7). -/
def gctlMask : W64 := 0x0003FFFF0FFFFF01

/-- A write of XLT_GCTL (R279): a refused one sets GCTL_REFUSED. -/
def State.writeGctl (s : State) (v : W64) : State :=
  if s.gctlOk v then { s with xlt := { s.xlt with gctl := v &&& gctlMask } }
  else { s with xlt := { s.xlt with refusals := s.xlt.refusals ||| 1 } }

/-- XLT_GCTL_WRITE: the host selects the addressing regime (R32, R279). -/
def execXltGctlWrite (v : W64) (s : State) : Host.Outcome State Fault Refusal := .next (s.barWrite 3 0x310000 (fun t => t.writeGctl v))

end Sys2Proof.Machine
end

