-- ==== Sys2Proof/Machine/Events.lean ====
section
/-! DEFINITION. The event controller (16_stolpel_and_events.md R440 to R446). -/
namespace Sys2Proof.Machine

/-- Whether source n fires (R442). -/
def Events.fires (e : Events) (n : Nat) : Bool :=
  e.pending.getLsbD n && e.enable.getLsbD n && bit (Tab.get 0 e.route n) 31 && !(e.mask.getLsbD n)

/-- The vector that source n is routed to (Table 16-11). -/
def Events.vectorOf (e : Events) (n : Nat) : Nat := bits (Tab.get 0 e.route n) 10 0

/-- The event controller changes, and each source that starts to fire sends one message (R442). -/
def State.evtChange (s : State) (f : Events → Events) : State :=
  let old := s.evt
  let new := f old
  ({ s with evt := new } : State).each ((List.range 512).filter (fun n => new.fires n && !old.fires n)) (fun t n => t.vector (new.vectorOf n))

/-- An arrival at source n: it is counted, made pending, and wakes the site processor when the source is enabled (R441, R445).
Sources 413 to 447 have no arrivals (Table 16-6). -/
def State.arrival (s : State) (n : Nat) : State :=
  if 413 ≤ n ∧ n < 448 then s
  else s.evtChange (fun e => { e with
    cnt := Tab.set 0 e.cnt n (satAdd (Tab.get 0 e.cnt n) 1), pending := setBit e.pending n true,
    siteWakes := if e.enable.getLsbD n then e.siteWakes + 1 else e.siteWakes })

/-- EVENT_ARRIVAL: an arrival at a source (R441). -/
def execEventArrival (src : Fin 512) (s : State) : Host.Outcome State Fault Refusal := .next (s.arrival src.val)

/-- A write of EVT_ACK word n: each byte is subtracted from the counter of its source, not below 0 (R441). -/
def State.ackEvents (s : State) (n : Nat) (v : W32) : State :=
  { s with evt := { s.evt with cnt := (List.range 4).foldl (fun (c : Tab Byte) k =>
      let x := Tab.get 0 c (4 * n + k)
      Tab.set 0 c (4 * n + k) (BitVec.ofNat 8 (x.toNat - bits v (8 * k + 7) (8 * k)))) s.evt.cnt } }

/-- EVT_ACK_WRITE: events are taken off four counters (R441). -/
def execEvtAckWrite (n : BitVec 7) (v : W32) (s : State) : Host.Outcome State Fault Refusal :=
  .next (s.barWrite 0 (0x101200 + 4 * n.toNat) (fun t => t.ackEvents n.toNat v))

/-- A write of EVT_RAISE: one arrival at a source from 448 to 511, and at no other (R444). -/
def State.raiseEvent (s : State) (v : W32) : State := if bits v 8 0 < 448 then s else s.arrival (bits v 8 0)

/-- EVT_RAISE: software raises an event (R444). -/
def execEvtRaise (v : W32) (s : State) : Host.Outcome State Fault Refusal := .next (s.barWrite 0 0x1000C0 (fun t => t.raiseEvent v))

/-- Word n of 64 bits of a register of 512 takes a value. -/
def setWord (x : BitVec 512) (n : Nat) (v : W64) : BitVec 512 := setBits x (64 * n + 63) (64 * n) v.toNat

/-- A write of EVT_PENDING word n (R443). -/
def State.writePending (s : State) (n : Nat) (v : W64) : State := s.evtChange (fun e => { e with pending := setWord e.pending n v })
/-- A write of EVT_ENABLE word n (R442). -/
def State.writeEnable (s : State) (n : Nat) (v : W64) : State := s.evtChange (fun e => { e with enable := setWord e.enable n v })
/-- A write of EVT_MASK word n (R442, R443). -/
def State.writeMask (s : State) (n : Nat) (v : W64) : State := s.evtChange (fun e => { e with mask := setWord e.mask n v })
/-- A write of EVT_ROUTE of source n (R442, Table 16-11). -/
def State.writeRoute (s : State) (n : Nat) (v : W32) : State :=
  s.evtChange (fun e => { e with route := Tab.set 0 e.route n (v &&& 0x800007FF) })

/-- EVT_PENDING_WRITE: the pending bits of 64 sources are written (R443). -/
def execEvtPendingWrite (n : BitVec 3) (v : W64) (s : State) : Host.Outcome State Fault Refusal :=
  .next (s.barWrite 0 (0x100000 + 8 * n.toNat) (fun t => t.writePending n.toNat v))

/-- EVT_ENABLE_WRITE: the enables of 64 sources are written (R442). -/
def execEvtEnableWrite (n : BitVec 3) (v : W64) (s : State) : Host.Outcome State Fault Refusal :=
  .next (s.barWrite 0 (0x100040 + 8 * n.toNat) (fun t => t.writeEnable n.toNat v))

/-- EVT_MASK_WRITE: the masks of 64 sources are written (R442, R443). -/
def execEvtMaskWrite (n : BitVec 3) (v : W64) (s : State) : Host.Outcome State Fault Refusal :=
  .next (s.barWrite 0 (0x100080 + 8 * n.toNat) (fun t => t.writeMask n.toNat v))

/-- EVT_ROUTE_WRITE: the vector of a source is written (R442). -/
def execEvtRouteWrite (src : Fin 512) (v : W32) (s : State) : Host.Outcome State Fault Refusal :=
  .next (s.barWrite 0 (0x102000 + 4 * src.val) (fun t => t.writeRoute src.val v))

/-- The end of HOST_LOST: one message on every vector that has a firing source, in ascending order (R442). -/
def State.resendEvents (s : State) : State :=
  let vs := (List.range 512).filter (fun n => s.evt.fires n)
  s.each ((List.range 2048).filter (fun v => vs.any (fun n => s.evt.vectorOf n == v))) (fun t v => t.vector v)

end Sys2Proof.Machine
end

