-- ==== Sys2Proof/Machine/HostPort.lean ====
section
/-! DEFINITION. The host port: the link, the configuration space, the HDM decoders, the device cache's enables, function-level reset,
power states, and the loss of the host (09_host_port.md). -/
namespace Sys2Proof.Machine

/-! ### Walks toward the host (R247) -/

/-- Every host sector leaves every region cache, dirty ones with DirtyEvict, and block copies are recalled (R247). -/
def State.dropHostAll (s : State) : State := s.each (List.range 5) (fun t r => if t.regionDust r then t else t.dropHost r)

/-- Initiate_Cache_Write_Back_and_Invalidation: the walk, and Cache_Invalid (R247). -/
def State.writebackInvalidate (s : State) : State :=
  let s1 := s.dropHostAll
  { s1 with hpt := { s1.hpt with cacheInvalid := true } }

/-- Cache_Invalid as the host reads it: the walk has been asked for, and no region cache in service, nor its eviction buffer, holds a
host sector (R247). -/
def State.cacheInvalidNow (s : State) : Bool :=
  s.hpt.cacheInvalid && (List.range 5).all (fun r => s.regionDust r ||
    ((s.rc r).evict.isEmpty && (s.rc r).lines.all (fun k => match k.2 with | some e => !e.host | none => true)))

/-- Whether a translation targets host memory. -/
def Tlb.toHost (e : Tlb) : Bool := match e.tgt with | .host _ => true | _ => false

/-- Cache_Enable is cleared: the walk first, and no translation that targets host memory is held (R247, R270). -/
def State.clearCacheEnable (s : State) : State :=
  let s1 := s.dropHostAll.dropTlb Tlb.toHost
  { s1 with hpt := { s1.hpt with cfg := { s1.hpt.cfg with cxlctl := setBit s1.hpt.cfg.cxlctl 0 false } } }

/-- A host request of the configuration space reaches it: the link is up, the space is ready, and no FLR runs (R254, R256). -/
def State.cfgServes (s : State) : Bool := s.domOn 2 && s.hpt.linkUp && s.hpt.cfg.ready && !s.hpt.flr

/-- CACHE_WRITEBACK_INVALIDATE: the host has every host sector written back and invalidated (R247). -/
def execCacheWritebackInvalidate (s : State) : Host.Outcome State Fault Refusal :=
  .next (if s.cfgServes then s.writebackInvalidate else s)

/-- CACHE_ENABLE_CLEAR: the host clears Cache_Enable (R247). -/
def execCacheEnableClear (s : State) : Host.Outcome State Fault Refusal :=
  .next (if s.cfgServes && s.cacheEnable then s.clearCacheEnable else s)

/-! ### The link (R230, R231, R251, R252, R258) -/

/-- HOST_LINK_TRAINING_COMPLETE: the link has trained at a rate, width and flit format (Table 9-13). Below 32 GT/s or x8 the CXL
protocols are withheld until the next conventional or hot reset (R231). -/
def execHostLinkTrainingComplete (rate : BitVec 3) (width : BitVec 5) (flit : BitVec 2) (s : State) : Host.Outcome State Fault Refusal :=
  .next (if !(s.domOn 2) || !s.rst.perstHigh then s
    else
      let low := decide (rate.toNat < 4) || decide (width.toNat < 8)
      let was := bit s.hpt.link 0
      let l1 := setBits (setBits (setBits (setBits s.hpt.link 18 14 width.toNat) 13 9 width.toNat) 8 6 rate.toNat) 5 4 flit.toNat
      let s1 : State := { s with hpt := { s.hpt with linkUp := true, link := setBit l1 0 (was || low) } }
      if low && !was then
        (({ s1 with hpt := { s1.hpt with cfg := { s1.hpt.cfg with cxlctl := s1.hpt.cfg.cxlctl &&& ~~~5#16 } } } : State).dropTlb
          Tlb.toHost).report 5 1 2 (BitVec.ofNat 64 (2 ^ 63))
      else s1)

/-- LINK_RECOVERY: the link recovers, which loses nothing and is counted (R258). -/
def execLinkRecovery (s : State) : Host.Outcome State Fault Refusal :=
  .next (if s.hpt.linkUp
    then { s with hpt := { s.hpt with link := setBits s.hpt.link 31 24 (Nat.min 255 (bits s.hpt.link 31 24 + 1)) } } else s)

/-- The link takes a width under L0p. -/
def State.setL0p (s : State) (w : Nat) : State :=
  if w = bits s.hpt.link 18 14 then s
  else ({ s with hpt := { s.hpt with link := setBits s.hpt.link 18 14 w } } : State).emit (.l0p w)

/-- L0P_WINDOW_EXPIRY: a window of 100 µs ends, in which each direction used so much of its capacity, in percent, and a snoop may have
waited for credit (R251). -/
def execL0pWindowExpiry (up down : Byte) (waited : Bool) (s : State) : Host.Outcome State Fault Refusal :=
  let low := Nat.min 50 (bits s.hpt.lpm 15 8)
  let now := bits s.hpt.link 18 14
  .next (if !s.hpt.linkUp || !(bit s.hpt.cfg.dev3ctl 3) || !(bit s.hpt.lpm 2) || decide (bits s.hpt.link 5 4 < 2) then s
    else if waited ∨ up.toNat > 50 ∨ down.toNat > 50 then s.setL0p (bits s.hpt.link 13 9)
    else if up.toNat < low ∧ down.toNat < low then s.setL0p (if now ≥ 8 then now / 2 else now)
    else s)

/-- Whether a request is one that the host sent. -/
def HReq.ofHost : HReq → Bool
  | .msg (.hostMemrd _ _) | .msg (.hostMemwr _ _ _ _) => true
  | _ => false

/-- Whether no transaction with the host is outstanding, of the device's or of the host's (R252). -/
def State.hostIdle (s : State) : Bool :=
  s.hpt.reads.isEmpty && s.xlt.ats.isEmpty && (List.range 5).all (fun r =>
    (s.rc r).bi.isEmpty && (s.rc r).evict.isEmpty && (s.rc r).hsnp.isEmpty &&
    (s.rc r).txns.all (fun x => !((x.req :: x.queued).any HReq.ofHost) && x.waits.all (fun w => match w with | .host | .go _ => false | _ => true)))

/-- L1_IDLE_EXPIRY: the link has carried nothing for L1_IDLE microseconds: L1 is requested (R252). -/
def execL1IdleExpiry (accepted : Bool) (s : State) : Host.Outcome State Fault Refusal :=
  .next (if s.hpt.linkUp && bit s.hpt.cfg.linkctl 1 && bit s.hpt.lpm 1 && s.hostIdle && accepted then s.emit .l1 else s)

/-! ### The device's own reads over CXL.io (R232, R250) -/

/-- A read of the device ends, with its data or without. -/
def State.endRead (s : State) (r : IoRead) (data : Option (List Byte)) : State :=
  let s1 : State := { s with hpt := { s.hpt with reads := s.hpt.reads.filter (fun x => x.tag != r.tag) } }
  match r.why with
  | .descriptor q => s1.slotRead q (data.bind (fun d => if d.length ≥ 64 then some (BitVec.ofNat 512 (leVal (d.take 64))) else none))
  | .copy e q slot off at' =>
    match (s1.eng e).pieces.find? (fun p => p.q == q && p.slot == slot && p.off == off) with
    | none => s1
    | some p => match data with
      | some d => s1.updPiece e p (fun y => { (Piece.take at' (d.take r.len) (List.replicate (Nat.min d.length r.len) false) y) with left := y.left - 1 })
      | none => s1.updPiece e p (fun y => { y with left := y.left - 1, bad := some (y.bad.getD (9, y.src + BitVec.ofNat 64 at')) })
  | .other => s1

/-- CXL_IO_COMPLETION: a completion of a read of the device arrives, in any order; without ok its data is poisoned or absent
(R250). -/
def execCxlIoCompletion (tag : BitVec 14) (ok : Bool) (data : List Byte) (s : State) : Host.Outcome State Fault Refusal :=
  .next (match s.hpt.reads.find? (fun r => r.tag == tag.toNat) with
    | none => s
    | some r => s.endRead r (if ok then some data else none))

/-- COMPLETION_TIMEOUT: no completion of a read has come in time (R232): it ends without data, and AER notes it. -/
def execCompletionTimeout (tag : BitVec 14) (s : State) : Host.Outcome State Fault Refusal :=
  .next (match s.hpt.reads.find? (fun r => r.tag == tag.toNat) with
    | none => s
    | some r => if bit s.hpt.cfg.devctl2 4 then s
      else ({ s with hpt := { s.hpt with cfg := { s.hpt.cfg with aerUnc := setBit s.hpt.cfg.aerUnc 14 true } } } : State).endRead r none)

/-! ### HDM decoders (R242 to R245) -/

/-- Where the populated space of the last start ends (R242, R244). -/
def State.popEnd (s : State) : Nat :=
  if (s.map 0).spread then s.totalMemory
  else (List.range 5).foldl (fun a r => if s.capacity r = 0 then a else r * (4 * stackSize) + s.capacity r) 0

/-- Where the device physical range of decoder n − 1 ends. -/
def State.hdmEnd (s : State) : Nat → Nat
  | 0 => 0
  | n + 1 => if (s.hdm n).committed then (s.hdm n).dpa + (s.hdm n).size.toNat / Nat.max 1 (s.hdm n).ways.toNat else s.hdmEnd n

/-- Whether a decoder is within the limits of R242. -/
def hdmLegal (base size : W64) (ways : BitVec 4) (gran : W16) : Bool :=
  bits base 27 0 == 0 && bits size 27 0 == 0 && [1, 2, 4, 8].any (fun k => k == ways.toNat) &&
    [256, 512, 1024, 2048, 4096, 8192, 16384].any (fun k => k == gran.toNat)

/-- A decoder is to be committed (R242). -/
def State.commitHdm (s : State) (n : Nat) (base size : W64) (ways : BitVec 4) (gran : W16) (skip : W64) : State :=
  let dpa := s.hdmEnd n + skip.toNat
  let meets := (List.range 4).any (fun k => k != n && (s.hdm k).committed && decide (base.toNat < (s.hdm k).base.toNat + (s.hdm k).size.toNat) &&
    decide ((s.hdm k).base.toNat < base.toNat + size.toNat))
  let ok := s.hpt.biEnable && hdmLegal base size ways gran && decide (dpa + size.toNat / Nat.max 1 ways.toNat ≤ s.popEnd) && !meets
  let x : Hdm := { base := base, size := size, ways := ways, gran := gran, skip := skip, committed := ok, err := !ok, stale := false,
                   dpa := if ok then dpa else 0 }
  { s with hpt := { s.hpt with hdm := Tab.set Hdm.init s.hpt.hdm n x } }

/-- HDM_DECODER_COMMIT: the host commits a decoder with its settings (R242). -/
def execHdmDecoderCommit (n : Fin 4) (base size : W64) (ways : BitVec 4) (gran : W16) (skip : W64) (s : State) :
    Host.Outcome State Fault Refusal :=
  .next (s.barWrite 2 (0x1310 + 32 * n.val) (fun t => t.commitHdm n.val base size ways gran skip))

/-- BI Enable is cleared: committed decoders serve no host access until they are committed again (R245). -/
def State.clearBi (s : State) : State :=
  let s1 : State := { s with hpt := { s.hpt with biEnable := false } }
  s1.each (List.range 4) (fun t n => if (t.hdm n).committed
    then { t with hpt := { t.hpt with hdm := Tab.set Hdm.init t.hpt.hdm n { t.hdm n with stale := true } } } else t)

/-- BI_ENABLE_CLEAR: the host clears BI Enable (R245). -/
def execBiEnableClear (s : State) : Host.Outcome State Fault Refusal :=
  .next (s.barWrite 2 0x1404 (fun t => if t.hpt.biEnable then t.clearBi else t))

/-! ### Loss of the host (R253, R257, R259 to R262) -/

/-- The configuration space at its defaults but for what a hot reset keeps: the subsystem IDs and the sticky AER status (Table
9-9). -/
def Config.defaulted (c : Config) : Config :=
  { Config.init with ssvid := c.ssvid, ssid := c.ssid, aerUnc := c.aerUnc, aerCorr := c.aerCorr, ready := c.ready }

/-- The host port's share of a hot reset: configuration space, decoders, BI decoder and MSI-X at their defaults (Table 9-9), the
withheld protocols free again (R231), the link down, an FLR ended (R257). -/
def State.hotDefaults (s : State) : State :=
  { s with hpt := { s.hpt with
    cfg := s.hpt.cfg.defaulted, hdm := [], hdmCtl := 0, doe := Doe.init, biEnable := false, biId := 0, cacheInvalid := false, msix := [], pba := [], linkUp := false,
    link := setBit s.hpt.link 0 false, flr := false, d3hot := false } }

/-- Whether an address of a queue's PASID targets host memory, as far as the device knows. -/
def State.semHost (s : State) (q : Nat) (va : W64) : Bool :=
  match (s.lookup queUnit (s.q q).pasid va).1 with | .hit (.host _) _ => true | _ => false

/-- Whether a queue stops when the host is lost: its ring, its completion target or a semaphore of a running command lies in host
memory (R261). -/
def State.queInHost (s : State) (q : Nat) : Bool :=
  let x := s.q q
  (decide (x.state = .running) || decide (x.state = .quiescing) || decide (x.state = .quiesced)) &&
    (x.ringHost || x.cplHost || x.cmds.any (fun c => decide (c.stat = .running) &&
      (((c.op == 4 || c.op == 5) && s.semHost q c.semAddr) || (bit c.desc 10 && s.semHost q c.csem))))

/-- Every translation obtained by ATS goes, and the requests for them: their accesses look up again, and page requests fail
(Table 9-11). -/
def State.dropAts (s : State) : State :=
  let s1 := s.dropTlb (fun e => !e.mirror)
  let asks := s1.xlt.ats.flatMap (fun r => r.waiters)
  let pages := s1.xlt.pri
  let s2 : State := { s1 with xlt := { s1.xlt with ats := [], pri := [], burnt := [], invs := [] } }
  (s2.wakeAll asks).each pages (fun t r => t.denyAll r.waiters r.pasid r.page 10)

/-- The HOST_LOST sequence up to the walk (R260, Table 9-11). -/
def State.loseHost (s : State) : State :=
  let stops := (s.que.que.map (fun e => e.1)).filter s.queInHost
  let s1 : State := { s with hpt := { s.hpt with hostLost := true } }
  let s2 := s1.each (List.range 5) (fun t r => t.setRc r { t.rc r with hostDead := true })
  let s3 := (s2.each s2.hpt.reads (fun t r => t.endRead r none)).agentDies .host
  let s4 := s3.dropAts
  let s5 := s4.each stops (fun t q => t.hostStop q)
  let s6 := (s5.report 5 1 3 (s5.hpt.hlDiscard.setWidth 64)).event 408
  let s7 := s6.each (List.range 5) (fun t r => t.settleHost r)
  (s7.each s7.coh.bc (fun t e => t.kickBlock e.1)).collRun

/-- The link is lost, or reset hot: HOST_LOST begins, or goes on (R259, R262). -/
def State.linkLost (s : State) : State :=
  let s1 := if s.hpt.hostLost then s else s.loseHost
  s1.hotDefaults

/-- LINK_DOWN: the host link goes down (R259). -/
def execLinkDown (s : State) : Host.Outcome State Fault Refusal := .next (if s.hpt.linkUp then s.linkLost else s)

/-- HOT_RESET: a hot reset or a secondary bus reset (R253, R259). -/
def execHotReset (s : State) : Host.Outcome State Fault Refusal := .next (if s.domOn 2 && s.rst.perstHigh then s.linkLost else s)

/-- A region whose walk for the lost host has not come yet makes it before it serves the host again (R204, R262). -/
def State.walkedHost (s : State) (r : Nat) : State :=
  let s1 := if (s.rc r).reclaims.any (fun a => decide (a = .host)) then s.reclaimHost r else s
  s1.setRc r { s1.rc r with hostDead := false, reclaims := (s1.rc r).reclaims.filter (fun a => decide (a ≠ .host)) }

/-- A write of 1 to HPT_STATUS.HOST_LOST ends HOST_LOST while the link is up (R262): the regions serve the host again, what stands in
host memory is unknown, and firing sources send their messages (16_stolpel_and_events.md R442). -/
def State.hostBack (s : State) : State :=
  if s.hpt.linkUp && s.hpt.hostLost then
    let s0 := s.each (List.range 5) State.walkedHost
    let s1 : State := { s0 with hpt := { s0.hpt with hostLost := false, mem := { era := s0.hpt.mem.era + 1, cells := [], pois := [] } } }
    s1.resendEvents
  else s

/-! ### Function-level reset (R256, R257, Table 9-10) -/

/-- An FLR begins: the front-end stops fetching, copies stop at their next 4 KiB boundary, and running kernels are aborted. From here on
the device sends no request on CXL.io and CXL.cache: the table allows it to until 1 ms have passed (notes/assumptions 64). Page
requests that are outstanding are abandoned, and late answers free their indices. -/
def State.startFlr (s : State) : State :=
  let s1 : State := { s with hpt := { s.hpt with flr := true } }
  let s2 := s1.each s1.que.que (fun t e => t.abortCmds e.1 10)
  let pages := s2.xlt.pri
  let s3 : State := { s2 with xlt := { s2.xlt with pri := [], burnt := s2.xlt.burnt ++ pages.map (fun r => r.idx) } }
  s3.each pages (fun t r => t.wakeAll r.waiters)

/-- INITIATE_FLR: the host writes Initiate Function Level Reset; a second one during an FLR is ignored (R257). -/
def execInitiateFlr (s : State) : Host.Outcome State Fault Refusal := .next (if s.cfgServes then s.startFlr else s)

/-- Whether a request is a write of a buffered line to host memory. -/
def HReq.hostDrain : HReq → Bool
  | .msg (.wrpart _ l _ _) => l.host
  | _ => false

/-- The buffered lines of a region that go to host memory, and have not gone, are discarded and counted (Table 9-10). -/
def State.dropHostWc (s : State) (r : Nat) : State :=
  let going : WLine → Bool := fun l => l.out && (s.rc r).txns.any (fun x => x.req.hostDrain && x.asked &&
    x.waits.any (fun w => match w with | .go _ => true | _ => false) && decide (lineOfTgt l.tgt = some (lineAt x.line, 0)))
  let toHost : WLine → Bool := fun l => (match l.tgt with | .host _ => true | _ => false) && !(going l)
  let n := (((s.wc r).filter toHost).map (fun l => popc (maskSecs l.mask))).foldl Nat.add 0
  let s1 := if n = 0 then s else s.setWc r ((s.wc r).filter (fun l => !toHost l))
  { s1 with hpt := { s1.hpt with flrLost := satAdd s1.hpt.flrLost n } }

/-- The front-end, the copy engines, the translation logic and the event controller at their defaults, but for the device number
(Table 9-10). Kernels that are ending go on without their command. -/
def State.flrDefaults (s : State) : State :=
  let s1 := s.each s.que.que (fun t e => t.abandonCmds e.1)
  let s2 := s1.dropAts
  { s2 with
    que := { s2.que with que := [], eng := [], staleWait := 200 },
    xlt := { Xlt.init with devnum := s2.xlt.devnum }, evt := Events.init }

/-- The configuration space after an FLR: defaults but for sticky fields and the CXL DVSEC (Table 9-9). -/
def Config.afterFlr (c : Config) : Config := { c.defaulted with cxlctl := c.cxlctl, cxlctl2 := c.cxlctl2, cxlstatus2 := c.cxlstatus2 }

/-- FLR_COMPLETE: everything that an FLR resets is at its defaults, and configuration requests are answered again (R256). Its record
counts the sectors that it discarded. -/
def execFlrComplete (s : State) : Host.Outcome State Fault Refusal :=
  .next (if !s.hpt.flr then s
    else
      let before := s.hpt.flrLost.toNat
      let s0 := (s.each (List.range 5) (fun t r => t.dropHostWc r)).dropReqs (fun q => q.hostDrain)
      let s1 := s0.flrDefaults
      let s2 : State := { s1 with
        hpt := { s1.hpt with cfg := s1.hpt.cfg.afterFlr, doe := Doe.init, msix := [], pba := [], flr := false, d3hot := false, reads := [] },
        idn := { s1.idn with spdm := .none, spdmLog := [], spdmAuth := [], spdmMeas := [] } }
      let s3 := s2.offer (s2.plainRec 8 0 0 5 (s2.hpt.flrLost.toNat - before) []) none
      s3.each (List.range 5) State.retrySlots)

/-! ### Device power states (17_power_clocks_startup.md R454, R463) -/

/-- A compute domain is gated: its blocks return the lines that they hold in E, and it switches off (R454). -/
def State.gate (s : State) (d : Nat) : State :=
  let s1 := s.each (domBlocks d) (fun t b =>
    let u := t.each (t.bc b).lines (fun v e => if e.2.isSome then v.evictB b (lineAt e.1) else v)
    if (u.blk b).state = .idle then u.setBlk b { u.blk b with state := .off } else u)
  s1.setDom d { s1.dom d with state := .gated, cause := 1, current := 0 }

/-- Whether a compute domain may be gated: it is on, and its blocks are idle or under a dust sheet, one at least idle (R454). -/
def State.gateable (s : State) (d : Nat) : Bool :=
  decide ((s.dom d).state = .on) && (domBlocks d).any (fun b => decide ((s.blk b).state = .idle)) &&
    (domBlocks d).all (fun b => (decide ((s.blk b).state = .idle) || decide ((s.blk b).state = .dustsheet)) && (s.blk b).task.isNone &&
      (s.blk b).reserved.isNone)

/-- D3hot begins: fetching stops, and the compute domains that can be gated are gated, whatever GATE says (R463). -/
def State.enterD3 (s : State) : State :=
  let s1 : State := { s with hpt := { s.hpt with d3hot := true, cfg := { s.hpt.cfg with pmcsr := setBits s.hpt.cfg.pmcsr 1 0 3 } } }
  s1.each (List.range 50) (fun t d => if t.gateable d then t.gate d else t)

/-- D0 comes back, with all state (R463). -/
def State.leaveD3 (s : State) : State :=
  { s with hpt := { s.hpt with d3hot := false, cfg := { s.hpt.cfg with pmcsr := setBits s.hpt.cfg.pmcsr 1 0 0 } } }

/-- D3HOT_ENTRY: the host puts the device into D3hot (R463). -/
def execD3hotEntry (s : State) : Host.Outcome State Fault Refusal := .next (if s.cfgServes && !s.hpt.d3hot then s.enterD3 else s)

/-- D0_ENTRY: the host brings the device back to D0 (R463). -/
def execD0Entry (s : State) : Host.Outcome State Fault Refusal := .next (if s.cfgServes && s.hpt.d3hot then s.leaveD3 else s)

/-! ### The configuration space (R234 to R236; places of capability fields PRESUMED, notes/assumptions 13) -/

/-- The extended capabilities in order: place and ID (Table 9-5). -/
def extCaps : List (Nat × Nat) :=
  [(0x100, 0x01), (0x150, 0x03), (0x160, 0x0E), (0x170, 0x0F), (0x180, 0x13), (0x190, 0x1B), (0x1A0, 0x19), (0x1D0, 0x25), (0x1E0, 0x26),
   (0x210, 0x27), (0x260, 0x2A), (0x290, 0x31), (0x2B0, 0x2F), (0x2C0, 0x2E), (0x2E0, 0x23), (0x320, 0x23), (0x330, 0x23), (0x350, 0x23)]

/-- The header of an extended capability: ID, version 1, next (Table 9-5). -/
def extHeader (o : Nat) : Option Nat :=
  match extCaps.find? (fun x => x.1 == o) with
  | none => none
  | some x => some (x.2 + 0x10000 + (match extCaps.find? (fun y => decide (o < y.1)) with | some y => y.1 * 2 ^ 20 | none => 0))

/-- The header and ID words of the CXL DVSECs (Table 9-5): place, ID and length. -/
def dvsecs : List (Nat × Nat × Nat) := [(0x2E0, 0, 0x3C), (0x320, 5, 0x10), (0x330, 7, 0x20), (0x350, 8, 0x1C)]

/-- A word of 32 bits from two of 16. -/
def two (hi lo : W16) : W32 := BitVec.ofNat 32 (hi.toNat * 65536 + lo.toNat)

/-- A word that the PCI Express and CXL specifications fill. -/
def State.cfgOther (o : Nat) : W32 := BitVec.ofNat 32 (leVal ((List.range 4).map (fun k => Config.configByte (o + k))))

/-- Range 1 Size of the CXL DVSEC, with Memory_Info_Valid and Memory_Active in its low bits (R243, Table 9-6). -/
def State.rangeLow (s : State) : W32 :=
  BitVec.ofNat 32 (bits s.hpt.range1 31 28 * 2 ^ 28 + b2n s.hpt.memActive * 2 + b2n s.hpt.infoValid)

/-- The 32-bit word of the configuration space at an offset that 4 divides (Tables 9-4 to 9-6). -/
def State.cfgWord (s : State) (o : Nat) : W32 :=
  let c := s.hpt.cfg
  match extHeader o with
  | some h => BitVec.ofNat 32 h
  | none =>
    if o = 0x00 then 0x9620D2A9
    else if o = 0x04 then two 0x0010 (c.command ||| 0x400)
    else if o = 0x08 then 0x120000B0
    else if o = 0x10 then (c.bar0.setWidth 32 &&& 0xFC000000) ||| 4
    else if o = 0x14 then (c.bar0 >>> 32).setWidth 32
    else if o = 0x18 then (c.bar2.setWidth 32 &&& 0xFFC00000) ||| 4
    else if o = 0x1C then (c.bar2 >>> 32).setWidth 32
    else if o = 0x2C then two c.ssid c.ssvid
    else if o = 0x34 then 0x40
    else if o < 0x40 then 0
    else if o = 0x40 then 0x00035001
    else if o = 0x44 then two 0 (c.pmcsr ||| 8)
    else if o = 0x50 then 0x00029010
    else if o = 0x54 then (State.cfgOther o &&& ~~~0x10008027) ||| 0x10008022
    else if o = 0x58 then two 0 c.devctl
    else if o = 0x5C then (State.cfgOther o &&& ~~~0x00038FFF) ||| 0x00018906
    else if o = 0x60 then two (BitVec.ofNat 16 (bits s.hpt.link 13 9 * 16 + bits s.hpt.link 8 6 + 1)) c.linkctl
    else if o = 0x74 then (State.cfgOther o &&& ~~~0x000F3BDF) ||| 0x0003001F
    else if o = 0x78 then two 0 c.devctl2
    else if o = 0x90 then two (c.msixctl ||| 0x7FF) 0x0011
    else if o = 0x94 then 0x02400000
    else if o = 0x98 then 0x02410000
    else if o = 0x104 then c.aerUnc
    else if o = 0x110 then c.aerCorr
    else if o = 0x154 then s.idn.fuses.dsn.setWidth 32
    else if o = 0x158 then (s.idn.fuses.dsn >>> 32).setWidth 32
    else if o = 0x174 then two c.atsctl 0x0060
    else if o = 0x184 then two c.pristatus c.prictl
    else if o = 0x188 then 512
    else if o = 0x18C then c.priIdxLimit
    else if o = 0x194 then two c.pasidctl 0x1400
    else if o = 0x2B8 then c.dev3ctl
    else if o = 0x2EC then two 0 (c.cxlctl ||| 2)
    else if o = 0x2F0 then two (setBit c.cxlstatus2 0 s.cacheInvalidNow) c.cxlctl2
    else if o = 0x2F4 then 0x1E020000
    else if o = 0x2F8 then (s.hpt.range1 >>> 32).setWidth 32
    else if o = 0x2FC then s.rangeLow
    else if o = 0x328 then 0x00000005
    else if o = 0x32C then 0
    else if o = 0x338 then 0x00000007
    else if o = 0x2E8 then 0x00570000
    else if o = 0x358 then 0x00000008
    else if o = 0x35C then 0x00000100
    else if o = 0x360 then 0
    else if o = 0x364 then 0x00010300
    else if o = 0x368 then 0
    else match dvsecs.find? (fun x => x.1 + 4 == o) with
      | some x => BitVec.ofNat 32 (0x1E98 + 0x10000 + x.2.2 * 2 ^ 20)
      | none => State.cfgOther o

/-- The state with the configuration registers changed. -/
def State.setCfg (s : State) (f : Config → Config) : State := { s with hpt := { s.hpt with cfg := f s.hpt.cfg } }

/-- A sixteen-bit register in the low or the high half of a written word, under its writable bits and the bytes written. -/
def half (old : W16) (hi : Bool) (mask : W16) (v be : W32) : W16 :=
  let sh := if hi then 16 else 0
  let m := mask &&& (be >>> sh).setWidth 16
  (old &&& ~~~m) ||| ((v >>> sh).setWidth 16 &&& m)

/-- Write-one-to-clear bits of a written word. -/
def clearOnes (old mask v be : W32) : W32 := old &&& ~~~(v &&& be &&& mask)

/-- A write of PRI Control: Enable set again ends Stopped, and Reset frees the indices that wait for a late answer (R273). -/
def State.writePri (s : State) (v be : W32) : State :=
  let c := s.hpt.cfg
  let ctl := half c.prictl false 1 v be
  let rise := bit ctl 0 && !(bit c.prictl 0)
  let sts := (c.pristatus &&& ~~~((v &&& be) >>> 16).setWidth 16) ||| (c.pristatus &&& ~~~(3 : W16))
  let s1 := s.setCfg (fun x => { x with prictl := ctl, pristatus := if rise then setBit sts 8 false else sts })
  if bit (v &&& be) 1 then { s1 with xlt := { s1.xlt with burnt := [] } } else s1

/-- A write of the power state in PMCSR (R463). -/
def State.writePmcsr (s : State) (v be : W32) : State :=
  if bit be 0 = false then s
  else if bits v 1 0 = 3 ∧ s.hpt.d3hot = false then s.enterD3
  else if bits v 1 0 = 0 ∧ s.hpt.d3hot then s.leaveD3
  else s

/-- A write of the CXL DVSEC's Control: Cache_Enable and Mem_Enable, which ignore writes while the protocols are withheld (R231,
R247). -/
def State.writeCxlCtl (s : State) (v be : W32) : State :=
  if bit s.hpt.link 0 then s
  else
    let new := half s.hpt.cfg.cxlctl false 0x5 v be
    let s1 := if bit s.hpt.cfg.cxlctl 0 && !(bit new 0) then s.clearCacheEnable else s
    let s2 := s1.setCfg (fun c => { c with cxlctl := new })
    if bit new 0 && !(bit s.hpt.cfg.cxlctl 0) then s2.each (List.range 5) State.retrySlots else s2

/-- A write of a word of the configuration space under the bytes written, given as a mask of bits (Tables 9-4 to 9-6). -/
def State.writeCfg (s : State) (o : Nat) (v be : W32) : State :=
  let mix : W32 → W32 → W32 := fun old mask => (old &&& ~~~(mask &&& be)) ||| (v &&& mask &&& be)
  if o = 0x04 then (s.setCfg (fun c => { c with command := half c.command false 0x0146 v be })).flushMsix
  else if o = 0x10 then s.setCfg (fun c => { c with bar0 := setBits c.bar0 31 0 (mix (c.bar0.setWidth 32) 0xFC000000).toNat })
  else if o = 0x14 then s.setCfg (fun c => { c with bar0 := setBits c.bar0 63 32 (mix ((c.bar0 >>> 32).setWidth 32) 0xFFFFFFFF).toNat })
  else if o = 0x18 then s.setCfg (fun c => { c with bar2 := setBits c.bar2 31 0 (mix (c.bar2.setWidth 32) 0xFFC00000).toNat })
  else if o = 0x1C then s.setCfg (fun c => { c with bar2 := setBits c.bar2 63 32 (mix ((c.bar2 >>> 32).setWidth 32) 0xFFFFFFFF).toNat })
  else if o = 0x44 then s.writePmcsr v be
  else if o = 0x58 then
    let s1 := s.setCfg (fun c => { c with devctl := half c.devctl false 0x7FFF v be })
    if bit (v &&& be) 15 then s1.startFlr else s1
  else if o = 0x60 then s.setCfg (fun c => { c with linkctl := half c.linkctl false 0x0FFF v be })
  else if o = 0x78 then s.setCfg (fun c => { c with devctl2 := half c.devctl2 false 0x001F v be })
  else if o = 0x90 then (s.setCfg (fun c => { c with msixctl := half c.msixctl true 0xC000 v be })).flushMsix
  else if o = 0x104 then s.setCfg (fun c => { c with aerUnc := clearOnes c.aerUnc 0xFFFFFFFF v be })
  else if o = 0x110 then s.setCfg (fun c => { c with aerCorr := clearOnes c.aerCorr 0xFFFFFFFF v be })
  else if o = 0x174 then s.setCfg (fun c => { c with atsctl := half c.atsctl true 0x801F v be })
  else if o = 0x184 then s.writePri v be
  else if o = 0x18C then s.setCfg (fun c => { c with priIdxLimit := mix c.priIdxLimit 0xFFFFFFFF })
  else if o = 0x194 then s.setCfg (fun c => { c with pasidctl := half c.pasidctl true 0x1 v be })
  else if o = 0x2B8 then s.setCfg (fun c => { c with dev3ctl := mix c.dev3ctl 0x0000000C })
  else if o = 0x2EC then s.writeCxlCtl v be
  else if o = 0x2F0 then
    let s1 := s.setCfg (fun c => { c with cxlctl2 := half c.cxlctl2 false 0x1 v be })
    if bit (v &&& be) 1 then s1.writebackInvalidate else s1
  else s

end Sys2Proof.Machine
end

