-- ==== Sys2Proof/Machine/Power.lean ====
section
/-! DEFINITION. The power controller: domains, gating, the power cap, throttling, droops and the clocks (17_power_clocks_startup.md R451 to
R466). -/
namespace Sys2Proof.Machine

/-! ### Domains (R451, R453 to R455) -/

/-- A background DOMAIN_SET of a domain has done its work. -/
def State.domainSetDone (s : State) (d : Nat) (on : Bool) : State :=
  { s with mail := { s.mail with bg := s.mail.bg.map (fun g => match g.kind with
    | .domainSet e x _ => if e = d ∧ x = on then { g with result := some (0, 0) } else g
    | _ => g) } }

/-- A block has power again (R453): it is as new, takes the mode of its region, and runs the task that was placed on it. -/
def State.blockPowered (s : State) (b : Nat) : State :=
  if s.blockDust b then s
  else
    let s1 := s.blockFresh b
    let x := s1.blk b
    s1.setBlk b { x with mode := s1.modeOf (regionOf b),
                         state := if x.task.isSome then .running else if x.reserved.isSome then .skim else .idle }

/-- DOMAIN_POWER_UP_COMPLETE: the first domain of those that wait has its power, and the next one starts; a link group trains
(R453, R455; 08_memory_stacks.md R227). -/
def execDomainPowerUpComplete (d : Fin 50) (s : State) : Host.Outcome State Fault Refusal :=
  .next (if s.pwr.waking.head? ≠ some d.val then s
    else
      let s1 : State := { s with pwr := { s.pwr with waking := s.pwr.waking.drop 1 } }
      let s2 := s1.setDom d.val { s1.dom d.val with state := .on }
      let s3 := match domKind d.val with
        | .links g => s2.train g
        | _ => (domBlocks d.val).foldl (fun (t : State) b => t.blockPowered b) s2
      (s3.domainSetDone d.val true).kickWake)

/-- Whether a buffered line holds a store of a domain's blocks. -/
def WLine.ofDomain (d : Nat) (l : WLine) : Bool := l.who.any (fun e => (domBlocks d).any (fun b => b == e.2.b))

/-- The stores that a domain's units still buffer start to drain (R451 step 3). -/
def State.drainDomain (s : State) (d : Nat) : State :=
  s.each (List.range 5) (fun t r => t.drainLines r ((t.wc r).filter (fun l => !l.out && l.ofDomain d)))

/-- Whether units of a domain still have a task, or buffer stores: in write-combining lines, as requests of a block cache, or as packets
(06_memory_ordering.md Table 6-4). -/
def State.domainBusy (s : State) (d : Nat) : Bool :=
  (domBlocks d).any (fun b => (s.blk b).task.isSome || (s.bc b).out.any (fun x => !(s.reqLost b x).isEmpty) ||
    s.net.qp.any (fun e => e.2.unsent.any (fun x => ownedBy b x.own))) || (List.range 5).any (fun r => (s.wc r).any (fun l => l.ofDomain d))

/-- A drained domain switches off in order (R451 step 4). -/
def State.powerOff (s : State) (d : Nat) : State :=
  let s1 := match domKind d with
    | .compute _ _ => s.each (domBlocks d) (fun t b =>
        let u := t.each (t.bc b).lines (fun v e => if e.2.isSome then v.evictB b (lineAt e.1) else v)
        if u.blockDust b then u else u.setBlk b { u.blk b with state := .off })
    | .net r => (s.portDown (2 * r)).portDown (2 * r + 1)
    | _ => s
  (s1.setDom d { s1.dom d with state := .off, cause := 2, current := 0 }).domainSetDone d false

/-- DOMAIN_DRAIN_COMPLETE: a draining domain has no task and no buffered store left: it switches off (R451). -/
def execDomainDrainComplete (d : Fin 50) (s : State) : Host.Outcome State Fault Refusal :=
  .next (if (s.dom d.val).state ≠ .draining then s
    else
      let s1 := s.drainDomain d.val
      if s1.domainBusy d.val then s1 else s1.powerOff d.val)

/-- IDLE_GATING: the blocks of a compute domain have been idle for PWR_IDLE microseconds, and the mode of the region gates (R454), or
the device is in D3hot (R463). -/
def execIdleGating (d : Fin 50) (s : State) : Host.Outcome State Fault Refusal :=
  .next (match domKind d.val with
    | .compute r _ => if (bit (s.modeOf r) 7 || s.hpt.d3hot) && s.gateable d.val then s.gate d.val else s
    | _ => s)

/-! ### The power cap (R460) -/

/-- PWR_CAP.WATTS as it acts (Table 17-11). -/
def State.capWatts (s : State) : Nat := Nat.min 1400 (Nat.max 400 (bits s.pwr.cap 31 16))

/-- How many steps of 10 µs PWR_CAP.WINDOW holds, rounded up (R460). -/
def State.capSteps (s : State) : Nat := (Nat.min 10000 (Nat.max 10 (bits s.pwr.cap 15 0)) + 9) / 10

/-- POWER_CAP_STEP: the currents of the domains in 100 mA and the rail voltage in mV over 10 µs; the controller forms P and moves S_CAP
(R460). Samples are in 0.1 mW. -/
def State.capStep (s : State) (currents : List W16) (mv : W16) : State :=
  let sample := (currents.take 50).foldl (fun a c => a + c.toNat) 0 * mv.toNat
  let n := s.capSteps
  let samples := (s.pwr.samples ++ [sample]).drop (s.pwr.samples.length + 1 - n)
  let total := samples.foldl Nat.add 0
  let k := samples.length * 10000
  let w := s.capWatts
  let above := decide (total > w * k)
  let under := decide (100 * total < 98 * w * k)
  let s16 := s.pwr.sCap.toNat
  let steps := if above ∧ s16 = 16 then s.pwr.overSteps + 1 else 0
  let s1 : State := { s with pwr := { s.pwr with
    samples := samples, power := BitVec.ofNat 16 (total / k),
    sCap := BitVec.ofNat 5 (if above then Nat.min 16 (s16 + 1) else if under then s16 - 1 else s16),
    overSteps := steps, capMiss := if above then s.pwr.capMiss || decide (steps ≥ n) else false } }
  s1.each (currents.take 50).zipIdx (fun t c => t.setDom c.2 { t.dom c.2 with current := c.1 })

/-- POWER_CAP_STEP: see State.capStep (R460). -/
def execPowerCapStep (currents : List W16) (mv : W16) (s : State) : Host.Outcome State Fault Refusal := .next (s.capStep currents mv)

/-! ### Throttling (R461, R409) -/

/-- A sensor's reading corrected by the calibration record, in sixteenths of a degree (Table 17-7). -/
def State.corrected (s : State) (i : Nat) (raw : W16) : W16 :=
  raw + BitVec.ofNat 16 ((Tab.get 0 s.pwr.cal (2 * i)).toNat + 256 * (Tab.get 0 s.pwr.cal (2 * i + 1)).toNat)

/-- PWR_THERM.THROTTLE as it acts (Table 17-11). -/
def State.throttle (s : State) : Int := (Nat.min 95 (Nat.max 70 s.pwr.therm.toNat) : Nat)

/-- The hottest sensor, the lowest number of equals. -/
def State.hottest (s : State) : Nat :=
  (List.range 64).foldl (fun h i => if (Tab.get 0 s.pwr.temp i).toInt > (Tab.get 0 s.pwr.temp h).toInt then i else h) 0

/-- The thermal step: the sensors are read, and at every tenth step S_THERM moves by one (R461). A sensor at 110 °C raises
THERMTRIP (R409), once. -/
def State.thermStep (s : State) (raw : List W16) : State :=
  let temp := (raw.take 64).zipIdx.foldl (fun (t : Tab W16) x => Tab.set 0 t x.2 (s.corrected x.2 x.1)) s.pwr.temp
  let s1 : State := { s with pwr := { s.pwr with temp := temp } }
  let h := s1.hottest
  let hot := (Tab.get 0 temp h).toInt
  let tick := decide (s.pwr.thermSub + 1 ≥ 10)
  let old := s.pwr.sTherm.toNat
  let new := if !tick then old else if hot ≥ 16 * s.throttle then Nat.min 16 (old + 1) else if hot ≤ 16 * (s.throttle - 3) then old - 1 else old
  let s2 : State := { s1 with pwr := { s1.pwr with
    hot := BitVec.ofInt 8 (max 0 (hot / 16)), thermSub := if tick then 0 else s.pwr.thermSub + 1, sTherm := BitVec.ofNat 5 new } }
  let s3 := if old = 0 ∧ new > 0 then s2.report 11 h 0 ((Tab.get 0 temp h).setWidth 64) else s2
  if s3.flt.thermtripN then
    s3.each ((List.range 64).filter (fun i => decide ((Tab.get 0 temp i).toInt ≥ 1760))) (fun t i => t.report 11 i 1 ((Tab.get 0 temp i).setWidth 64))
  else s3

/-- THERMAL_STEP: the 64 sensors are read (R461). -/
def execThermalStep (raw : List W16) (s : State) : Host.Outcome State Fault Refusal := .next (s.thermStep raw)

/-! ### Droops and clocks (R462, R466) -/

/-- DROOP_CROSSING: the voltage of a compute domain crosses its threshold; each response is an event (R462). -/
def execDroopCrossing (d : Fin 50) (s : State) : Host.Outcome State Fault Refusal :=
  .next (if (domBlocks d.val).isEmpty || !(s.domOn d.val) || s.pwr.droops.any (fun k => k == d.val) then s
    else ({ s with pwr := { s.pwr with droops := s.pwr.droops ++ [d.val] } } : State).report 11 (64 + d.val) 2 0)

/-- DROOP_RESPONSE_END: 256 cycles after the voltage has been back the response ends (R462). -/
def execDroopResponseEnd (d : Fin 50) (s : State) : Host.Outcome State Fault Refusal :=
  .next { s with pwr := { s.pwr with droops := s.pwr.droops.filter (fun k => k != d.val) } }

/-- PLL_LOSS_OF_LOCK: a PLL, of ACLK, FCLK, MCLK, HCLK, NCLK, SCLK and OCLK in this order, loses lock: DEVICE, or GRAVE for
OCLK (R466, Table 15-9). -/
def execPllLossOfLock (pll : Fin 7) (s : State) : Host.Outcome State Fault Refusal :=
  .next (if s.rst.plls.getLsbD pll.val = false then s
    else ({ s with rst := { s.rst with plls := setBit s.rst.plls pll.val false } } : State).report 12 pll.val (if pll.val = 6 then 1 else 0) 0)

end Sys2Proof.Machine
end

