-- ==== Sys2Proof/Machine/Primer.lean ====
section
/-! DEFINITION. The primer image on the flash: its checks, its records, and what a start takes from it (17_power_clocks_startup.md R469 to
R473; 18_identity_and_optical_modules.md R486). The places of fields inside records 1, 3, 4 and 5 are PRESUMED to follow one another in the
order given (notes/assumptions 28). -/
namespace Sys2Proof.Machine

/-! ### The flash -/

/-- Bytes of the flash. -/
def State.flashRead (s : State) (o n : Nat) : List Byte := (List.range n).map (fun k => Tab.get 0 s.pwr.flash (o + k))

/-- A number on the flash, little-endian. -/
def State.flashNum (s : State) (o n : Nat) : Nat := leVal (s.flashRead o n)

/-- The flash with bytes programmed. -/
def flashPut (f : Tab Byte) (o : Nat) (bs : List Byte) : Tab Byte := bs.zipIdx.foldl (fun t x => Tab.set 0 t (o + x.2) x.1) f

/-- The image is erased and programmed anew (R472). -/
def State.flashImage (s : State) (bs : List Byte) : State :=
  let keep : Tab Byte := s.pwr.flash.filter (fun x => decide (262144 ≤ x.1))
  ({ s with pwr := { s.pwr with flash := flashPut keep 0 bs } } : State).emit (.flash bs.length)

/-- Bytes with the check word of R469 at their end. -/
def withCheck (bs : List Byte) : List Byte := bs ++ leBytes 4 (crc32c bs).toNat

/-! ### The checks (R469, R470) -/

/-- The bytes that an image says it holds. -/
def State.imageLen (s : State) : Nat := s.flashNum 8 4

/-- Directory entry n: type, offset and size (Table 17-6). -/
def State.primerEntry (s : State) (n : Nat) : Nat × Nat × Nat :=
  (s.flashNum (16 + 12 * n) 2, s.flashNum (20 + 12 * n) 4, s.flashNum (24 + 12 * n) 4)

/-- The directory entries. -/
def State.primerDir (s : State) : List (Nat × Nat × Nat) := (List.range (s.flashNum 12 4)).map s.primerEntry

/-- The checks of R470, in their order. -/
def State.primerOk (s : State) : Bool :=
  let len := s.imageLen
  let n := s.flashNum 12 4
  s.flashNum 0 4 == 0x52504D50 && s.flashNum 4 4 == 1 &&
    (len % 4 == 0 && decide (256 ≤ len) && decide (len ≤ 262144)) && (decide (1 ≤ n) && decide (n ≤ 7)) &&
    s.primerDir.all (fun e => decide (e.2.1 + e.2.2 ≤ len)) &&
    decide ((s.primerDir.map (fun e => e.1)).Nodup) &&
    decide ((crc32c (s.flashRead 0 (len - 4))).toNat = s.flashNum (len - 4) 4)

/-- The bytes of a record, none when the image is not taken or omits it. -/
def State.record (s : State) (good : Bool) (typ need : Nat) : Option (List Byte) :=
  if !good then none
  else match s.primerDir.find? (fun e => e.1 == typ) with
    | some e => if e.2.2 < need then none else some (s.flashRead e.2.1 e.2.2)
    | none => none

/-! ### What a start takes (R471, Table 17-6) -/

/-- A number in a record. -/
def recNum (r : List Byte) (o n : Nat) : Nat := leVal ((r.drop o).take n)

/-- Record 1: subsystem IDs, device number, prefix and MAC addresses; 0xD2A9, 0x9620 and 0 by default. -/
def State.takeIdentity (s : State) (r : Option (List Byte)) : State :=
  let r1 := r.getD (leBytes 4 0x9620D2A9 ++ List.replicate 134 0)
  let s1 : State := { s with
    hpt := { s.hpt with cfg := { s.hpt.cfg with ssvid := BitVec.ofNat 16 (recNum r1 0 2), ssid := BitVec.ofNat 16 (recNum r1 2 2) } },
    xlt := { s.xlt with devnum := BitVec.ofNat 16 (recNum r1 4 2) },
    net := { s.net with pfxL := BitVec.ofNat 32 (recNum r1 6 4), pfxH := BitVec.ofNat 64 (recNum r1 10 8) } }
  s1.each (List.range 20) (fun t i => t.setIfc i { t.ifc i with mac := BitVec.ofNat 64 (recNum r1 (18 + 6 * i) 6) })

/-- Record 3: the populated ports and the map mode; every port and region-local by default. -/
def State.takeStacks (s : State) (r : Option (List Byte)) : State :=
  let r3 := r.getD [0xFF, 0xFF, 0x0F, 0]
  let pop : BitVec 20 := BitVec.ofNat 20 (recNum r3 0 3)
  let s1 : State := { s with pwr := { s.pwr with populated := pop, askSpread := recNum r3 3 1 % 2 == 1 } }
  s1.each (List.range 20) (fun t p => if pop.getLsbD p then
      (if (t.mport p).state = 0 then t.setMport p { t.mport p with state := 1 } else t)
    else t.setMport p { t.mport p with state := 0 })

/-- The mode that record 4 gives port p; 0 by default. -/
def primerMode (r : Option (List Byte)) (p : Nat) : BitVec 2 := BitVec.ofNat 2 (recNum (r.getD []) p 1)

/-- Record 5: the power cap and the throttle limit; 1,400 W, 100 µs and 95 °C by default. -/
def State.takeLimits (s : State) (r : Option (List Byte)) : State :=
  let r5 := r.getD (leBytes 4 0x05780064 ++ [95])
  { s with pwr := { s.pwr with cap := BitVec.ofNat 32 (recNum r5 0 4), therm := BitVec.ofNat 8 (recNum r5 4 1) } }

/-- An entry of record 6 (18_identity_and_optical_modules.md R486). -/
def lifeEntry (r : List Byte) (k : Nat) : Life :=
  let f : Byte := BitVec.ofNat 8 (recNum r (32 * k + 24) 1)
  { serial := BitVec.ofNat 128 (recNum r (32 * k) 16), hours := BitVec.ofNat 32 (recNum r (32 * k + 16) 4),
    rated := BitVec.ofNat 32 (recNum r (32 * k + 20) 4), warned := bit f 0, expired := bit f 1, age := k }

/-- The life records of record 6; none by default. -/
def lifeTable (r : Option (List Byte)) : List Life :=
  match r with
  | none => []
  | some bs => ((List.range 32).map (lifeEntry bs)).filter (fun e => e.serial != 0)

/-- A life record's 32 bytes. -/
def Life.bytes (e : Life) : List Byte :=
  leBytes 16 e.serial.toNat ++ leBytes 4 e.hours.toNat ++ leBytes 4 e.rated.toNat ++ [BitVec.ofNat 8 (b2n e.warned + 2 * b2n e.expired)] ++
    List.replicate 7 0

/-- The calibration values: record 7, or the wafer-test values in fuses (Table 17-7). -/
def State.takeCalibration (s : State) (r : Option (List Byte)) : State :=
  let cal : Tab Byte := match r with
    | some bs => flashPut [] 0 (bs.take 4352)
    | none => s.idn.fuses.cal.foldl (fun t x => Tab.set 0 t x.1 x.2) []
  { s with pwr := { s.pwr with cal := cal } }

/-- The start takes the primer image, or the fuse defaults for the whole image or for each record that it omits (R470, R471). Record 2 is
kept as it stands, for the trains of the links and the speed of the module buses. Life records are taken only while none are held, that is after power-on. -/
def State.takePrimer (s : State) (answers : Bool) : State :=
  let good := answers && s.primerOk
  let r4 := s.record good 4 10
  let life := if s.idn.life.isEmpty then lifeTable (s.record good 6 1024) else s.idn.life
  let s1 := (((s.takeIdentity (s.record good 1 138)).takeStacks (s.record good 3 4)).takeLimits (s.record good 5 5)).takeCalibration
    (s.record good 7 4352)
  let s2 := s1.each (List.range 10) (fun t p => t.setNport p { mode := primerMode r4 p, narrowed := false })
  let s3 : State := { s2 with idn := { s2.idn with
    maps := (s.record good 2 0).getD [], life := life, primerDefaulted := !good, meas1 := if good then digestWord (sha384 (s.flashRead 0 s.imageLen)) else 0 } }
  if good then s3 else s3.report 14 1 1 0

end Sys2Proof.Machine
end

