-- ==== Sys2Proof/Machine/Optical.lean ====
section
/-! DEFINITION. The optical modules: presence, life, and the narrowing of a port (18_identity_and_optical_modules.md R485 to R488;
19_die_ports_and_integration.md R504). -/
namespace Sys2Proof.Machine

/-! ### Life records (R486, R487) -/

/-- The entry of a serial number. -/
def State.lifeOf (s : State) (serial : BitVec 128) : Option Life := s.idn.life.find? (fun e => decide (e.serial = serial))

/-- Whether a module with a serial number is in some port. -/
def State.hasModule (s : State) (serial : BitVec 128) : Bool :=
  (List.range 10).any (fun p => match (s.modl p).id with | some m => decide (m.serial = serial) | none => false)

/-- The state with a serial's entry changed. -/
def State.updLife (s : State) (serial : BitVec 128) (f : Life → Life) : State :=
  { s with idn := { s.idn with life := updWhere (fun e : Life => decide (e.serial = serial)) f s.idn.life } }

/-- A new serial takes a free entry, or the one that has gone longest without a present module; it starts from 0 hours. -/
def State.addLife (s : State) (serial : BitVec 128) (rated : W32) : State :=
  let e : Life := { serial := serial, hours := 0, rated := rated, warned := false, expired := false, age := 0 }
  let old := s.idn.life
  let gone := old.filter (fun x => !(s.hasModule x.serial))
  let victim := gone.foldl (fun (v : Option Life) x => match v with | some y => if y.age < x.age then some x else v | none => some x) none
  let keep := if old.length < 32 then old else match victim with
    | some v => old.filter (fun x => decide (x.serial ≠ v.serial))
    | none => old.take 31
  { s with idn := { s.idn with life := keep ++ [e] } }

/-- The life records on the flash, in the image that holds them (R472). -/
def State.writeLife (s : State) : State :=
  if s.primerOk then
    match s.primerDir.find? (fun e => e.1 == 6) with
    | none => s
    | some e =>
      let bytes := ((s.idn.life.take 32).flatMap Life.bytes) ++ List.replicate (32 * (32 - s.idn.life.length)) 0
      let len := s.imageLen - 4
      let body := s.flashRead 0 len
      s.flashImage (withCheck (body.take e.2.1 ++ bytes.take e.2.2 ++ body.drop (e.2.1 + Nat.min e.2.2 bytes.length)))
  else s

/-- A module's life is judged: 90 % and the rated life are each told once per serial (R487). -/
def State.judgeLife (s : State) (p : Nat) : State :=
  let x := s.modl p
  match x.id with
  | none => s
  | some m =>
    let warn := !x.warned && decide (10 * x.hours.toNat ≥ 9 * x.rated.toNat)
    let ended := !x.expired && decide (x.hours.toNat ≥ x.rated.toNat)
    let s1 := (s.setModl p { x with warned := x.warned || warn, expired := x.expired || ended }).updLife m.serial (fun e => { e with
      warned := e.warned || warn, expired := e.expired || ended })
    let s2 := if warn then s1.report 8 p 0 0 else s1
    if ended then s2.report 8 p 1 0 else s2

/-! ### Presence (R485, R504) -/

/-- The rated life in use (R485). -/
def State.ratedOf (s : State) (rated : W32) : W32 :=
  if rated = 0 ∨ rated = 0xFFFFFFFF then BitVec.ofNat 32 (bits s.idn.optCtl 31 16) else rated

/-- A module of another serial restores the primer's mode (R488). -/
def State.primerPort (s : State) (p : Nat) : State :=
  let mode := primerMode (s.record (s.primerOk && !s.idn.primerDefaulted) 4 10) p
  let s1 := if (s.nport p).mode = mode then s else s.portMode p mode
  s1.setNport p { s1.nport p with narrowed := false }

/-- Whether a management bus runs at 400 kHz instead of 1 MHz: primer record 2 says so (19_die_ports_and_integration.md R503). -/
def State.busSlow (s : State) (bus : Nat) : Bool := !s.idn.maps.isEmpty && Config.busSlow s.idn.maps bus

/-- The levels of MODSEL_N with port p selected: low for it, high for the other ports of its bus; MOD0 serves ports 0 to 4 and MOD1 ports 5 to
9 (19_die_ports_and_integration.md R503). -/
def State.selected (s : State) (p : Nat) : BitVec 10 := setBit (s.idn.modsel ||| (if p < 5 then 0x1F else 0x3E0)) p false

/-- Transactions with the module of a port, which is selected 20 µs before the first (19_die_ports_and_integration.md R503). -/
def State.modTalk (s : State) (p : Nat) : State :=
  ({ s with idn := { s.idn with modsel := s.selected p } } : State).emit (.module (p / 5) (if s.busSlow (p / 5) then 400 else 1000) (s.selected p))

/-- MODULE_PRESENT: a module has been present for 10 ms, or is present at a start: its bus selects it, and its identity is read, or cannot be
(R485, R503, R504). -/
def execModulePresent (p : Fin 10) (id : Option ModuleId) (s0 : State) : Host.Outcome State Fault Refusal :=
  let n := p.val
  let again := (s0.modl n).inserted
  let s := s0.modTalk n
  .next (if !s0.rst.pd0Ready || (again && decide (s0.rst.phase ≠ .start)) then s0
    else match id with
    | none =>
      let s1 := s.setModl n { s.modl n with id := none, inserted := true, rstLow := false, lpm := true }
      (s1.portDown n).report 8 n 2 0
    | some m =>
      let other := (s.modl n).lastSerial != 0 && (s.modl n).lastSerial != m.serial
      let s1 := if (s.lifeOf m.serial).isSome then s else s.addLife m.serial (s.ratedOf m.rated)
      let e := (s1.lifeOf m.serial).getD { serial := m.serial, hours := 0, rated := 0, warned := false, expired := false, age := 0 }
      let s2 := (s1.updLife m.serial (fun e => { e with rated := s.ratedOf m.rated, age := 0 })).setModl n { s.modl n with
        id := some m, inserted := true, hours := e.hours, rated := s.ratedOf m.rated, warned := e.warned, expired := e.expired, failedLanes := if again then (s.modl n).failedLanes else 0,
        sinceWrite := if again then (s.modl n).sinceWrite else 0, lastSerial := m.serial, rstLow := false, lpm := false }
      (if other then s2.primerPort n else s2).judgeLife n)

/-- MODULE_REMOVED: a module leaves its port: its interfaces go down, and the life records are written (R486, R504). -/
def execModuleRemoved (p : Fin 10) (s : State) : Host.Outcome State Fault Refusal :=
  let n := p.val
  let x := s.modl n
  .next (if !x.inserted then s
    else
      let s1 : State := match x.id with
        | none => s
        | some m => { s with idn := { s.idn with life := s.idn.life.map (fun e => if e.serial = m.serial then { e with age := 0 } else { e with age := e.age + 1 }) } }
      ((s1.setModl n { Module.init with lastSerial := x.lastSerial }).portDown n).writeLife)

/-! ### Lanes (R488) -/

/-- A lane failure in mode 0 narrows the port to the half that works, or takes its interface down. -/
def State.narrow (s : State) (p : Nat) (lanes : BitVec 4) : State :=
  let low := lanes &&& 3 != 0
  let high := lanes &&& 12 != 0
  if low && high then s.ifcDown (2 * p)
  else
    let s1 := s.portMode p (if high then 2 else 3)
    (s1.setNport p { s1.nport p with narrowed := true }).report 8 p 2 0

/-- MODULE_INTERRUPT: the flags of a module are read, and report lanes that have failed (R488, R503, R504). -/
def execModuleInterrupt (p : Fin 10) (lanes : BitVec 4) (s0 : State) : Host.Outcome State Fault Refusal :=
  let n := p.val
  let s := s0.modTalk n
  .next (if !(s0.modl n).inserted then s0
    else if (s0.modl n).id.isNone || lanes == 0 then s
    else
      let s1 := s.setModl n { s.modl n with failedLanes := (s.modl n).failedLanes ||| lanes }
      let low := lanes &&& 3 != 0
      let high := lanes &&& 12 != 0
      match (s.nport n).mode.toNat with
      | 0 => if bit s.idn.optCtl 0 then s1.narrow n lanes else s1
      | 1 =>
        let s2 := if low then s1.ifcDown (2 * n) else s1
        if high then s2.ifcDown (2 * n + 1) else s2
      | 2 => if low then s1.ifcDown (2 * n) else s1
      | _ => if high then s1.ifcDown (2 * n) else s1)

/-! ### Hours (R486, R487) -/

/-- LASER_HOURS_UPDATE: a module's laser-on time reaches so many hours; every 168 of them the life records are written (R486,
R487). -/
def execLaserHoursUpdate (p : Fin 10) (hours : W32) (s : State) : Host.Outcome State Fault Refusal :=
  let n := p.val
  let x := s.modl n
  .next (match x.id with
    | none => s
    | some m =>
      if hours.toNat ≤ x.hours.toNat then s
      else
        let since := x.sinceWrite.toNat + (hours.toNat - x.hours.toNat)
        let s1 := ((s.setModl n { x with hours := hours, sinceWrite := if since ≥ 168 then 0 else BitVec.ofNat 32 since }).updLife m.serial
          (fun e => { e with hours := hours })).judgeLife n
        if since ≥ 168 then s1.writeLife else s1)

/-- LIFE_RECORD_WRITE: the life records are written to the flash (R486). -/
def execLifeRecordWrite (s : State) : Host.Outcome State Fault Refusal := .next s.writeLife

end Sys2Proof.Machine
end

