-- ==== Sys2Proof/Machine/Reset.lean ====
section
/-! DEFINITION. The resets and the start that follows each: power-on, conventional and warm reset, the sequence of the domains, and the
loss of the supply (17_power_clocks_startup.md R467 to R477; 09_host_port.md R253 to R255). -/
namespace Sys2Proof.Machine

/-! ### What a reset of the core leaves of each part (Table 17-8) -/

/-- A block as the fuses describe it (18_identity_and_optical_modules.md R481); its count of lost stores is kept. -/
def fusedBlock (f : Fuses) (b : Nat) (lost : W32) : Block :=
  let x : Block := { Block.init with lostStores := lost }
  match f.spare.find? (fun e => e.1.val == b) with
  | none => x
  | some e =>
    let y := (x.setCell e.2.val { Cell.init e.2.val with state := 3, logical := 31 }).setCell 16 { Cell.init 16 with state := 0 }
    let z : Block := { y with spareFused := true, spareUsed := true, spareFor := BitVec.ofNat 5 e.2.val, mapSpare := BitVec.ofNat 5 e.2.val }
    z.renumber

/-- A block after a warm reset: dust sheets of it and of its cells, the cell map and the count of lost stores stay; its stores and its
work are gone. -/
def Block.warm (x : Block) : Block :=
  let y := (List.range 17).foldl (fun (w : Block) p => w.setCell p { (w.cell p).spoiled with corrected := 0 }) x
  { y with
    state := if x.state = .dustsheet then .dustsheet else .idle, lastPasid := none, task := none, lostNow := [], bars := [],
    store := Memory.empty, aclk := 0, mode := 0x80, reserved := none }

/-- The blocks, their threads and the kernels after a reset of the core. -/
def State.coreBlocks (s : State) (conv : Bool) : State :=
  let s1 : State := { s with blocks := { s.blocks with thr := [], kernels := [], prevRegion := 4, ghosts := [] } }
  s1.each (List.range 100) (fun t b => t.setBlk b (if conv then fusedBlock t.idn.fuses b (t.blk b).lostStores else (t.blk b).warm))

/-- The caches after a reset of the core: empty; retired frames, failed ways and the counts of lines lost and poisoned stay, and a
conventional reset forgets the first corrected errors (07_caches_and_coherence.md R202, R203). What the eviction buffers hold goes on to
the host after a warm reset, and is lost at a conventional one (Table 7-9). -/
def State.coreCaches (s : State) (conv : Bool) : State :=
  let s1 : State := { s with coh := { s.coh with wc := [] } }
  let s2 := s1.each s1.coh.bc (fun t e => t.setBc e.1 { (t.bc e.1).emptied with once := if conv then [] else (t.bc e.1).once })
  s2.each (List.range 5) (fun t r =>
    let c := t.rc r
    t.setRc r { RCache.init with
      retired := c.retired, once := if conv then [] else c.once, wayfail := c.wayfail, poisoned := c.poisoned,
      hlost := if conv then satAdd c.hlost c.evict.length else c.hlost, evict := if conv then [] else c.evict,
      hostDead := c.hostDead && !conv })

/-- The ports after a reset of the core: a dead one, and one under a dust sheet, is excluded from the start; the others train again
(08_memory_stacks.md R225). A dust sheet ends at a conventional reset (15_faults_and_dust_sheets.md R410). -/
def State.restartPort (s : State) (mp : Nat) (conv : Bool) : State :=
  let p := s.mport mp
  let sheet := p.cause = 6 ∨ p.cause = 9
  let out := if p.state = 3 then !(conv && decide sheet)
             else s.dusted (.memPort (Fin.ofNat 20 mp)) || (s.regionDust (mp / 4) && p.state != 0)
  s.setMport mp { Port.init with
    cause := p.cause, state := if p.state = 0 then 0 else if out then 4 else 1 }

/-- The stacks after a reset of the core: link groups train, and the map of the last start stands until the next is built. -/
def State.coreStacks (s : State) (conv : Bool) : State :=
  let s1 := s.each (List.range 20) (fun t p => t.restartPort p conv)
  let s2 := s1.each (List.range 5) (fun t r => t.setMap r { t.map r with rspTimeout := 10000 })
  s2.each (List.range 10) (fun t g => t.setLg g { LinkGroup.init with training := !conv })

/-- The front-ends and engines after a reset of the core. The residue counts of the collective engines stay. -/
def State.coreEngines (s : State) : State :=
  let col : Tab CollEngine := (List.range 5).foldl (fun (t : Tab CollEngine) r =>
    Tab.set CollEngine.init t r { CollEngine.init with retried := (s.ceng r).retried, failed := (s.ceng r).failed }) []
  { s with
    que := { staleWait := 200, que := [], modeset := none, turn := [], eng := [] }, xlt := { Xlt.init with devnum := s.xlt.devnum },
    net := Net.init, col := { eng := col, seq := [], mseq := [], news := [], own := [] },
    skm := { nclk := 0, half := false, tsNclk := 0, tsOclk := 0, halted := false, lane := [] }, evt := Events.init }

/-- The fault collector after a reset of the core: the DEVICE latch clears, the GRAVE latch of the site processor as well, the sources
take their FLT_SEV classes, and the fallback sequencer stands by (15_faults_and_dust_sheets.md R401, R407, R408). -/
def State.coreFaults (s : State) (conv : Bool) : State :=
  let f := s.flt
  let stays := decide (bits f.chip 26 24 = 5) && !(decide (bits f.chip 23 20 = 13) && decide (bits f.chip 15 0 = 0))
  { s with
    flt := { f with
      chip := if stays then f.chip else 0, hb := 0, hbSeen := false, fallback := setBits f.fallback 3 0 0,
      src := f.src.map (fun e => (e.1, { e.2 with raised := 0, grace := false })),
      dust := if conv then [] else f.dust, noWalk := if conv then [] else f.noWalk, makeGood := none, seqRunning := false,
      salvage := false, readonly := false, pd1Cut := false, faultT := stays, faultC := !stays },
    hpt := { s.hpt with fatal := stays, fallback := false },
    snag := { s.snag with waits := s.snag.waits.map (fun w => if w.thread.isSome then { w with thread := none, counted := false } else w) } }

/-- The mailboxes and the firmware slot after a reset of the core; the measurement is kept across a warm reset. -/
def State.coreMail (s : State) (conv : Bool) : State :=
  { s with
    mail := { mb := [], bg := none, fw := .empty, fwBytes := [], fwHolder := none, fwVersion := 0,
              fwMeas := if conv then 0 else s.mail.fwMeas, resetAsked := false },
    idn := { s.idn with spdm := .none, spdmLog := [], spdmAuth := [], spdmMeas := [], measValid := s.idn.measValid && !conv } }

/-- The power controller after a reset of the core: every domain is on after a warm reset, but one that cannot be; PWR_LOST_STORES,
what stands on the flash and what the primer gave stay. -/
def State.corePower (s : State) (conv : Bool) : State :=
  let keep : Dom → Bool := fun d => decide (d.state = .failed) || decide (d.cause = 7)
  let p : Power := { Power.init with
    cap := s.pwr.cap, therm := s.pwr.therm, lostStores := s.pwr.lostStores, cal := s.pwr.cal, flash := s.pwr.flash,
    populated := s.pwr.populated, askSpread := s.pwr.askSpread, dom := s.pwr.dom.filter (fun e => keep e.2) }
  let s1 : State := { s with pwr := p }
  if conv then s1.each ((List.range 50).drop 1) (fun t d => t.setDom d { t.dom d with state := .off }) else s1

/-- The host port after a conventional reset: defaults but for the sticky status and the counts of writes discarded (09_host_port.md
Table 9-9); what stands in host memory is not known. -/
def HostPort.conventional (h : HostPort) : HostPort :=
  { HostPort.init with
    cfg := { Config.init with ssvid := h.cfg.ssvid, ssid := h.cfg.ssid, aerUnc := h.cfg.aerUnc, aerCorr := h.cfg.aerCorr, ready := false },
    rasUnc := h.rasUnc, rasCorr := h.rasCorr, rasLog := h.rasLog, fatal := h.fatal, hlDiscard := h.hlDiscard, flrLost := h.flrLost,
    mem := { era := h.mem.era + 1, cells := [], pois := [] } }

/-- A write of the flash that is cut short leaves an image that is erased, so that its checks fail (R472). -/
def State.cutWrite (s : State) : State :=
  match s.mail.bg with
  | none => s
  | some g => match g.kind with
    | .primerWrite _ _ => { s with pwr := { s.pwr with flash := s.pwr.flash.filter (fun x => decide (262144 ≤ x.1)) } }
    | .calibration _ => { s with pwr := { s.pwr with flash := s.pwr.flash.filter (fun x => decide (262144 ≤ x.1)) } }
    | _ => s

/-- The core is reset (R475, R476). -/
def State.resetCore (s : State) (conv : Bool) : State :=
  let c := s.cutWrite
  let s0 : State := if conv then { c with flt := { c.flt with dust := [], noWalk := [] } } else c
  let s1 := ((((s0.coreBlocks conv).coreCaches conv).coreStacks conv).coreEngines.coreFaults conv).coreMail conv
  let s2 := s1.corePower conv
  { s2 with hpt := if conv then s2.hpt.conventional else { s2.hpt with memActive := false, mbReady := false, reads := [] } }

/-! ### The start (Table 17-5) -/

/-- The order in which the domains switch on. -/
def startOrder : List Nat :=
  [3, 4] ++ (List.range 5).flatMap (fun r => [10 + 9 * r, 11 + 9 * r, 12 + 9 * r, 13 + 9 * r]) ++
    (List.range 5).flatMap (fun r => (List.range 5).map (fun c => 5 + 9 * r + c))

/-- The core starts: the six other PLLs run, and PD1 and PD2 are on. -/
def State.startCore (s : State) : State :=
  let s1 : State := { s with rst := { s.rst with phase := .start, steps := 0, plls := 0x7F } }
  (s1.setDom 1 { s1.dom 1 with state := .on }).setDom 2 { s1.dom 2 with state := .on }

/-- The core starts unless the test access port holds it (19_die_ports_and_integration.md R507). -/
def State.releaseCore (s : State) : State :=
  if s.idn.tapHolds then { s with idn := { s.idn with tapCoreHeld := true } } else s.startCore

/-- Whether the primer marks every unit of a domain as not populated. -/
def State.unpopulated (s : State) (d : Nat) : Bool :=
  match domKind d with
  | .links g => !(s.pwr.populated.getLsbD (2 * g)) && !(s.pwr.populated.getLsbD (2 * g + 1))
  | _ => false

/-- A domain switches on at a start: its blocks come up, its link group trains; one without populated units stays off. -/
def State.switchOn (s : State) (d : Nat) : State :=
  if (s.dom d).state = .failed then s
  else if s.unpopulated d then s.setDom d { s.dom d with state := .off, cause := 7 }
  else
    let s1 := s.setDom d { s.dom d with state := .on }
    match domKind d with
    | .links g => s1.train g
    | .compute _ _ => (domBlocks d).foldl (fun (t : State) b => t.blockPowered b) s1
    | _ => s1

/-- PRIMER_CHECK: the boot ROM has read the primer, if the flash answers (R470, R471). After a warm reset every domain is on by then. -/
def execPrimerCheck (answers : Bool) (s : State) : Host.Outcome State Fault Refusal :=
  .next (if s.rst.stopped || decide (s.rst.phase ≠ .start) || decide (s.rst.steps ≠ 0) then s
    else
      let s1 := s.takePrimer answers
      if (s1.dom 3).state = .on then
        let s2 := s1.each startOrder (fun t d => if t.unpopulated d then t.setDom d { t.dom d with state := .off, cause := 7 } else t)
        { s2 with rst := { s2.rst with steps := 48 } }
      else { s1 with rst := { s1.rst with steps := 1 } })

/-- DOMAIN_SEQUENCE_STEP: the next domain of the start switches on; after the last the configuration space and the mailboxes are ready
(R467; 09_host_port.md R254; 16_stolpel_and_events.md R435). -/
def execDomainSequenceStep (s : State) : Host.Outcome State Fault Refusal :=
  let k := s.rst.steps
  .next (if s.rst.stopped || decide (s.rst.phase ≠ .start) || decide (k = 0) then s
    else match startOrder[k - 1]? with
      | some d => let t := s.switchOn d; { t with rst := { t.rst with steps := k + 1 } }
      | none => { s with rst := { s.rst with phase := .none, steps := 50 },
                         hpt := { s.hpt with mbReady := true, cfg := { s.hpt.cfg with ready := true } } })

/-! ### Power-on (R467, R468, Table 17-4) -/

/-- POR_N falls: everything is lost at once, with no walk; the flash, the pins from outside and the test access port are not the
device's to lose (R474, R477). -/
def State.powerOn (s : State) (supply : Bool) : State :=
  let r := State.reset
  let s1 : State := { r with
    pending := s.pending, sent := s.sent, free := s.free,
    stk := { r.stk with mem := { era := s.stk.mem.era + 1, cells := [], pois := [] } },
    hpt := { r.hpt with mem := { era := s.hpt.mem.era + 1, cells := [], pois := [] }, memActive := false, mbReady := false,
                        cfg := { r.hpt.cfg with ready := false } },
    flt := { r.flt with driven := false },
    pwr := { r.pwr with flash := s.cutWrite.pwr.flash },
    rst := { phase := .porLow, warmLow := s.rst.warmLow, perstHigh := s.rst.perstHigh, pwrgd := supply, pd0Ready := false, steps := 0,
             plls := 0, stopped := false },
    idn := { r.idn with tap := s.idn.tap, tapHolds := s.idn.tapHolds, brdAddr := s.idn.brdAddr } }
  s1.each (List.range 50) (fun t d => t.setDom d { t.dom d with state := .off })

/-- POWER_ON_RESET: POR_N falls, while the supply is good or not (R474). -/
def execPowerOnReset (supply : Bool) (s : State) : Host.Outcome State Fault Refusal := .next (s.powerOn supply)

/-- PD0_START: POR_N has risen: OCLK runs, the fuses are loaded and checked, and PD0 is ready (Table 17-4). The core starts at once when
PERST_N is high already. -/
def execPd0Start (fuses : Fuses) (s : State) : Host.Outcome State Fault Refusal :=
  .next (if s.rst.phase ≠ .porLow ∨ s.rst.pwrgd = false then s
    else
      let bad := !(dsnOk fuses.dsn)
      let s1 : State := { s with
        rst := { s.rst with phase := .pd0Ready, pd0Ready := true, plls := 0x40 },
        flt := { s.flt with oclk := 0, driven := true, faultT := false, faultC := true, thermtripN := true },
        idn := { s.idn with fuses := fuses, fuseBad := bad } }
      let s2 := (s1.setDom 0 Dom.init).each (List.range 100) (fun t b => t.setBlk b (fusedBlock fuses b 0))
      let s3 := if bad then s2.report 14 0 0 0 else s2
      if s3.rst.perstHigh then s3.releaseCore else s3)

/-- CORE_START: PERST_N rises: the core starts when PD0 is ready, or when the walk before a conventional reset has ended (R467,
R476). -/
def execCoreStart (s : State) : Host.Outcome State Fault Refusal :=
  let s1 : State := { s with rst := { s.rst with perstHigh := true } }
  .next (if s.rst.stopped then s1
    else match s.rst.phase with
      | .pd0Ready => s1.releaseCore
      | .held true => s1.releaseCore
      | _ => s1)

/-! ### Warm and conventional reset (R475 to R477) -/

/-- A lane is disarmed by a reset. -/
def State.dropLane (s : State) (n : Nat) : State :=
  let x := s.lane n
  let s1 := s.each (List.range 100) (fun t b => if (t.blk b).reserved = some n then t.leaveLane b else t)
  s1.setLane n { x with state := .disarmed, lcb := [], qlcb := [], newLcb := [], inSvc := [], reload := [], frames := [], arm := none }

/-- A reset begins: dispatch stops, every queue stops and its kernels are aborted, lanes disarm, the network engine sends no new request,
and the buffers drain (Table 17-9). -/
def State.beginReset (s : State) (conv : Bool) : State :=
  let s1 := s.stopQueues.each (List.range 16) (fun t n => if (t.lane n).state = .disarmed then t else t.dropLane n)
  let s2 := s1.drainBuffers
  { s2 with net := { s2.net with quiet := true }, rst := { s2.rst with phase := .drain conv } }

/-- A warm-reset trigger: one during a reset is ignored (R477). -/
def State.warmTrigger (s : State) : State :=
  if s.rst.stopped || decide (s.rst.phase ≠ .none) then s else s.beginReset false

/-- CONVENTIONAL_RESET: PERST_N falls (R476); during a warm reset that becomes a conventional one (R477). -/
def execConventionalReset (s : State) : Host.Outcome State Fault Refusal :=
  let s1 : State := { s with rst := { s.rst with perstHigh := false } }
  .next (if s.rst.stopped then s1
    else match s.rst.phase with
      | .none => s1.beginReset true
      | .start => s1.beginReset true
      | .drain _ => { s1 with rst := { s1.rst with phase := .drain true } }
      | .held false =>
        let t := s1.resetCore true
        { t with rst := { t.rst with phase := .held true } }
      | _ => s1)

/-- The 64-byte sectors of stores that are still buffered, those of ended tasks and packets not yet sent among them (Table 17-9;
06_memory_ordering.md R171). -/
def State.stillBuffered (s : State) : Nat :=
  let accs := s.blocks.thr.flatMap (fun e => e.2.accs.flatMap Acc.lost)
  let lines := s.coh.wc.flatMap (fun e => e.2.flatMap (fun l => l.who.map (fun w => (l.tgt.plus w.1).sector)))
  let asked := s.coh.bc.flatMap (fun e => e.2.out.flatMap (s.reqLost e.1))
  let packets := s.net.qp.flatMap (fun e => (e.2.unsent.filter (fun x => (List.range 100).any (fun b => ownedBy b x.own))).flatMap
    (Sent.lost (s.peer e.1).toNat))
  (accs ++ lines ++ asked ++ packets).eraseDups.length

/-- The walk of the region caches before a reset: everything dirty is written back; on a conventional reset, or while the link is down, the dirty host
sectors are lost and counted, and lines that the host may have written are poisoned (R475, R476; 07_caches_and_coherence.md Table 7-9). -/
def State.resetWalk (s : State) (conv : Bool) : State :=
  s.each (List.range 5) (fun t r =>
    if t.regionDust r then t
    else if conv || !t.hpt.linkUp then
      (t.reclaimHost r).emptyRegionNow r
    else t.emptyRegionNow r)

/-- WARM_RESET_DRAIN_DEADLINE: 1 ms after the trigger, stores still buffered are lost and counted; the caches are walked, and the core is
reset. The start follows, once WARM_RST_N is high, or PERST_N (R475 to R477). -/
def execWarmResetDrainDeadline (s : State) : Host.Outcome State Fault Refusal :=
  .next (if s.rst.stopped then s
    else match s.rst.phase with
      | .drain conv =>
        let s1 : State := { s with pwr := { s.pwr with lostStores := satAdd s.pwr.lostStores s.stillBuffered } }
        let s2 := ((s1.resetWalk conv).resetCore conv)
        let s3 : State := { s2 with rst := { s2.rst with phase := .held conv } }
        if conv then (if s3.rst.perstHigh then s3.releaseCore else s3)
        else if s3.rst.warmLow then s3 else s3.startCore
      | _ => s)

/-- WARM_RST_PIN: WARM_RST_N has been low for so many OCLK cycles; from 50 on it asks for a warm reset, which is held at the walk's end while
the pin stays low (19_die_ports_and_integration.md R498; R477). -/
def execWarmRstPin (low : Nat) (s : State) : Host.Outcome State Fault Refusal :=
  .next (if low < 50 ∨ s.rst.pd0Ready = false then s
    else
      let t := s.warmTrigger
      { t with rst := { t.rst with warmLow := true } })

/-- WARM_RST_PIN_RELEASE: WARM_RST_N is high again: a warm reset held at the walk's end goes on (R477). -/
def execWarmRstPinRelease (s : State) : Host.Outcome State Fault Refusal :=
  let s1 : State := { s with rst := { s.rst with warmLow := false } }
  .next (if s.rst.stopped then s1
    else match s.rst.phase with
      | .held false => s1.startCore
      | _ => s1)

/-- WARM_RESET_REQUEST_DELAY: 1 ms after WARM_RESET_REQUEST the warm reset starts (15_faults_and_dust_sheets.md R418). -/
def execWarmResetRequestDelay (s : State) : Host.Outcome State Fault Refusal :=
  .next (if s.mail.resetAsked then ({ s with mail := { s.mail with resetAsked := false } } : State).warmTrigger else s)

/-- WARM_RESET_ABORT_DEADLINE: 10 ms after WARM_RESET, commands that still run are aborted, device memory and host sectors are flushed, the
life records are written, and the warm reset begins (16_stolpel_and_events.md R430; 18_identity_and_optical_modules.md R486). -/
def execWarmResetAbortDeadline (s : State) : Host.Outcome State Fault Refusal :=
  .next (match s.mail.bg with
    | some g => (if g.kind = .warmReset then
        let s1 := s.each s.que.que (fun t e => t.abortCmds e.1 10)
        let s2 := s1.each (List.range 5) (fun t r => if t.regionDust r then t else t.cleanRegion r true)
        s2.writeLife.warmTrigger
      else s)
    | none => s)

/-- PWRGD_LOSS: the supply is no longer good: every domain but PD0 is forced off, which is GRAVE, and the device stands still until POR_N
falls (R477). -/
def execPwrgdLoss (s : State) : Host.Outcome State Fault Refusal :=
  .next (if s.rst.pwrgd = false then s
    else
      let s1 := (s.allDown 6).report 11 114 4 0
      { s1 with rst := { s1.rst with pwrgd := false, stopped := true } })

end Sys2Proof.Machine
end

