-- ==== Sys2Proof/Machine/Boxes.lean ====
section
/-! DEFINITION. The mailbox protocol: how a command is issued, which are offered, and how one is refused before it runs
(16_stolpel_and_events.md R424 to R430, R435; 15_faults_and_dust_sheets.md R418). -/
namespace Sys2Proof.Machine

/-- A command of the mailboxes: its opcode, its input bytes, whether more data may follow them, and whether it needs the firmware
(Table 16-4, R435). -/
structure BoxCmd where
  opcode : Nat
  input : Nat
  more : Bool
  needsFw : Bool

/-- The commands that the mailboxes offer (R430, Table 16-4). -/
def boxCmds : List BoxCmd :=
  [⟨0x0400, 0, false, true⟩, ⟨0x0401, 24, false, true⟩, ⟨0x4000, 0, false, false⟩,
   ⟨0xC000, 0, false, false⟩, ⟨0xC001, 8, true, false⟩, ⟨0xC002, 0, false, false⟩, ⟨0xC003, 0, false, false⟩,
   ⟨0xC010, 32, false, true⟩, ⟨0xC011, 4, false, true⟩, ⟨0xC012, 4, false, true⟩, ⟨0xC013, 4, false, true⟩,
   ⟨0xC014, 4, false, true⟩, ⟨0xC015, 4, false, true⟩,
   ⟨0xC030, 8, false, true⟩, ⟨0xC031, 0, false, true⟩, ⟨0xC032, 8, false, true⟩, ⟨0xC033, 0, false, true⟩, ⟨0xC034, 0, false, true⟩] ++
  [⟨0xC050, 64, false, true⟩, ⟨0xC051, 8, false, true⟩, ⟨0xC052, 4, false, true⟩, ⟨0xC053, 4, false, true⟩, ⟨0xC054, 32, false, true⟩,
   ⟨0xC055, 8, false, true⟩, ⟨0xC056, 4, false, true⟩,
   ⟨0xC070, 68, false, true⟩, ⟨0xC071, 4, false, true⟩, ⟨0xC072, 4, false, true⟩, ⟨0xC073, 0, false, true⟩,
   ⟨0xC080, 4, false, true⟩, ⟨0xC081, 8, false, true⟩,
   ⟨0xC090, 4, false, true⟩, ⟨0xC091, 4, false, true⟩, ⟨0xC092, 0, false, false⟩, ⟨0xC093, 4, false, true⟩, ⟨0xC094, 0, false, false⟩,
   ⟨0xC095, 8, false, true⟩] ++
  [⟨0xC0A0, 8, false, true⟩, ⟨0xC0A1, 8, true, true⟩, ⟨0xC0A2, 0, false, true⟩, ⟨0xC0A3, 4356, false, true⟩, ⟨0xC0A4, 4, false, true⟩,
   ⟨0xC0A5, 0, false, true⟩, ⟨0xC0B0, 4, false, true⟩, ⟨0xC0B1, 8, false, true⟩, ⟨0xC0B2, 8, false, true⟩, ⟨0xC0B3, 0, false, true⟩]

/-- OPCODE of a mailbox (Table 16-1). -/
def Mailbox.opcode (x : Mailbox) : Nat := Machine.bits x.cmd 15 0

/-- LENGTH of a mailbox. -/
def Mailbox.len (x : Mailbox) : Nat := Machine.bits x.cmd 36 16

/-- The commands that the fallback sequencer answers (15_faults_and_dust_sheets.md Table 15-8). -/
def fallbackOps : List Nat := [0xC000, 0xC092, 0xC093, 0xC094]

/-- Why a command does not run at all: RETURN and EXT (Table 16-2). -/
def State.boxRefusal (s : State) (m : Bool) : Option (Nat × Nat) :=
  let x := s.box m
  match boxCmds.find? (fun c => c.opcode == x.opcode) with
  | none => some (3, 0)
  | some c =>
    if s.hpt.fallback && !(fallbackOps.any (fun o => o == c.opcode)) then some (3, 0)
    else if c.needsFw && !s.hpt.fallback && decide (s.mail.fw ≠ .running) then some (5, 4)
    else if (if c.more then decide (x.len < c.input) else x.len != c.input) || decide (x.len > 2 ^ 20) then some (0x16, 0)
    else none

/-- Whether the mailboxes wait: the fallback sequencer serves none until HOST_LOST has ended (09_host_port.md R264), and the site processor none
while its domain has no power (17_power_clocks_startup.md Table 17-1). -/
def State.boxesWait (s : State) : Bool := if s.hpt.fallback then s.hpt.hostLost else !s.domOn 1

/-- A command in progress completes at once when it is refused. -/
def State.judgeBox (s : State) (m : Bool) : State :=
  if (s.box m).busy = false ∨ s.boxesWait then s
  else match s.boxRefusal m with
    | some (ret, ext) => s.boxDone m ret ext []
    | none => s

/-- A caller sets DOORBELL: the command is in progress, or completes at once when it is refused (R425, R430). -/
def State.submit (s : State) (m : Bool) : State :=
  let x := s.box m
  if bit x.ctl 0 then s else (s.setBox m { x with ctl := setBit x.ctl 0 true, busy := true, late := (s.box (!m)).busy }).judgeBox m

/-- The driver's write ends HOST_LOST, and what waited in the mailboxes is looked at (09_host_port.md R262, R264). -/
def State.endHostLost (s : State) : State :=
  if s.boxesWait then (s.hostBack.judgeBox false).judgeBox true else s.hostBack

/-- HOST_LOST_CLEAR: the driver ends HOST_LOST (09_host_port.md R262). -/
def execHostLostClear (s : State) : Host.Outcome State Fault Refusal := .next (s.barWrite 2 0x8000 State.endHostLost)

/-- Where a mailbox begins. -/
def boxBase (m : Bool) : Nat := if m then 0x3000000 else 0x2800000

/-- MAILBOX_DOORBELL: a caller writes DOORBELL = 1 (R425). -/
def execMailboxDoorbell (mb : Bool) (s : State) : Host.Outcome State Fault Refusal :=
  .next (s.barWrite 2 (boxBase mb + 4) (fun t => t.submit mb))

/-- The object that a command with an opcode and input acts on, as its kind and its number (R427): a queue, a queue pair, an implicit one, a
window, a group, a lane, a unit, the primer or the firmware slot. -/
def boxObject (op : Nat) (i : List Byte) : Option (Nat × Nat) :=
  let n := leVal (i.take 4)
  if 0xC010 ≤ op ∧ op ≤ 0xC015 then some (0, n)
  else if 0xC051 ≤ op ∧ op ≤ 0xC053 then some (1, n)
  else if op = 0xC056 then some (2, n % 65536)
  else if op = 0xC054 then some (3, n)
  else if 0xC070 ≤ op ∧ op ≤ 0xC072 then some (4, n)
  else if op = 0xC080 then some (5, n)
  else if op = 0xC090 ∨ op = 0xC091 ∨ op = 0xC095 then some (6, n % 2 ^ 20)
  else if 0xC0A0 ≤ op ∧ op ≤ 0xC0A3 then some (7, 0)
  else if 0xC001 ≤ op ∧ op ≤ 0xC003 then some (8, 0)
  else none

/-- The object of the command that a mailbox holds. -/
def Mailbox.object (x : Mailbox) : Option (Nat × Nat) := boxObject x.opcode ((List.range 4).map (fun k => Tab.get 0 x.payload k))

/-- Whether a mailbox's command waits for one of the other mailbox: that one's doorbell came first, and both act on one object
(R427). -/
def State.boxBehind (s : State) (m : Bool) : Bool :=
  (s.box m).late && (s.box m).object.isSome && decide ((s.box m).object = (s.box (!m)).object)

/-- A command runs when it is in progress in its mailbox, no earlier one acts on its object, and no reset has taken the site processor
from it (R427, R428). -/
def State.runBox (s : State) (m : Bool) (op : Nat) (f : State → List Byte → State) : State :=
  let x := s.box m
  if x.busy ∧ x.opcode = op ∧ s.rst.phase = .none ∧ (s.boxRefusal m).isNone ∧ s.boxesWait = false ∧ s.boxBehind m = false
  then f s ((List.range x.len).map (fun k => Tab.get 0 x.payload k)) else s

/-- A command completes with Success. -/
def State.boxOk (s : State) (m : Bool) (out : List Byte) : State := s.boxDone m 0 0 out

/-- A command completes with a failure that returns the offset of a field and a reason: Invalid Input, or FW Verification Failed
(R429). -/
def State.boxFail (s : State) (m : Bool) (ret off ext : Nat) : State := s.boxDone m ret ext (leBytes 4 off ++ leBytes 4 ext)

/-- A field of the input at an offset is out of its range. -/
def State.boxRange (s : State) (m : Bool) (off : Nat) : State := s.boxFail m 2 off 1

/-- The object is not in a state that accepts the command. -/
def State.boxState (s : State) (m : Bool) : State := s.boxFail m 2 0 2

/-- A background command begins, unless one runs already (R426). -/
def State.boxStart (s : State) (m : Bool) (op : Nat) (kind : BgKind) (f : State → State) : State :=
  match s.mail.bg with
  | some _ => s.boxDone m 6 0 []
  | none =>
    let s1 := s.boxDone m 1 0 []
    let s2 := s1.setBox m { s1.box m with bgOpcode := BitVec.ofNat 16 op, bgPercent := 0 }
    f { s2 with mail := { s2.mail with bg := some { mb := m, opcode := BitVec.ofNat 16 op, kind := kind, result := none, step := 0 } } }

/-- A number of the input. -/
def inNum (bs : List Byte) (o n : Nat) : Nat := leVal ((bs.drop o).take n)

end Sys2Proof.Machine
end

