-- ==== Sys2Proof/Machine/Regs.lean ====
section
/-! DEFINITION. The registers by their BAR0 offsets: what each reads as, what a read clears, and what a write does (00_scope.md R6 to R14;
09_host_port.md R237 to R241), and the accesses to them by the host and by threads through the control window
(05_veltur_instructions.md R150 to R152). -/
namespace Sys2Proof.Machine

/-- A register: its width in 32-bit words, its value, what a read clears, what a write of its whole width does, and the latch of the low
half of one marked "latched" (R13). -/
structure Reg where
  words : Nat := 1
  read : State → Nat := fun _ => 0
  clear : State → State := fun s => s
  write : W64 → State → State := fun _ s => s
  latch : Option ((State → W32) × (W32 → State → State)) := none

/-- Entry and remainder of an offset in an array of n entries from a base on. -/
def inArray (o base stride n : Nat) : Option (Nat × Nat) :=
  if base ≤ o ∧ o < base + stride * n then some ((o - base) / stride, (o - base) % stride) else none

/-- The 32-bit word of a register of one word, at offset a. -/
def reg1 (o a : Nat) (r : Reg) : Option (Reg × Nat) := if o = a then some (r, 0) else none

/-- The words of a register of two words, at offsets a and a + 4. -/
def reg2 (o a : Nat) (r : Reg) : Option (Reg × Nat) :=
  if o = a then some ({ r with words := 2 }, 0) else if o = a + 4 then some ({ r with words := 2 }, 1) else none

/-- A register that only reads. -/
def ro (f : State → Nat) : Reg := { read := f }

/-- The value of a bit at a place. -/
def at' (b : Bool) (n : Nat) : Nat := b2n b * 2 ^ n

/-! ### Event controller, faults, snag queue (Tables 16-8 to 16-11, 15-10 to 15-15) -/

/-- The EVT window. -/
def evtReg (o : Nat) : Option (Reg × Nat) :=
  match inArray o 0 8 8 with
  | some (w, _) => reg2 o (8 * w) { read := fun s => bits s.evt.pending (64 * w + 63) (64 * w), write := fun v s => s.writePending w v }
  | none => match inArray o 0x40 8 8 with
    | some (w, _) => reg2 o (0x40 + 8 * w) { read := fun s => bits s.evt.enable (64 * w + 63) (64 * w), write := fun v s => s.writeEnable w v }
    | none => match inArray o 0x80 8 8 with
      | some (w, _) => reg2 o (0x80 + 8 * w) { read := fun s => bits s.evt.mask (64 * w + 63) (64 * w), write := fun v s => s.writeMask w v }
      | none => match inArray o 0x1000 4 128 with
        | some (w, _) => reg1 o (0x1000 + 4 * w) (ro (fun s => leVal ((List.range 4).map (fun k => Tab.get 0 s.evt.cnt (4 * w + k)))))
        | none => match inArray o 0x1200 4 128 with
          | some (w, _) => reg1 o (0x1200 + 4 * w) { write := fun v s => s.ackEvents w (v.setWidth 32) }
          | none => match inArray o 0x2000 4 512 with
            | some (n, _) => reg1 o (0x2000 + 4 * n) {
                read := fun s => (Tab.get 0 s.evt.route n).toNat,
                write := fun v s => s.writeRoute n (v.setWidth 32) }
            | none => reg1 o 0xC0 { write := fun v s => s.raiseEvent (v.setWidth 32) }

/-- FLT_SUMMARY: the groups with a sticky bit set. -/
def State.fltSummary (s : State) : Nat :=
  (List.range 16).foldl (fun a g => a + at' (s.flt.sticky.any (fun e => e.1 / 512 == g)) g) 0

/-- The FLT window. -/
def fltReg (o : Nat) : Option (Reg × Nat) :=
  match inArray o 0x40 4 16 with
  | some (g, _) => reg1 o (0x40 + 4 * g) {
      read := fun s => (Tab.get 0 s.flt.promoted g).toNat,
      clear := fun s => { s with flt := { s.flt with promoted := Tab.set 0 s.flt.promoted g 0 } } }
  | none => match inArray o 0x1000 8 256 with
    | some (n, _) => reg2 o (0x1000 + 8 * n) {
        read := fun s => if n % 16 < 8 then (s.sev (n / 16) (n % 16)).toNat else 0,
        write := fun v s => s.writeSev (n / 16) (n % 16) v }
    | none => match inArray o 0x4000 64 16 with
      | some (i, k) => some ({ words := 16, read := fun s => ((s.flt.last[i]?).getD 0).toNat }, k / 4)
      | none => match inArray o 0x8000 4 8192 with
        | some (n, _) => reg1 o (0x8000 + 4 * n) {
            read := fun s => (Tab.get 0 s.flt.sticky n).toNat,
            write := fun v s => { s with flt := { s.flt with
              sticky := Tab.set 0 s.flt.sticky n (Tab.get 0 s.flt.sticky n &&& ~~~(v.setWidth 32)) } } }
        | none =>
          if o < 8 then reg2 o 0 (ro (fun s => s.flt.oclk.toNat))
          else if o = 8 then reg1 o 8 (ro (fun s => s.flt.chip.toNat))
          else if o = 0x10 then reg1 o 0x10 {
              read := fun s => s.flt.fenceTimeout.toNat,
              write := fun v s => { s with flt := { s.flt with fenceTimeout := v.setWidth 32 } } }
          else if o = 0x14 then reg1 o 0x14 (ro (fun s => s.flt.hb.toNat))
          else if o = 0x18 ∨ o = 0x1C then reg2 o 0x18 (ro (fun s => s.flt.fallback.toNat))
          else reg1 o 0x20 (ro State.fltSummary)

/-- SNAG_STATUS (Table 15-14). -/
def State.snagStatus (s : State) : Nat :=
  let ths := (s.snag.waits.filterMap (fun w => w.thread)).eraseDups
  ths.length * 65536 + at' (bit s.snag.ctl 0 && s.ringDown) 2 + at' (s.snag.waits.any (fun w => w.thread.isNone)) 1 + b2n s.snag.overflow

/-- The SNAG window. -/
def snagReg (o : Nat) : Option (Reg × Nat) :=
  match inArray o 0x100 4 16 with
  | some (c, _) => reg1 o (0x100 + 4 * c) {
      read := fun s => (Tab.get 0 s.snag.lost c).toNat,
      clear := fun s => { s with snag := { s.snag with lost := Tab.set 0 s.snag.lost c 0 } } }
  | none =>
    if o < 8 then reg2 o 0 {
      read := fun s => s.snag.base.toNat,
      write := fun v s => if bit s.snag.ctl 0 then s else { s with snag := { s.snag with base := v &&& 0xFFFFFFFFFFFFFFC0 } },
      latch := some (fun s => s.snag.baseLow, fun v s => { s with snag := { s.snag with baseLow := v } }) }
    else if o = 8 then reg1 o 8 { read := fun s => s.snag.ctl.toNat, write := fun v s => s.writeSnagCtl (v.setWidth 32) }
    else if o = 0x10 then reg1 o 0x10 {
        read := State.snagStatus,
        write := fun v s => if bit v 0 then { s with snag := { s.snag with overflow := false } } else s }
    else reg2 o 0x18 {
      read := fun s => s.snag.ci.toNat * 2 ^ 32 + at' s.snag.phase 20 + s.snag.pi.toNat,
      write := fun v s => s.writeSnagCi (BitVec.ofNat 20 (bits v 51 32)),
      latch := some (fun s => s.snag.ciLow, fun v s => { s with snag := { s.snag with ciLow := v } }) }

/-! ### Power and identity (Tables 17-10 to 17-13, 18-3, 18-4) -/

/-- The code of a domain's state. -/
def DomState.code : DomState → Nat
  | .off => 0 | .on => 1 | .gated => 2 | .poweringUp => 3 | .draining => 4 | .failed => 5

/-- PWR_DOM. -/
def Dom.word (d : Dom) : Nat := d.current.toNat * 65536 + d.cause.toNat * 16 + d.state.code

/-- PWR_MODE. -/
def State.pwrMode (s : State) : Nat := at' s.pwr.transition 56 + s.pwr.scope.toNat * 2 ^ 40 + s.pwr.modes.toNat

/-- PWR_STATUS. -/
def State.pwrStatus (s : State) : Nat :=
  s.pwr.power.toNat * 65536 + s.pwr.sCap.toNat * 256 + s.pwr.sTherm.toNat * 8 + at' (!s.pwr.droops.isEmpty) 2 + at' s.pwr.capMiss 1 +
    b2n (s.pwr.sTherm != 0)

/-- PWR_THERM. -/
def State.pwrTherm (s : State) : Nat := s.pwr.hot.toNat * 65536 + s.pwr.therm.toNat

/-- The PWR window. -/
def pwrReg (o : Nat) : Option (Reg × Nat) :=
  match inArray o 0x100 4 50 with
  | some (d, _) => reg1 o (0x100 + 4 * d) (ro (fun s => (s.dom d).word))
  | none => match inArray o 0x200 4 64 with
    | some (i, _) => reg1 o (0x200 + 4 * i) (ro (fun s => (Tab.get 0 s.pwr.temp i).toNat))
    | none =>
      if o < 8 then reg2 o 0 (ro State.pwrMode)
      else if o = 8 then reg1 o 8 { read := fun s => s.pwr.cap.toNat, write := fun v s => { s with pwr := { s.pwr with cap := v.setWidth 32 } } }
      else if o = 0xC then reg1 o 0xC (ro State.pwrStatus)
      else if o = 0x10 then reg1 o 0x10 { read := State.pwrTherm, write := fun v s => { s with pwr := { s.pwr with therm := v.setWidth 8 } } }
      else if o = 0x18 then reg1 o 0x18 {
          read := fun s => s.pwr.lostStores.toNat,
          clear := fun s => { s with pwr := { s.pwr with lostStores := 0 } } }
      else reg1 o 0x20 { read := fun s => s.pwr.idle.toNat, write := fun v s => { s with pwr := { s.pwr with idle := v.setWidth 32 } } }

/-- IDN_STATUS. -/
def State.idnStatus (s : State) : Nat := at' s.idn.fuseBad 2 + at' s.idn.measValid 1 + b2n s.idn.primerDefaulted

/-- IDN_OPT_STATUS. -/
def Module.status (x : Module) : Nat := at' x.id.isSome 7 + at' x.warned 6 + at' x.expired 5 + x.failedLanes.toNat

/-- The IDN window. -/
def idnReg (o : Nat) : Option (Reg × Nat) :=
  match inArray o 0x100 16 10 with
  | some (p, k) =>
    if k = 0 then reg1 o o (ro (fun s => (s.modl p).hours.toNat))
    else if k = 4 then reg1 o o (ro (fun s => (s.modl p).rated.toNat))
    else if k = 8 then reg1 o o (ro (fun s => (s.modl p).status))
    else none
  | none =>
    if o = 0 then reg1 o 0 (ro State.idnStatus)
    else if o = 8 ∨ o = 0xC then reg2 o 8 (ro (fun s => s.idn.fuses.dsn.toNat))
    else reg1 o 0x10 {
        read := fun s => s.idn.optCtl.toNat,
        write := fun v s => { s with idn := { s.idn with optCtl := v.setWidth 32 &&& 0xFFFF0001 } } }

/-! ### Queues, copy engines, translation (Tables 11-10 to 11-13, 10-7 to 10-12) -/

/-- The code of a queue's state. -/
def QState.code : QState → Nat
  | .disabled => 0 | .running => 1 | .quiescing => 2 | .quiesced => 3 | .stopped => 4

/-- QUE_STATUS. -/
def Queue.status (x : Queue) : Nat := x.bits.toNat * 64 + x.state.code

/-- QUE_IDX. -/
def Queue.idx (x : Queue) : Nat := x.pi.toNat * 2 ^ 32 + at' x.phase 16 + x.ci.toNat

/-- A write of a queue's ring registers: only while the queue is DISABLED, and refused otherwise (R287). -/
def State.quePut (s : State) (q : Nat) (f : Queue → Queue) : State :=
  if (s.q q).state = .disabled then s.setQ q (f (s.q q)) else s.refuseQ q

/-- A value of QUE_CFG under its reserved bits; a reserved SIZE leaves the field (R11). -/
def cfgValue (old v : W64) : W64 :=
  let x := v &&& 0x00000FFFFF0FFFFF
  if bits v 27 24 < 4 then setBits x 27 24 (bits old 27 24) else x

/-- QUE_RING is written. -/
def State.putRing (s : State) (q : Nat) (v : W64) : State := s.quePut q (fun x => { x with ring := v &&& 0xFFFFFFFFFFFFFC00 })
/-- QUE_CPL is written. -/
def State.putCpl (s : State) (q : Nat) (v : W64) : State := s.quePut q (fun x => { x with cpl := v &&& 0xFFFFFFFFFFFFFF00 })
/-- QUE_CFG is written. -/
def State.putCfg (s : State) (q : Nat) (v : W64) : State := s.quePut q (fun x => { x with cfg := cfgValue x.cfg v })

/-- The QUE window. -/
def queReg (o : Nat) : Option (Reg × Nat) :=
  match inArray o 0x1000 0x40 1024 with
  | some (q, k) =>
    let a := 0x1000 + 0x40 * q
    if k < 8 then reg2 o a {
        read := fun s => (s.q q).ring.toNat, write := fun v s => s.putRing q v,
        latch := some (fun s => (s.q q).ringLow, fun v s => s.quePut q (fun x => { x with ringLow := v })) }
    else if k < 0x10 then reg2 o (a + 8) {
        read := fun s => (s.q q).cpl.toNat, write := fun v s => s.putCpl q v,
        latch := some (fun s => (s.q q).cplLow, fun v s => s.quePut q (fun x => { x with cplLow := v })) }
    else if k < 0x18 then reg2 o (a + 0x10) {
        read := fun s => (s.q q).cfg.toNat, write := fun v s => s.putCfg q v,
        latch := some (fun s => (s.q q).cfgLow, fun v s => s.quePut q (fun x => { x with cfgLow := v })) }
    else if k = 0x18 then reg1 o o { write := fun v s => s.queCtl q (bits v 2 0) }
    else if k = 0x20 then reg1 o o {
        read := fun s => (s.q q).status,
        write := fun v s => if bit v 11 then s.setQ q { s.q q with bits := setBit (s.q q).bits 5 false } else s }
    else if k = 0x28 ∨ k = 0x2C then reg2 o (a + 0x28) (ro (fun s => (s.q q).idx))
    else none
  | none => reg1 o 0 {
      read := fun s => s.que.staleWait.toNat,
      write := fun v s => { s with que := { s.que with staleWait := v.setWidth 16 } } }

/-- The CPY window. -/
def cpyReg (o : Nat) : Option (Reg × Nat) :=
  match inArray o 0 0x40 16 with
  | some (e, k) =>
    if k = 0 then reg1 o o (ro (fun s =>
      (match (s.eng e).pieces with | p :: _ => p.q * 65536 | [] => 0) + (s.eng e).pieces.length))
    else reg2 o (0x40 * e + 8) { read := fun s => (s.eng e).bytes.toNat, clear := fun s => s.setEng e { s.eng e with bytes := 0 } }
  | none => none

/-- XLT_STATUS. -/
def State.xltStatus (s : State) : Nat := s.xlt.pri.length * 4096 + s.xlt.invs.length * 64 + s.xlt.refusals.toNat

/-- A write of XLT_INV_CMD: while BUSY is 1 every write with GO sets INV_REFUSED; the reserved scope does nothing else (R281). -/
def State.xltInv (s : State) (v : W64) : State :=
  let p : BitVec 20 := v.setWidth 20
  if bit v 31 = false then s
  else match bits v 30 29 with
    | 0 => s.invScope0 p
    | 1 => s.invScope1 p
    | 2 => s.invScope2
    | _ => if s.xlt.mirrorInv.isSome then { s with xlt := { s.xlt with refusals := s.xlt.refusals ||| 2 } } else s

/-- XLT_MEMBER is written. -/
def State.putMember (s : State) (m : Nat) (v : W32) : State :=
  { s with xlt := { s.xlt with member := Tab.set 0 s.xlt.member m (v &&& 0x8000FFFF) } }

/-- The XLT window. -/
def xltReg (o : Nat) : Option (Reg × Nat) :=
  match inArray o 0x40 8 8 with
  | some (m, _) => reg1 o (0x40 + 8 * m) { read := fun s => (Tab.get 0 s.xlt.member m).toNat, write := fun v s => s.putMember m (v.setWidth 32) }
  | none =>
    if o < 8 then reg2 o 0 {
        read := fun s => s.xlt.gctl.toNat, write := fun v s => s.writeGctl v,
        latch := some (fun s => s.xlt.gctlLow, fun v s => { s with xlt := { s.xlt with gctlLow := v } }) }
    else if o = 8 then reg1 o 8 (ro (fun s => s.xlt.devnum.toNat))
    else if o = 0x10 ∨ o = 0x14 then reg2 o 0x10 {
      read := fun s => s.xlt.ctxBase.toNat, write := fun v s => { s with xlt := { s.xlt with ctxBase := v &&& 0x00003FFFFFFFF01F } },
      latch := some (fun s => s.xlt.ctxLow, fun v s => { s with xlt := { s.xlt with ctxLow := v } }) }
    else if o = 0x20 ∨ o = 0x24 then reg2 o 0x20 {
      read := fun s => s.xlt.invAddr.toNat, write := fun v s => { s with xlt := { s.xlt with invAddr := v &&& 0x0000FFFFFFFFFFFF } } }
    else if o = 0x28 then reg1 o o { write := fun v s => s.xltInv v }
    else if o = 0x30 then reg1 o o (ro (fun s => b2n s.xlt.mirrorInv.isSome))
    else if o = 0x38 then reg1 o o {
        read := fun s => s.xlt.priTimeout.toNat,
        write := fun v s => { s with xlt := { s.xlt with priTimeout := v.setWidth 32 } } }
    else if o = 0x80 then reg1 o o {
        read := State.xltStatus,
        write := fun v s => { s with xlt := { s.xlt with refusals := s.xlt.refusals &&& ~~~(v.setWidth 2) } } }
    else reg1 o 0x88 { read := fun s => s.xlt.faults.toNat, clear := fun s => { s with xlt := { s.xlt with faults := 0 } } }

/-! ### Network, collectives, skim lanes (Tables 12-11 to 12-18, 13-7 to 13-10, 14-10 to 14-13) -/

/-- NET_STATUS. -/
def State.netStatus (s : State) : Nat :=
  (s.net.qp.filter (fun e => decide (e.1 < 65536) && decide (e.2.state = .dead))).length * 65536 + at' s.net.winBusy 15 + s.net.cached.length

/-- A window of the network engine by its registers. -/
def State.netWin (s : State) (w : Nat) : Win := Tab.get Win.init s.net.win w

/-- The state with a window's latches replaced. -/
def State.setNetWin (s : State) (w : Nat) (x : Win) : State := { s with net := { s.net with win := Tab.set Win.init s.net.win w x } }

/-- NET_QP_DB (Table 12-14). -/
def State.qpBell (s : State) (v : W64) : State :=
  let n := bits v 49 32
  if bit v 63 then s.recvBell n (v.setWidth 16) else s.sendBell n (v.setWidth 16)

/-- The NET global window. -/
def netReg (o : Nat) : Option (Reg × Nat) :=
  match inArray o 0x1000 0x20 256 with
  | some (w, k) =>
    let a := 0x1000 + 0x20 * w
    if k < 8 then reg2 o a {
        read := fun s => (s.netWin w).base.toNat,
        write := fun v s => s.setWindow w v (s.netWin w).len (s.netWin w).src,
        latch := some (fun s => (s.netWin w).baseLow, fun v s => s.setNetWin w { s.netWin w with baseLow := v }) }
    else if k < 0x10 then reg2 o (a + 8) {
        read := fun s => (s.netWin w).len.toNat,
        write := fun v s => s.setWindow w (s.netWin w).base v (s.netWin w).src,
        latch := some (fun s => (s.netWin w).lenLow, fun v s => s.setNetWin w { s.netWin w with lenLow := v }) }
    else if k = 0x10 then reg1 o o {
        read := fun s => (s.netWin w).src.toNat,
        write := fun v s => s.setWindow w (s.netWin w).base (s.netWin w).len (v.setWidth 32) }
    else none
  | none =>
    if o < 8 then reg2 o 0 {
        read := fun s => s.net.gctl.toNat, write := fun v s => s.netGctl v,
        latch := some (fun s => s.net.gctlLow, fun v s => { s with net := { s.net with gctlLow := v } }) }
    else if o < 0x10 then reg2 o 8 {
        read := fun s => s.net.pfxH.toNat, write := fun v s => { s with net := { s.net with pfxH := v } },
        latch := some (fun s => s.net.pfxHLow, fun v s => { s with net := { s.net with pfxHLow := v } }) }
    else if o = 0x10 then reg1 o o { read := fun s => s.net.pfxL.toNat, write := fun v s => { s with net := { s.net with pfxL := v.setWidth 32 } } }
    else if o = 0x18 ∨ o = 0x1C then reg2 o 0x18 {
      read := fun s => s.net.qpcBase.toNat,
      write := fun v s => if bit s.net.gctl 0 then s else { s with net := { s.net with qpcBase := v &&& 0x00003FFFFFFF0000 } },
      latch := some (fun s => s.net.qpcLow, fun v s => { s with net := { s.net with qpcLow := v } }) }
    else if o = 0x20 ∨ o = 0x24 then reg2 o 0x20 {
      read := fun s => s.net.cc.toNat, write := fun v s => { s with net := { s.net with cc := v } },
      latch := some (fun s => s.net.ccLow, fun v s => { s with net := { s.net with ccLow := v } }) }
    else if o = 0x28 then reg1 o o { read := fun s => s.net.timers.toNat, write := fun v s => { s with net := { s.net with timers := v.setWidth 32 } } }
    else if o = 0x30 ∨ o = 0x34 then reg2 o 0x30 { write := fun v s => s.qpBell v }
    else if o = 0x38 then reg1 o o { write := fun v s => if bit v 31 then s.iqpReset (bits v 15 0) else s }
    else reg1 o 0x40 (ro State.netStatus)

/-- A counter of an interface, of 64 bits or 32. -/
def ifcCount (i : Nat) (f : Ifc → Nat) (z : Ifc → Ifc) : Reg :=
  { read := fun s => f (s.ifc i), clear := fun s => s.setIfc i (z (s.ifc i)) }

/-- The window of network port p. -/
def netPortReg (p o : Nat) : Option (Reg × Nat) :=
  let i := 2 * p + o / 8 % 2
  if o = 0 then reg1 o 0 { read := fun s => (s.nport p).mode.toNat, write := fun v s => s.portMode p (v.setWidth 2) }
  else if o = 8 then reg1 o 8 (ro (fun s =>
    at' (s.nport p).narrowed 7 + at' (s.ifc (2 * p + 1)).up 3 + at' (s.ifc (2 * p)).up 2 + (s.nport p).mode.toNat))
  else if 0x10 ≤ o ∧ o < 0x20 then reg2 o (o / 8 * 8) {
    read := fun s => (s.ifc i).mac.toNat, write := fun v s => s.setIfc i { s.ifc i with mac := v &&& 0x0000FFFFFFFFFFFF },
    latch := some (fun s => (s.ifc i).macLow, fun v s => s.setIfc i { s.ifc i with macLow := v }) }
  else if 0x20 ≤ o ∧ o < 0x30 then reg2 o (o / 8 * 8) {
    read := fun s => (s.ifc i).nh.toNat, write := fun v s => s.setIfc i { s.ifc i with nh := v &&& 0x0000FFFFFFFFFFFF },
    latch := some (fun s => (s.ifc i).nhLow, fun v s => s.setIfc i { s.ifc i with nhLow := v }) }
  else if 0x40 ≤ o ∧ o < 0x50 then reg2 o (o / 8 * 8) (ifcCount i (fun x => x.tx.toNat) (fun x => { x with tx := 0 }))
  else if 0x50 ≤ o ∧ o < 0x60 then reg2 o (o / 8 * 8) (ifcCount i (fun x => x.rx.toNat) (fun x => { x with rx := 0 }))
  else if o = 0x60 ∨ o = 0x68 then reg1 o o (ifcCount i (fun x => x.ce.toNat) (fun x => { x with ce := 0 }))
  else if o = 0x70 ∨ o = 0x78 then reg1 o o (ifcCount i (fun x => x.drop.toNat) (fun x => { x with drop := 0 }))
  else if o = 0x80 ∨ o = 0x88 then reg1 o o (ifcCount i (fun x => x.crcerr.toNat) (fun x => { x with crcerr := 0 }))
  else none

/-- COL_STATUS: the collectives that run on an engine in any role, and the slots that they have claimed (Tables 13-5, 13-9). -/
def CollEngine.status (x : CollEngine) : Nat := Nat.min 255 x.runs.length * 65536 + x.used

/-- The COL window of engine r. -/
def colReg (r o : Nat) : Option (Reg × Nat) :=
  if o < 8 then reg2 o 0 {
    read := fun s => (s.ceng r).gtab.toNat, write := fun v s => s.setCeng r { s.ceng r with gtab := v &&& 0x00003FFFFFFFF000 },
    latch := some (fun s => (s.ceng r).gtabLow, fun v s => s.setCeng r { s.ceng r with gtabLow := v }) }
  else if o = 8 then reg1 o o {
      read := fun s => (s.ceng r).ctl.toNat,
      write := fun v s => s.setCeng r { s.ceng r with ctl := v.setWidth 32 &&& 0xFFFFFFF1 } }
  else if o = 0x10 then reg1 o o (ro (fun s => (s.ceng r).status))
  else if o = 0x18 then reg1 o o { read := fun s => (s.ceng r).busy.toNat, clear := fun s => s.setCeng r { s.ceng r with busy := 0 } }
  else if o = 0x20 then reg1 o o { read := fun s => (s.ceng r).fallback.toNat, clear := fun s => s.setCeng r { s.ceng r with fallback := 0 } }
  else reg1 o 0x28 {
      read := fun s => (s.ceng r).failed.toNat * 65536 + (s.ceng r).retried.toNat,
      clear := fun s => s.setCeng r { s.ceng r with failed := 0, retried := 0 } }

/-- The code of a lane's state. -/
def LaneState.code : LaneState → Nat
  | .disarmed => 0 | .arming => 1 | .armed => 2 | .replacing => 3 | .failed => 4 | .disarming => 5

/-- SKM_LANE_STATUS. -/
def Lane.status (x : Lane) : Nat :=
  (x.inSvc.filter (fun b => b.1)).length * 65536 + (x.inSvc.filter (fun b => !b.1)).length * 4096 + x.pair.toNat * 256 + x.state.code

/-- SKM_LANE_RING. -/
def Lane.ring (x : Lane) : Nat := x.pi.toNat * 65536 + x.ci.toNat

/-- SKM_STATUS. -/
def State.skmStatus (s : State) : Nat :=
  (List.range 16).foldl (fun a l => a + at' (s.lane l).takes l) (at' s.skm.halted 16)

/-- A counter of a lane. -/
def laneCount (l : Nat) (f : Lane → Nat) (z : Lane → Lane) : Reg :=
  { read := fun s => f (s.lane l), clear := fun s => s.setLane l (z (s.lane l)) }

/-- The SKM window. -/
def skmReg (o : Nat) : Option (Reg × Nat) :=
  match inArray o 0x100 0x40 16 with
  | some (l, k) =>
    let a := 0x100 + 0x40 * l
    if k = 0 then reg1 o o (ro (fun s => (s.lane l).status))
    else if k = 4 then reg1 o o { read := fun s => (s.lane l).ring, write := fun v s => s.setLane l { s.lane l with ci := v.setWidth 16 } }
    else if k < 0x10 then reg2 o (a + 8) (laneCount l (fun x => x.cMatch.toNat) (fun x => { x with cMatch := 0 }))
    else if k < 0x18 then reg2 o (a + 0x10) (laneCount l (fun x => x.cReply.toNat) (fun x => { x with cReply := 0 }))
    else if k = 0x18 then reg1 o o (laneCount l (fun x => x.cNoanswer.toNat) (fun x => { x with cNoanswer := 0 }))
    else if k = 0x1C then reg1 o o (laneCount l (fun x => x.cLate.toNat) (fun x => { x with cLate := 0 }))
    else if k = 0x20 then reg1 o o (laneCount l (fun x => x.cMismatch.toNat) (fun x => { x with cMismatch := 0 }))
    else if k = 0x24 then reg1 o o (laneCount l (fun x => x.cSingle.toNat) (fun x => { x with cSingle := 0 }))
    else if k = 0x28 then reg1 o o (laneCount l (fun x => x.cFcsbad.toNat) (fun x => { x with cFcsbad := 0 }))
    else if k = 0x2C then reg1 o o (laneCount l (fun x => x.cRdrop.toNat) (fun x => { x with cRdrop := 0 }))
    else if k = 0x30 then reg1 o o (laneCount l (fun x => x.cTxdrop.toNat) (fun x => { x with cTxdrop := 0 }))
    else if k = 0x34 then reg1 o o (ro (fun s => (s.lane l).dl.toNat))
    else none
  | none =>
    if o < 8 then reg2 o 0 (ro (fun s => s.skm.nclk.toNat))
    else if o = 8 then reg1 o o { write := fun v s => if bit v 0 then s.capture else s }
    else if o = 0x10 ∨ o = 0x14 then reg2 o 0x10 (ro (fun s => s.skm.tsNclk.toNat))
    else if o = 0x18 ∨ o = 0x1C then reg2 o 0x18 (ro (fun s => s.skm.tsOclk.toNat))
    else reg1 o 0x20 (ro State.skmStatus)

/-! ### Region windows (Tables 8-7 to 8-12, 7-10 to 7-16, 4-7 to 4-10) -/

/-- MEM_MAP. -/
def MapReg.word (m : MapReg) : Nat := m.gen.toNat * 2 ^ 24 + m.ports.length * 65536 + at' m.refused 1 + b2n m.spread

/-- MEM_PORT_STATUS. -/
def Port.status (p : Port) : Nat := p.cause.toNat * 256 + p.state.toNat

/-- The MEM window of region r. -/
def memReg (r o : Nat) : Option (Reg × Nat) :=
  match inArray o 0x100 0x40 4 with
  | some (j, k) =>
    let p := 4 * r + j
    if k = 0 then reg1 o o (ro (fun s => (s.mport p).status))
    else if k = 8 then reg1 o o { read := fun s => (s.mport p).corr.toNat, clear := fun s => s.setMport p { s.mport p with corr := 0 } }
    else if k = 0x10 then reg1 o o { read := fun s => (s.mport p).uncorr.toNat, clear := fun s => s.setMport p { s.mport p with uncorr := 0 } }
    else none
  | none => match inArray o 0x200 0x40 2 with
    | some (a, k) =>
      let g := 2 * r + a
      if k = 0 then reg1 o o (ro (fun s => (s.lg g).retrains.toNat * 2 ^ 24 + (s.lg g).modules.toNat))
      else if k = 8 then reg1 o o {
          read := fun s => ((s.replays g).lg g).retry.toNat,
          clear := fun s => let t := s.replays g; t.setLg g { t.lg g with retry := 0 } }
      else none
    | none =>
      if o = 0 then reg1 o o (ro (fun s => (s.map r).word))
      else if o = 8 then reg1 o o {
          read := fun s => (s.map r).rspTimeout.toNat,
          write := fun v s => s.setMap r { s.map r with rspTimeout := v.setWidth 32 } }
      else reg1 o 0x10 { read := fun s => (s.map r).lostLines.toNat, clear := fun s => s.setMap r { s.map r with lostLines := 0 } }

/-- CCH_STATUS: WALK is 1 while a reclamation walk is owed too (R204, Table 7-11). -/
def RCache.status (c : RCache) : Nat :=
  let out := c.waydis ||| c.wayfail
  (16 - popc (out &&& 0xFFFF)) * 65536 + (8 - popc (out &&& 0xFF0000)) * 4096 + at' c.latched.isSome 2 + at' c.hostDead 1 +
    b2n (c.walk || !c.reclaims.isEmpty)

/-- The CCH window of region r. -/
def cchReg (r o : Nat) : Option (Reg × Nat) :=
  match inArray o 0x100 8 20 with
  | some (k, _) => reg1 o (0x100 + 8 * k) (ro (fun s => (s.bc (20 * r + k)).retired.length * 256 + (s.bc (20 * r + k)).ways.toNat))
  | none =>
    if o = 0 then reg1 o o { read := fun s => (s.rc r).ctl.toNat, write := fun v s => s.writeCtl r (v.setWidth 32) }
    else if o = 8 then reg1 o o (ro (fun s => (s.rc r).status))
    else if o = 0x10 then reg1 o o { write := fun v s => if bit v 0 then s.flushRegion r (bit v 1) else s }
    else if o = 0x18 then reg1 o o { read := fun s => (s.rc r).waydis.toNat, write := fun v s => s.writeWaydis r (v.setWidth 32) }
    else if o = 0x20 then reg1 o o (ro (fun s => (s.rc r).wayfail.toNat))
    else if o = 0x28 then reg1 o o (ro (fun s => (s.rc r).retired.length))
    else if o = 0x30 then reg1 o o { read := fun s => (s.rc r).hlost.toNat, clear := fun s => s.setRc r { s.rc r with hlost := 0 } }
    else reg1 o 0x38 { read := fun s => (s.rc r).poisoned.toNat, clear := fun s => s.setRc r { s.rc r with poisoned := 0 } }

/-- The code of a block's state. -/
def BlkState.code : BlkState → Nat
  | .off => 0 | .idle => 1 | .running => 2 | .aborting => 3 | .dustsheet => 4 | .skim => 5

/-- BLK_STATUS. -/
def Block.status (x : Block) : Nat :=
  at' x.spareFused 22 + at' x.spareUsed 21 + (if x.state = .dustsheet then 0 else x.cellsN * 65536) +
    (match x.task with | some k => k.threads * 256 | none => 0) + x.state.code

/-- CEL_STATUS. -/
def Cell.status (c : Cell) : Nat := c.corrected.toNat * 65536 + (if c.state = 0 then c.logical.toNat else 31) * 16 + c.state.toNat

/-- The BLK page of block b. -/
def blkReg (b o : Nat) : Option (Reg × Nat) :=
  if o = 0 then reg1 o o (ro (fun s => (s.blk b).status))
  else if o = 8 then reg1 o o (ro (fun s => (s.blk b).lost.toNat * 32 + (s.blk b).spareFor.toNat))
  else reg1 o 0x10 { read := fun s => (s.blk b).lostStores.toNat, clear := fun s => s.setBlk b { s.blk b with lostStores := 0 } }

/-- The CEL page of block b. -/
def celReg (b o : Nat) : Option (Reg × Nat) :=
  if o % 16 = 0 ∧ o / 16 < 17 then reg1 o o (ro (fun s => ((s.blk b).cell (o / 16)).status)) else none

/-- The windows of region r (R237). -/
def regionReg (r o : Nat) : Option (Reg × Nat) :=
  let k := o % 0x100000
  match o / 0x100000 with
  | 0 => memReg r k
  | 1 => cchReg r k
  | 2 => if k / 0x1000 < 20 then blkReg (20 * r + k / 0x1000) (k % 0x1000) else none
  | _ => if k / 0x1000 < 20 then celReg (20 * r + k / 0x1000) (k % 0x1000) else none

/-! ### MSI-X and mailboxes (09_host_port.md R236; Table 16-1) -/

/-- An entry of the MSI-X table is written, and a message that was held is sent when nothing holds it any more. -/
def State.putMsix (s : State) (v : Nat) (f : Msix → Msix) : State :=
  ({ s with hpt := { s.hpt with msix := Tab.set Msix.init s.hpt.msix v (f (Tab.get Msix.init s.hpt.msix v)) } } : State).flushMsix

/-- The MSI-X table: four words an entry. -/
def msixReg (o : Nat) : Option (Reg × Nat) :=
  let v := o / 16
  let e : State → Msix := fun s => Tab.get Msix.init s.hpt.msix v
  match o % 16 with
  | 0 => reg1 o o { read := fun s => bits (e s).addr 31 0, write := fun w s => s.putMsix v (fun x => { x with addr := setBits x.addr 31 0 (bits w 31 2 * 4) }) }
  | 4 => reg1 o o { read := fun s => bits (e s).addr 63 32, write := fun w s => s.putMsix v (fun x => { x with addr := setBits x.addr 63 32 (bits w 31 0) }) }
  | 8 => reg1 o o { read := fun s => (e s).data.toNat, write := fun w s => s.putMsix v (fun x => { x with data := w.setWidth 32 }) }
  | _ => reg1 o o { read := fun s => b2n (e s).masked, write := fun w s => s.putMsix v (fun x => { x with masked := bit w 0 }) }

/-- The pending bit array. -/
def pbaReg (o : Nat) : Option (Reg × Nat) :=
  if o < 256 then reg2 o (o / 8 * 8) (ro (fun s =>
    (List.range 64).foldl (fun a k => a + at' (Tab.get false s.hpt.pba (8 * (o / 8 * 8) + k)) k) 0)) else none

/-- A write of Command or of the payload: discarded and logged while DOORBELL is 1 (R425). -/
def State.boxPut (s : State) (m : Bool) (off : Nat) (f : Mailbox → Mailbox) : State :=
  if bit (s.box m).ctl 0 then s.hostLog 1 off else s.setBox m (f (s.box m))

/-- Mailbox Status. -/
def State.boxStatus (s : State) (m : Bool) : Nat :=
  (s.box m).ext.toNat * 2 ^ 48 + (s.box m).ret.toNat * 2 ^ 32 + b2n s.mail.bg.isSome

/-- Background Command Status. -/
def Mailbox.bgStatus (x : Mailbox) : Nat :=
  x.bgExt.toNat * 2 ^ 48 + x.bgRet.toNat * 2 ^ 32 + x.bgPercent.toNat * 65536 + x.bgOpcode.toNat

/-- The registers and payload of a mailbox. -/
def boxReg (m : Bool) (o : Nat) : Option (Reg × Nat) :=
  if o = 0 then reg1 o o (ro (fun _ => if m then 0xF4 else 0x74))
  else if o = 4 then reg1 o o {
      read := fun s => (s.box m).ctl.toNat,
      write := fun v s =>
      let t := s.setBox m { s.box m with ctl := setBits (s.box m).ctl 2 1 (bits v 2 1) }
      if bit v 0 then t.submit m else t }
  else if o < 0x10 then reg2 o 8 {
      read := fun s => (s.box m).cmd.toNat,
      write := fun v s => s.boxPut m (boxBase m + 8) (fun x => { x with cmd := v &&& 0x0000001FFFFFFFFF }) }
  else if o < 0x18 then reg2 o 0x10 (ro (fun s => s.boxStatus m))
  else if o < 0x20 then reg2 o 0x18 (ro (fun s => (s.box m).bgStatus))
  else if o < 0x100020 then reg1 o o {
    read := fun s => leVal ((List.range 4).map (fun k => Tab.get 0 (s.box m).payload (o - 0x20 + k))),
    write := fun v s => s.boxPut m (boxBase m + o) (fun x => { x with payload := payPut x.payload (o - 0x20) (leBytes 4 v.toNat) }) }
  else none

/-! ### Component and device registers (R238, R239; layouts PRESUMED from the CXL specification, notes/assumptions 13) -/

/-- An HDM decoder's registers: base, size, control and skip. -/
def hdmReg (n k : Nat) : Option Reg :=
  let d : State → Hdm := fun s => s.hdm n
  let put : (Hdm → Hdm) → State → State := fun f s =>
    if (s.hdm n).committed then s else { s with hpt := { s.hpt with hdm := Tab.set Hdm.init s.hpt.hdm n (f (s.hdm n)) } }
  let half : Bool → W64 → W64 → W64 := fun hi old v => if hi then setBits old 63 32 (bits v 31 0) else setBits old 31 0 (bits v 31 0)
  match k with
  | 0x00 => some { read := fun s => bits (d s).base 31 0, write := fun v => put (fun x => { x with base := half false x.base v }) }
  | 0x04 => some { read := fun s => bits (d s).base 63 32, write := fun v => put (fun x => { x with base := half true x.base v }) }
  | 0x08 => some { read := fun s => bits (d s).size 31 0, write := fun v => put (fun x => { x with size := half false x.size v }) }
  | 0x0C => some { read := fun s => bits (d s).size 63 32, write := fun v => put (fun x => { x with size := half true x.size v }) }
  | 0x10 => some {
      read := fun s => at' (d s).err 11 + at' (d s).committed 10 + at' (d s).committed 9 + Nat.log2 (d s).ways.toNat * 16 + Nat.log2 ((d s).gran.toNat / 256),
      write := fun v s =>
        let ways : BitVec 4 := BitVec.ofNat 4 (2 ^ bits v 7 4)
        let gran : W16 := BitVec.ofNat 16 (256 * 2 ^ bits v 3 0)
        if bit v 9 then (if (s.hdm n).committed then s else s.commitHdm n (s.hdm n).base (s.hdm n).size ways gran (s.hdm n).skip)
        else { s with hpt := { s.hpt with hdm := Tab.set Hdm.init s.hpt.hdm n { s.hdm n with
          committed := false, err := false, stale := false, ways := ways, gran := gran } } } }
  | 0x14 => some { read := fun s => bits (d s).skip 31 0, write := fun v => put (fun x => { x with skip := half false x.skip v }) }
  | 0x18 => some { read := fun s => bits (d s).skip 63 32, write := fun v => put (fun x => { x with skip := half true x.skip v }) }
  | _ => none

/-- A write of the BI decoder's control: BI Enable in bit 1, and the BI ID in the upper half. -/
def State.writeBi (s : State) (v : W64) : State :=
  let t := if s.hpt.biEnable && !(bit v 1) then s.clearBi else s
  { t with hpt := { t.hpt with biEnable := bit v 1, biId := BitVec.ofNat 16 (bits v 31 16) } }

/-- The HPT window (Tables 9-12 to 9-15). -/
def hptReg (o : Nat) : Option (Reg × Nat) :=
  if o = 0 then reg1 o o {
      read := fun s => at' s.hpt.fallback 2 + at' s.hpt.linkUp 1 + b2n s.hpt.hostLost,
      write := fun v s => if bit v 0 then s.endHostLost else s }
  else if o = 8 then reg1 o o (ro (fun s => s.hpt.link.toNat))
  else if o = 0x10 then reg1 o o {
      read := fun s => s.hpt.lpm.toNat,
      write := fun v s => { s with hpt := { s.hpt with lpm := v.setWidth 32 &&& 0xFFFFFF06 } } }
  else if o = 0x18 then reg1 o o { read := fun s => s.hpt.hlDiscard.toNat, clear := fun s => { s with hpt := { s.hpt with hlDiscard := 0 } } }
  else reg1 o 0x20 { read := fun s => s.hpt.flrLost.toNat, clear := fun s => { s with hpt := { s.hpt with flrLost := 0 } } }

/-- A pointer of the CXL.cachemem range to a capability: its ID, its version, which the manual does not give, and its place from 0x1000 on. -/
def cachememPtr (o id at' : Nat) : Nat := id + bits (State.cfgOther (0x10000 + o)) 19 16 * 65536 + at' * 2 ^ 20

/-- The component registers. -/
def compReg (o : Nat) : Option (Reg × Nat) :=
  if o < 0x1000 then none
  else if 0x8000 ≤ o ∧ o < 0x9000 then hptReg (o - 0x8000)
  else if o = 0x1000 then reg1 o o (ro (fun _ => 0x04110001))
  else if o = 0x1004 then reg1 o o (ro (fun _ => cachememPtr o 2 0x100))
  else if o = 0x1008 then reg1 o o (ro (fun _ => cachememPtr o 4 0x200))
  else if o = 0x100C then reg1 o o (ro (fun _ => cachememPtr o 5 0x300))
  else if o = 0x1010 then reg1 o o (ro (fun _ => cachememPtr o 12 0x400))
  else if o = 0x1300 then reg1 o o (ro (fun _ => ((State.cfgOther 0x11300 &&& ~~~0x1B0F) ||| 0x302).toNat))
  else if o = 0x1304 then reg1 o o {
      read := fun s => s.hpt.hdmCtl.toNat,
      write := fun v s => { s with hpt := { s.hpt with hdmCtl := v.setWidth 2 } } }
  else if o = 0x1100 then reg1 o o {
      read := fun s => s.hpt.rasUnc.toNat,
      write := fun v s => { s with hpt := { s.hpt with rasUnc := s.hpt.rasUnc &&& ~~~(v.setWidth 32) } } }
  else if o = 0x110C then reg1 o o {
      read := fun s => s.hpt.rasCorr.toNat,
      write := fun v s => { s with hpt := { s.hpt with rasCorr := s.hpt.rasCorr &&& ~~~(v.setWidth 32) } } }
  else if 0x1118 ≤ o ∧ o < 0x1158 then reg1 o o (ro (fun s => ((s.hpt.rasLog[(o - 0x1118) / 4]?).getD 0).toNat))
  else if o = 0x1404 then reg1 o o { read := fun s => s.hpt.biId.toNat * 65536 + at' s.hpt.biEnable 1, write := fun v s => s.writeBi v }
  else match inArray o 0x1310 0x20 4 with
    | some (n, k) => (hdmReg n k).map (fun r => (r, 0))
    | none => if o < 0x1500 ∨ 0xE000 ≤ o then reg1 o o (ro (fun _ => (State.cfgOther (0x10000 + o)).toNat)) else none

/-- The device registers: the capabilities array, device status and memory device status (R239). -/
def devReg (o : Nat) : Option (Reg × Nat) :=
  let cap : Nat → Nat → Nat → Nat → Option (Reg × Nat) := fun a i off len =>
    if o = a then reg1 o o (ro (fun _ => i + 0x10000)) else if o = a + 4 then reg1 o o (ro (fun _ => off))
    else if o = a + 8 then reg1 o o (ro (fun _ => len)) else none
  if o < 8 then reg2 o 0 (ro (fun _ => 4 * 2 ^ 32 + 0x10000))
  else if o < 0x20 then cap 0x10 1 0x100 8
  else if o < 0x30 then cap 0x20 2 0x27F0000 0x100020
  else if o < 0x40 then cap 0x30 3 0x2FF0000 0x100020
  else if o < 0x50 then cap 0x40 0x4000 0x200 8
  else if o = 0x100 ∨ o = 0x104 then reg2 o 0x100 {}
  else reg2 o 0x200 (ro (fun s => at' s.hpt.mbReady 4 + at' s.hpt.memActive 2 + b2n s.hpt.fatal))

/-! ### The whole of BAR0 (R237, Table 9-7) -/

/-- The register that holds the 32-bit word at BAR0 offset o, and which of its words that is; none where no register stands. -/
def regAt (o : Nat) : Option (Reg × Nat) :=
  if o < 0x10000 then compReg o
  else if o < 0x20000 then devReg (o - 0x10000)
  else if o < 0x100000 then none
  else if o < 0x110000 then evtReg (o - 0x100000)
  else if o < 0x120000 then fltReg (o - 0x110000)
  else if o < 0x130000 then snagReg (o - 0x120000)
  else if o < 0x140000 then pwrReg (o - 0x130000)
  else if o < 0x150000 then idnReg (o - 0x140000)
  else if o < 0x200000 then none
  else if o < 0x300000 then queReg (o - 0x200000)
  else if o < 0x310000 then cpyReg (o - 0x300000)
  else if o < 0x320000 then xltReg (o - 0x310000)
  else if o < 0x400000 then none
  else if o < 0x410000 then netReg (o - 0x400000)
  else if o < 0x41A000 then netPortReg ((o - 0x410000) / 0x1000) (o % 0x1000)
  else if o < 0x500000 then none
  else if o < 0x505000 then colReg ((o - 0x500000) / 0x1000) (o % 0x1000)
  else if o < 0x510000 then none
  else if o < 0x520000 then skmReg (o - 0x510000)
  else if o < 0x1000000 then none
  else if o < 0x2400000 then regionReg ((o - 0x1000000) / 0x400000) (o % 0x400000)
  else if o < 0x2408000 then msixReg (o - 0x2400000)
  else if o < 0x2410000 then none
  else if o < 0x2420000 then pbaReg (o - 0x2410000)
  else if o < 0x2800000 then none
  else if o < 0x2900020 then boxReg false (o - 0x2800000)
  else if o < 0x3000000 then none
  else if o < 0x3100020 then boxReg true (o - 0x3000000)
  else none

/-- The power domain of a BAR0 offset (Table 9-7). -/
def regDom (o : Nat) : Nat :=
  if o < 0x100000 then 2
  else if o < 0x200000 then 0
  else if o < 0x300000 then 2
  else if o < 0x400000 then 3
  else if o < 0x410000 then 13
  else if o < 0x41A000 then netDom ((o - 0x410000) / 0x1000)
  else if o < 0x500000 then 13
  else if o < 0x505000 then 13 + 9 * ((o - 0x500000) / 0x1000)
  else if o < 0x1000000 then 4
  else if o < 0x2400000 then 10 + 9 * ((o - 0x1000000) / 0x400000)
  else 2

/-! ### Accesses (R12, R13, R240) -/

/-- One byte of the registers. -/
def State.regByte (s : State) (o : Nat) : Byte :=
  match regAt (o / 4 * 4) with
  | none => 0
  | some (r, k) => BitVec.ofNat 8 (r.read s / 2 ^ (32 * k + 8 * (o % 4)))

/-- The registers that n bytes touch, by where they begin. -/
def regsTouched (o n : Nat) : List Nat :=
  ((List.range n).filterMap (fun i => (regAt ((o + i) / 4 * 4)).map (fun x => (o + i) / 4 * 4 - 4 * x.2))).eraseDups

/-- Whether an access of n bytes is one that the device performs (R12). -/
def wholeAccess (o n : Nat) : Bool := (n == 4 || n == 8) && o % n == 0

/-- A read of n bytes of BAR0: the bytes of the registers, of which it clears those that clear on reading; all ones where a register's
domain is off, or where it crosses a register boundary (R7, R12, R240). -/
def State.regLoad (s : State) (o n : Nat) : W64 × State :=
  let ones : W64 := BitVec.ofNat 64 (2 ^ (8 * n) - 1)
  let touched := regsTouched o n
  if !touched.isEmpty && !(s.answers (regDom o) o) then (ones, s)
  else if wholeAccess o n || decide (touched.length ≤ 1) then
    (BitVec.ofNat 64 (leVal ((List.range n).map (fun i => s.regByte (o + i)))),
     s.each touched (fun t a => match regAt a with | some (r, _) => r.clear t | none => t))
  else (ones, s)

/-- A write of one register's word: a half of a register of two words takes effect alone, or waits in the latch (R13). -/
def State.wordStore (s : State) (o : Nat) (v : W32) : State :=
  match regAt o with
  | none => s
  | some (r, k) =>
    if r.words = 1 then r.write (v.setWidth 64) s
    else match r.latch with
      | some (get, put) => if k = 0 then put v s else r.write (BitVec.ofNat 64 (v.toNat * 2 ^ 32 + (get s).toNat)) s
      | none => r.write (setBits (BitVec.ofNat 64 (r.read s)) (32 * k + 31) (32 * k) v.toNat) s

/-- An aligned write of 4 or 8 bytes of BAR0 (R12, R13). -/
def State.regStore (s : State) (o n : Nat) (v : W64) : State :=
  if n = 4 then s.wordStore o (v.setWidth 32)
  else match regAt o with
    | some (r, _) =>
      if r.words = 2 then
        (let t := match r.latch with | some (_, put) => put (v.setWidth 32) s | none => s
         r.write v t)
      else (s.wordStore o (v.setWidth 32)).wordStore (o + 4) ((v >>> 32).setWidth 32)
    | none => s.wordStore (o + 4) ((v >>> 32).setWidth 32)

/-- A write of the host to BAR2: a doorbell at the start of a queue's page (R241; 11_queues_and_copy.md R293). -/
def State.bar2Store (s : State) (o : Nat) (v : W64) : State :=
  if o % 0x1000 = 0 ∧ o / 0x1000 < 1024 then s.doorbell (o / 0x1000) (v.setWidth 16) else s

/-- REGISTER_WRITE: the host writes size bytes of BAR0 or BAR2. A narrow or misaligned write is discarded and logged (R12). -/
def execRegisterWrite (bar : Bar) (off : W32) (size : Nat) (data : W64) (s : State) : Host.Outcome State Fault Refusal :=
  let o := off.toNat
  .next (if s.hpt.flr then s
    else if !(wholeAccess o size) then s.hostLog 1 o
    else match bar with
      | .bar2 => if s.domOn 2 then s.bar2Store o data else s.hostLog 2 o
      | .bar0 => if (regsTouched o size).isEmpty then s else s.barWrite (regDom o) o (fun t => t.regStore o size data))

/-- RC_COUNTER_READ: the host reads size bytes of BAR0, and the counters among them clear (R10); BAR2 reads as 0 (R241); during a
function-level reset the read ends as an Unsupported Request (09_host_port.md R256). -/
def execRcCounterRead (off : BarOff) (size : Nat) (s : State) : Host.Outcome State Fault Refusal :=
  .next (if s.hpt.flr || s.hpt.d3hot then s.emit (.readUr off.off)
    else match off.bar with
      | .bar2 => s.emit (.readDone off.off 0)
      | .bar0 =>
        let x := s.regLoad off.off.toNat (Nat.min size 8)
        x.2.emit (.readDone off.off x.1))

/-! ### The control window of a thread (05_veltur_instructions.md R150 to R152) -/

/-- The bit of the control-window mask that a BAR0 offset needs; none for one that no thread reaches (Table 5-17). -/
def cwBit (o : Nat) : Option Nat :=
  if 0x100000 ≤ o ∧ o < 0x110000 then some 0
  else if 0x120000 ≤ o ∧ o < 0x130000 then some 1
  else if 0x130000 ≤ o ∧ o < 0x140000 then some 2
  else if 0x200000 ≤ o ∧ o < 0x300000 then some 3
  else if 0x300000 ≤ o ∧ o < 0x320000 then some 4
  else if 0x400000 ≤ o ∧ o < 0x500000 then some 5
  else if 0x500000 ≤ o ∧ o < 0x520000 then some 6
  else if 0x1000000 ≤ o ∧ o < 0x2400000 then some 7
  else none

/-- Whether a block's task may reach an offset through the control window. -/
def State.cwAllows (s : State) (b o : Nat) : Bool :=
  match (s.blk b).task, cwBit o with
  | some k, some n => k.cwmask.getLsbD n
  | _, _ => false

/-- The offset that a control-window instruction reaches. -/
def cwAddr (th : Thread) (w : W0) : W64 := th.reg w.a + BitVec.ofNat 64 (4 * bits w.x 25 2)

/-- A successful control-window access clears IOF and sets IOP (R152). -/
def Thread.cwDone (t : Thread) : Thread := (t.sts 42 42 0).sts 41 41 1

/-- The form of a control-window instruction. -/
def cwForm (w : W0) : Form := { bad := bit w.x 1, regs := [w.a, w.b, w.d], mem := true, wr := true, brk := true }

/-- What a control-window instruction does once its checks have passed. -/
def cwBody (t : Th) (w : W0) (f : State → Thread → Nat → Nat → State) (s : State) (th : Thread) : Res :=
  let a := cwAddr th w
  let n := if bit w.x 0 then 8 else 4
  if bit th.sts0 42 = false then .exc .cwUnfenced 0
  else if a.toNat % n ≠ 0 then .exc .misaligned a
  else if !(s.cwAllows t.blk.val a.toNat) then .exc .cwDenied a
  else .done (f s th a.toNat n)

/-- CWLD: a thread reads a device register (R150). -/
def execCwld (t : Th) (w : W0) (s : State) : Host.Outcome State Fault Refusal :=
  .next (issue t w (cwForm w) (cwBody t w (fun s _ a n =>
    let x := s.regLoad a n
    x.2.setThr t.blk.val t.thr.val (((x.2.thr t.blk.val t.thr.val).setReg w.d x.1).cwDone))) s)

/-- CWST: a thread writes a device register (R150); a write in a domain that is off is discarded and logged. -/
def execCwst (t : Th) (w : W0) (s : State) : Host.Outcome State Fault Refusal :=
  .next (issue t w (cwForm w) (cwBody t w (fun s th a n =>
    let v := th.reg w.b
    let u := if (regsTouched a n).isEmpty then s else if s.answers (regDom a) a then s.regStore a n v else s.hostLog 2 a
    u.setThr t.blk.val t.thr.val (u.thr t.blk.val t.thr.val).cwDone)) s)

end Sys2Proof.Machine
end

