-- ==== Sys2Proof/Machine/Spdm.lean ====
section
/-! DEFINITION. Attestation: the SPDM requests over the DOE capability, and the requests of configuration space, which holds it (18_identity_and_optical_modules.md R482 to R484). The
layouts of the messages are those of DMTF SPDM 1.2 (PRESUMED, notes/assumptions 10). -/
namespace Sys2Proof.Machine

/-- An SPDM response goes out. -/
def State.spdmSay (s : State) (bs : List Byte) : State := s.emit (.spdm bs)

/-- ERROR with a code. -/
def spdmError (code : Byte) : List Byte := [0x12, 0x7F, code, 0]

/-- A request is answered only where configuration space is; while the fallback sequencer runs the answer is ERROR with code
Unspecified (R484). -/
def State.spdmServe (s : State) (req : List Byte) (code : Byte) (f : State → State) : State :=
  if !s.cfgServes || req.getD 1 0 != code then s
  else if s.hpt.fallback then s.spdmSay (spdmError 5)
  else f s

/-- A request other than GET_VERSION, which needs SPDM 1.2, the connection at a point, and at least n bytes. -/
def State.spdmAt (s : State) (req : List Byte) (code : Byte) (at_ : SpdmState) (n : Nat) (f : State → State) : State :=
  s.spdmServe req code (fun t =>
    if t.idn.spdm ≠ at_ then t.spdmSay (spdmError 4)
    else if req.getD 0 0 != 0x12 then t.spdmSay (spdmError 0x41)
    else if req.length < n then t.spdmSay (spdmError 1)
    else f t)

/-- The connection comes to a point, and the exchange joins its transcript. -/
def State.spdmStep (s : State) (dst : SpdmState) (req ans : List Byte) : State :=
  ({ s with idn := { s.idn with spdm := dst, spdmLog := s.idn.spdmLog ++ req ++ ans } } : State).spdmSay ans

/-- An exchange that a signature of CHALLENGE will cover. -/
def State.spdmAuthStep (s : State) (req ans : List Byte) : State :=
  ({ s with idn := { s.idn with spdmAuth := s.idn.spdmAuth ++ req ++ ans } } : State).spdmSay ans

/-- Free bytes, as a nonce or a signature that nothing fixes. -/
def freeBytes (n k : Nat) : List Byte := (List.range k).map (fun i => (Config.freeValue (n + i)).setWidth 8)

/-- The 96 bytes of a signature over a transcript. -/
def signatureOf (m : List Byte) : List Byte := (List.range 96).map (Config.signature m)

/-- The answers whose bytes the manual does not give. -/
def spdmBytes (o n : Nat) : List Byte := (List.range n).map (fun k => Config.spdmByte (o + k))

/-- GET_VERSION: it ends the connection that stands and begins one; version 1.2 is offered (R482, R484). -/
def execGetVersion (req : List Byte) (s : State) : Host.Outcome State Fault Refusal :=
  .next (s.spdmServe req 0x84 (fun t =>
    if req.length < 4 then t.spdmSay (spdmError 1)
    else
      let t1 : State := { t with idn := { t.idn with spdmLog := [], spdmAuth := [], spdmMeas := [] } }
      t1.spdmStep .version req [0x10, 0x04, 0, 0, 0, 1, 0x00, 0x12]))

/-- GET_CAPABILITIES: CERT_CAP, CHAL_CAP and MEAS_CAP with signature, and no other (R482). -/
def execGetCapabilities (req : List Byte) (s : State) : Host.Outcome State Fault Refusal :=
  .next (s.spdmAt req 0xE1 .version 4 (fun t =>
    t.spdmStep .capabilities req ([0x12, 0x61, 0, 0, 0] ++ spdmBytes 0 1 ++ [0, 0, 0x16, 0, 0, 0] ++ spdmBytes 1 8)))

/-- NEGOTIATE_ALGORITHMS: ECDSA P-384 and SHA-384 only, where the requester offers them (R482). -/
def execNegotiateAlgorithms (req : List Byte) (s : State) : Host.Outcome State Fault Refusal :=
  .next (s.spdmAt req 0xE3 .capabilities 32 (fun t =>
    t.spdmStep .algorithms req
      ([0x12, 0x63, 0, 0, 36, 0, req.getD 6 0 &&& 1, 0, 4, 0, 0, 0] ++
       [req.getD 8 0 &&& 0x80, 0, 0, 0, req.getD 12 0 &&& 2, 0, 0, 0] ++ List.replicate 16 0)))

/-- The certificate chain of slot 0 (R482): its length, two bytes of 0, the digest of the root, and the three certificates. The layout is
SPDM's (PRESUMED, log 10). -/
def State.chain (s : State) : List Byte :=
  let certs := Config.rootCert ++ Config.midCert ++ Config.deviceCert s.idn.fuses.dsn
  leBytes 2 (52 + certs.length) ++ [0, 0] ++ sha384 Config.rootCert ++ certs

/-- GET_DIGESTS: the SHA-384 digest of the chain of slot 0 (R482). -/
def execGetDigests (req : List Byte) (s : State) : Host.Outcome State Fault Refusal :=
  .next (s.spdmAt req 0x81 .algorithms 4 (fun t => t.spdmAuthStep req ([0x12, 0x01, 0, 1] ++ sha384 t.chain)))

/-- GET_CERTIFICATE: a part of the chain of slot 0; no other slot holds one (R482). -/
def execGetCertificate (req : List Byte) (s : State) : Host.Outcome State Fault Refusal :=
  .next (s.spdmAt req 0x82 .algorithms 8 (fun t =>
    let o := leVal ((req.drop 4).take 2)
    if bits (req.getD 2 0) 3 0 ≠ 0 ∨ o ≥ t.chain.length then t.spdmSay (spdmError 1)
    else
      let part := (t.chain.drop o).take (leVal ((req.drop 6).take 2))
      t.spdmAuthStep req ([0x12, 0x02, 0, 0] ++ leBytes 2 part.length ++ leBytes 2 (t.chain.length - o - part.length) ++ part)))

/-- The value of a measurement: 48 bytes, of 0 when it is absent (R483, Table 18-2). -/
def State.measValue (s : State) (i : Nat) : List Byte :=
  if i = 1 then (if s.idn.primerDefaulted then List.replicate 48 0 else leBytes 48 s.idn.meas1.toNat)
  else if s.idn.measValid then leBytes 48 s.mail.fwMeas.toNat else List.replicate 48 0

/-- A measurement block. -/
def State.measBlock (s : State) (i : Nat) : List Byte :=
  [BitVec.ofNat 8 i, 1, 51, 0] ++ spdmBytes (8 + i) 1 ++ [48, 0] ++ s.measValue i

/-- What a summary of the measurements covers: none, the trusted base, which the manual does not name, or all. -/
def State.measSummary (s : State) (kind : Byte) : List Byte :=
  if kind = 0 then [] else if kind = 0xFF then sha384 (s.measBlock 1 ++ s.measBlock 2) else freeBytes s.free 48

/-- CHALLENGE: the answer is signed with the fused key over all that was said since GET_VERSION (R482). -/
def execChallenge (req : List Byte) (s : State) : Host.Outcome State Fault Refusal :=
  .next (s.spdmAt req 0x83 .algorithms 36 (fun t =>
    if bits (req.getD 2 0) 3 0 ≠ 0 then t.spdmSay (spdmError 1)
    else
      let ans := [0x12, 0x03, 0, 1] ++ sha384 t.chain ++ freeBytes (t.free + 48) 32 ++ t.measSummary (req.getD 3 0) ++ [0, 0]
      let t1 : State := { t.took 80 with idn := { t.idn with spdmAuth := [] } }
      t1.spdmSay (ans ++ signatureOf (t.idn.spdmLog ++ t.idn.spdmAuth ++ req ++ ans))))

/-- GET_MEASUREMENTS: their count, one, or all of them, signed where the request asks for it; before the firmware runs the boot ROM
does not answer it (R483, R484). -/
def execGetMeasurements (req : List Byte) (s : State) : Host.Outcome State Fault Refusal :=
  .next (s.spdmAt req 0xE0 .algorithms 4 (fun t =>
    let op := (req.getD 3 0).toNat
    let signed := bit (req.getD 2 0) 0
    if t.mail.fw ≠ .running then t.spdmSay (spdmError (Config.spdmByte 11))
    else if (signed ∧ req.length < 37) ∨ (op ≠ 0 ∧ op ≠ 1 ∧ op ≠ 2 ∧ op ≠ 255) then t.spdmSay (spdmError 1)
    else
      let blocks := (if op = 0 then [] else if op = 255 then [1, 2] else [op]).map t.measBlock
      let record := blocks.flatMap (fun b => b)
      let ans := [0x12, 0x60, if op = 0 then 2 else 0, 0, BitVec.ofNat 8 blocks.length] ++ leBytes 3 record.length ++ record ++
        freeBytes t.free 32 ++ [0, 0]
      let said := t.idn.spdmMeas ++ req ++ ans
      let t1 : State := { t.took 32 with idn := { t.idn with spdmMeas := if signed then [] else said } }
      t1.spdmSay (if signed then ans ++ signatureOf (t.idn.spdmLog ++ said) else ans)))

/-! ### The data object exchange (09_host_port.md R233, R235; layouts PRESUMED from the PCI Express and CXL specifications,
notes/assumptions 13) -/

/-- An SPDM request is answered by its code; a request that the device does not offer is answered with ERROR, UnsupportedRequest. -/
def State.spdmTake (s : State) (req : List Byte) : State :=
  let run : Host.Outcome State Fault Refusal → State := fun o => match o with | .next t => t | _ => s
  match (req.getD 1 0).toNat with
  | 0x84 => run (execGetVersion req s)
  | 0xE1 => run (execGetCapabilities req s)
  | 0xE3 => run (execNegotiateAlgorithms req s)
  | 0x81 => run (execGetDigests req s)
  | 0x82 => run (execGetCertificate req s)
  | 0x83 => run (execChallenge req s)
  | 0xE0 => run (execGetMeasurements req s)
  | _ => s.spdmSay (spdmError 7)

/-- Bytes as words of 32 bits, the last filled up with 0. -/
def dwords : Nat → List Byte → List W32
  | 0, _ => []
  | _, [] => []
  | n + 1, bs => BitVec.ofNat 32 (leVal (bs.take 4)) :: dwords n (bs.drop 4)

/-- A data object: the vendor and the type of its protocol, its length in words, and its words. -/
def dataObject (vendor typ : Nat) (ws : List W32) : List W32 :=
  [BitVec.ofNat 32 (typ * 65536 + vendor), BitVec.ofNat 32 ((ws.length + 2) % 2 ^ 18)] ++ ws

/-- The protocols that discovery lists: discovery, CMA/SPDM, and CXL table access (Table 9-3). -/
def doeProtocols : List (Nat × Nat) := [(1, 0), (1, 1), (0x1E98, 2)]

/-- The answer to a data object, and the state after it: none for an object that no protocol takes. -/
def State.doeAnswer (s : State) (ws : List W32) : Option (List W32) × State :=
  let head := (ws.getD 0 0).toNat
  let w2 := ws.getD 2 0
  if ws.length < 3 ∨ (ws.getD 1 0).toNat ≠ ws.length then (none, s)
  else if head = 0x00000001 then
    let k := bits w2 7 0
    let ans := match doeProtocols[k]? with
      | some x => x.2 * 65536 + x.1 + (if k + 1 < doeProtocols.length then (k + 1) * 2 ^ 24 else 0)
      | none => 0x00FFFFFF
    (some (dataObject 1 0 [BitVec.ofNat 32 ans]), s)
  else if head = 0x00010001 then
    let t := s.spdmTake ((ws.drop 2).flatMap (fun w => leBytes 4 w.toNat))
    match (t.sent.drop s.sent.length).getLast? with
    | some (.spdm bs) => (some (dataObject 1 1 (dwords bs.length bs)), t)
    | _ => (none, t)
  else if head = 0x00021E98 then (some (dataObject 0x1E98 2 (Config.cdat (bits w2 31 16))), s)
  else (none, s)

/-- DOE Go: the object that has been written is taken, and its answer stands ready, or an error does. -/
def State.doeGo (s : State) : State :=
  let x := s.doeAnswer s.hpt.doe.inp
  let d := x.2.hpt.doe
  { x.2 with hpt := { x.2.hpt with doe := match x.1 with
    | some ws => { d with inp := [], out := ws }
    | none => { d with inp := [], out := [], err := true } } }

/-- The 32-bit word of the configuration space at an offset that 4 divides, the data object exchange among them. -/
def State.spaceWord (s : State) (o : Nat) : W32 :=
  let d := s.hpt.doe
  if o = 0x2C8 then BitVec.ofNat 32 (b2n d.irq * 2)
  else if o = 0x2CC then BitVec.ofNat 32 (b2n (!d.out.isEmpty) * 2 ^ 31 + b2n d.err * 4)
  else if o = 0x2D0 then 0
  else if o = 0x2D4 then d.out.headD 0
  else s.cfgWord o

/-- A write of a word of the configuration space: DOE Abort and DOE Go, the words of an object, and the reads of an answer that a write
of the read mailbox takes note of. -/
def State.writeSpace (s : State) (o : Nat) (v be : W32) : State :=
  let d := s.hpt.doe
  let put : Doe → State := fun x => { s with hpt := { s.hpt with doe := x } }
  if o = 0x2C8 then
    if bit (v &&& be) 0 then put { Doe.init with irq := d.irq }
    else
      let t := put { d with irq := if bit be 1 then bit v 1 else d.irq }
      if bit (v &&& be) 31 && !d.err && d.out.isEmpty then t.doeGo else t
  else if o = 0x2D0 then (if d.err || !d.out.isEmpty then s else put { d with inp := d.inp ++ [v] })
  else if o = 0x2D4 then put { d with out := d.out.drop 1 }
  else s.writeCfg o v be

/-- CONFIG_REQUEST: the host reads or writes 1, 2 or 4 bytes of the configuration space inside one word of 32 bits (09_host_port.md R234 to R236);
it is told to retry while the space is not ready and during an FLR (09_host_port.md R254, R256). -/
def execConfigRequest (wr : Bool) (off : BitVec 12) (size : Nat) (data : W32) (s : State) : Host.Outcome State Fault Refusal :=
  let o := off.toNat / 4 * 4
  let lo := off.toNat % 4
  .next (if !s.hpt.linkUp || !(s.domOn 2) || !(size == 1 || size == 2 || size == 4) || decide (lo + size > 4) then s
    else if !s.cfgServes then s.emit .cfgRetry
    else if wr then s.writeSpace o (data <<< (8 * lo)) (BitVec.ofNat 32 ((2 ^ (8 * size) - 1) * 2 ^ (8 * lo)))
    else s.emit (.cfgDone ((s.spaceWord o >>> (8 * lo)) &&& BitVec.ofNat 32 (2 ^ (8 * size) - 1))))


end Sys2Proof.Machine
end

