-- ==== Sys2Proof/Machine/Mailbox.lean ====
section
/-! DEFINITION. The Stolpel commands: what the site processor, or the fallback responder, does for each (16_stolpel_and_events.md R430 to
R438, Table 16-4; 15_faults_and_dust_sheets.md Tables 15-8, 15-17 and 15-18; 12_umakin_transport.md R324; 14_skim_lanes.md R395;
17_power_clocks_startup.md R450 to R453, R472, R473, R478; 18_identity_and_optical_modules.md R481, R485). -/
namespace Sys2Proof.Machine

/-! ### Shared steps -/

/-- A command whose fields are in range and whose object accepts it runs; otherwise it returns Invalid Input with the input offset of the
first offending field, or OBJECT_STATE (R429, Table 16-3). -/
def State.boxChecked (s : State) (m : Bool) (cs : List (Nat × Bool)) (ok : Bool) (f : State → State) : State :=
  match firstBad cs with
  | some o => s.boxRange m o
  | none => if ok then f s else s.boxState m

/-- A background command runs unless one runs already (R426). -/
def State.runBg (s : State) (m : Bool) (op : Nat) (f : State → List Byte → State) : State :=
  s.runBox m op (fun t i => if t.mail.bg.isSome then t.boxDone m 6 0 [] else f t i)

/-- A background command begins, and completes its work later or at once. -/
def State.bgRuns (s : State) (m : Bool) (op : Nat) (kind : BgKind) (f : State → State) : State := s.boxStart m op kind f

/-- A field of n bytes at an offset that must read 0. -/
def rsvIn (i : List Byte) (o n : Nat) : Nat × Bool := (o, inNum i o n != 0)

/-- Bytes of registers that the device reads of itself, clearing none. -/
def State.peek (s : State) (o n : Nat) : List Byte := (List.range n).map (fun k => s.regByte (o + k))

/-- Zero bytes. -/
def zeros (n : Nat) : List Byte := List.replicate n 0

/-! ### Identity and firmware (R430, R436 to R438) -/

/-- The code of the firmware slot's STATE (Table 16-4). -/
def FwState.code : FwState → Nat
  | .empty => 0 | .receiving => 1 | .verifying => 2 | .running => 3 | .failed => 4

/-- INFO: identity and state (Table 15-17). -/
def execInfo (mb : Bool) (s : State) : Host.Outcome State Fault Refusal :=
  .next (s.runBox mb 0xC000 (fun t _ => t.boxOk mb
    (leBytes 2 0xD2A9 ++ leBytes 2 0x9620 ++ [(t.cfgWord 8).setWidth 8, BitVec.ofNat 8 (16 * b2n t.hpt.fallback + t.mail.fw.code), 0, 0] ++
     leBytes 8 t.idn.fuses.dsn.toNat ++ leBytes 8 t.flt.fallback.toNat ++ leBytes 4 t.flt.chip.toNat ++ t.peek 0x8000 4 ++ zeros 32)))

/-- The most bytes that a transfer holds (R437). -/
def fwMax : Nat := 1573376

/-- FW_TRANSFER: a piece of the image joins the transfer that it continues, or begins a new one (R437). While an image is being verified
it waits. -/
def execFwTransfer (mb : Bool) (s : State) : Host.Outcome State Fault Refusal :=
  .next (s.runBox mb 0xC001 (fun t i =>
    let off := inNum i 0 4
    let data := i.drop 8
    if t.mail.fw = .running then t.boxDone mb 3 0 []
    else if t.mail.fwHolder = some (!mb) then t.boxDone mb 8 0 []
    else if t.mail.fw = .verifying then t
    else match firstBad [rsvIn i 4 4, (8, data.length % 128 != 0)] with
      | some o => t.boxRange mb o
      | none =>
        if off ≠ 0 ∧ off ≠ t.mail.fwBytes.length then t.boxDone mb 9 0 []
        else if off + data.length > fwMax then t.boxRange mb 0
        else
          let before := if off = 0 then [] else t.mail.fwBytes
          ({ t with mail := { t.mail with fw := .receiving, fwBytes := before ++ data, fwHolder := some mb } } : State).boxOk mb []))

/-- FW_START: the image is verified in the background (R438). -/
def execFwStart (mb : Bool) (s : State) : Host.Outcome State Fault Refusal :=
  .next (s.runBox mb 0xC002 (fun t _ =>
    if t.mail.fw = .running then t.boxDone mb 3 0 []
    else if t.mail.fwHolder = some (!mb) then t.boxDone mb 8 0 []
    else t.bgRuns mb 0xC002 .fwStart (fun u => { u with mail := { u.mail with fw := .verifying, fwHolder := none } })))

/-- Whether the header of an image and its length are as they must be (R438 check 1, Table 16-5). -/
def fwFormat (rev : Nat) (b : List Byte) : Bool :=
  let len := inNum b 8 4
  inNum b 0 4 == 0x504C5453 && inNum b 4 4 == 1 && len % 128 == 0 && decide (128 ≤ len) && decide (len ≤ 1572864) &&
    b.length == 512 + len && inNum b 0x18 2 == 0x9620 && decide (inNum b 0x1A 1 ≤ rev) && decide (rev ≤ inNum b 0x1B 1) &&
    inNum b 0x1C 0xE4 == 0 && inNum b 0x161 0x1F == 0 && inNum b 0x1E0 0x20 == 0

/-- The first check of R438 that an image fails, as its reason code. -/
def State.fwReason (s : State) : Option Nat :=
  let b := s.mail.fwBytes
  let key := (b.drop 0x100).take 97
  let field : Nat → Nat := fun o => beVal ((b.drop o).take 48)
  if !fwFormat (bits (s.cfgWord 8) 7 0) b then some 6
  else if digestWord (sha384 key) ≠ s.idn.fuses.keyHash then some 7
  else if key.headD 0 != 4 || !ecdsaOk (field 0x101) (field 0x131) (field 0x180) (field 0x1B0) (sha384 (b.take 0x180 ++ b.drop 512)) then some 8
  else none

/-- The firmware runs: its measurement is recorded, the registers whose reset column reads fw take a value, which the manual does not
give, and source 403 arrives (R438). -/
def State.fwRuns (s : State) : State :=
  let b := s.mail.fwBytes
  let g : W64 := s.freeVal &&& 0x00003FFFFFFFF000
  let s1 := s.took 1
  let s2 : State := { s1 with
    mail := { s1.mail with fw := .running, fwVersion := BitVec.ofNat 64 (inNum b 0x10 8), fwMeas := digestWord (sha384 b) },
    idn := { s1.idn with measValid := true } }
  (s2.each (List.range 5) (fun t r => t.setCeng r { t.ceng r with gtab := g })).event 403

/-- FW_START ends (R438). -/
def State.fwEnd (s : State) : State :=
  match s.fwReason with
  | some e => ({ s with mail := { s.mail with fw := .failed, fwBytes := [] } } : State).bgDone 0xA e (leBytes 4 0 ++ leBytes 4 e)
  | none => s.fwRuns.bgDone 0 0 []

/-- FW_STATUS: the firmware slot (Table 16-4). -/
def execFwStatus (mb : Bool) (s : State) : Host.Outcome State Fault Refusal :=
  .next (s.runBox mb 0xC003 (fun t _ => t.boxOk mb
    ([BitVec.ofNat 8 t.mail.fw.code, 0, 0, 0] ++ leBytes 4 t.mail.fwBytes.length ++ leBytes 8 t.mail.fwVersion.toNat ++
     leBytes 48 t.mail.fwMeas.toNat)))

/-! ### Queues (Table 16-4; 11_queues_and_copy.md R287, R302) -/

/-- A command that names a queue in its first 4 bytes. -/
def State.boxQueue (s : State) (m : Bool) (op : Nat) (f : State → Nat → List Byte → State) : State :=
  s.runBox m op (fun t i => if inNum i 0 4 ≥ 1024 then t.boxRange m 0 else f t (inNum i 0 4) i)

/-- A register write on a queue: a refused one sets CMD_REFUSED and returns OBJECT_STATE (R430, Table 16-3). -/
def State.queTry (s : State) (m : Bool) (q : Nat) (f : State → State) : State :=
  let clear := s.setQ q { s.q q with bits := setBit (s.q q).bits 5 false }
  let t := f s
  if bit ((f clear).q q).bits 5 then t.boxState m else t.boxOk m []

/-- QUEUE_CREATE: QUE_RING, QUE_CPL and QUE_CFG are written (R287). -/
def execQueueCreate (mb : Bool) (s : State) : Host.Outcome State Fault Refusal :=
  .next (s.boxQueue mb 0xC010 (fun t q i =>
    let v : Nat → W64 := fun o => BitVec.ofNat 64 (inNum i o 8)
    match firstBad [rsvIn i 4 4, (8, bits (v 8) 9 0 != 0), (16, bits (v 16) 7 0 != 0),
                    (24, bits (v 24) 23 20 != 0 || bits (v 24) 63 44 != 0), (27, decide (bits (v 24) 27 24 < 4))] with
    | some o => t.boxRange mb o
    | none => t.queTry mb q (fun u => ((u.putRing q (v 8)).putCpl q (v 16)).putCfg q (v 24))))

/-- QUEUE_ENABLE: QUE_CTL command 1. -/
def execQueueEnable (mb : Bool) (s : State) : Host.Outcome State Fault Refusal :=
  .next (s.boxQueue mb 0xC011 (fun t q _ => t.queTry mb q (fun u => u.queCtl q 1)))

/-- QUEUE_QUIESCE: QUE_CTL command 2. -/
def execQueueQuiesce (mb : Bool) (s : State) : Host.Outcome State Fault Refusal :=
  .next (s.boxQueue mb 0xC012 (fun t q _ => t.queTry mb q (fun u => u.queCtl q 2)))

/-- QUEUE_ABORT: QUE_CTL command 3. -/
def execQueueAbort (mb : Bool) (s : State) : Host.Outcome State Fault Refusal :=
  .next (s.boxQueue mb 0xC013 (fun t q _ => t.queTry mb q (fun u => u.queCtl q 3)))

/-- QUEUE_RESET: QUE_CTL command 4. -/
def execQueueReset (mb : Bool) (s : State) : Host.Outcome State Fault Refusal :=
  .next (s.boxQueue mb 0xC014 (fun t q _ => t.queTry mb q (fun u => u.queCtl q 4)))

/-- QUEUE_QUERY: QUE_STATUS, QUE_IDX and QUE_CFG. -/
def execQueueQuery (mb : Bool) (s : State) : Host.Outcome State Fault Refusal :=
  .next (s.boxQueue mb 0xC015 (fun t q _ => t.boxOk mb
    (leBytes 4 (t.q q).status ++ zeros 4 ++ leBytes 8 (t.q q).idx ++ leBytes 8 (t.q q).cfg.toNat)))

/-! ### Power (17_power_clocks_startup.md R450 to R452, R460, R478) -/

/-- POWER_LIMIT_SET: PWR_CAP is written (R460). -/
def execPowerLimitSet (mb : Bool) (s : State) : Host.Outcome State Fault Refusal :=
  .next (s.runBox mb 0xC030 (fun t i => t.boxChecked mb [rsvIn i 4 4] true (fun u =>
    ({ u with pwr := { u.pwr with cap := BitVec.ofNat 32 (inNum i 0 4) } } : State).boxOk mb [])))

/-- POWER_QUERY: the power controller's readings (R478). -/
def execPowerQuery (mb : Bool) (s : State) : Host.Outcome State Fault Refusal :=
  .next (s.runBox mb 0xC031 (fun t _ => t.boxOk mb
    (leBytes 4 t.pwrStatus ++ leBytes 4 t.pwr.cap.toNat ++ leBytes 8 t.pwrMode ++ leBytes 4 t.pwrTherm ++ zeros 4 ++
     (List.range 50).flatMap (fun d => leBytes 4 (t.dom d).word) ++ leBytes 2 t.hottest ++
     leBytes 2 (Tab.get 0 t.pwr.temp t.hottest).toNat ++ zeros 28)))

/-- Whether the domain of a DOMAIN_SET accepts it (R450). -/
def State.domainAccepts (s : State) (d : Nat) (on force : Bool) : Bool :=
  let parentOn := match domParent d with | some p => s.domOn p | none => true
  let orderly := match domKind d with
    | .mesh _ => false
    | .links _ => false
    | .skim => (List.range 16).all (fun l => decide ((s.lane l).state = .disarmed))
    | .compute _ _ => (domBlocks d).all (fun b => (s.blk b).reserved.isNone)
    | .net r => (s.ceng r).runs.isEmpty && !(r == 0 && bit s.net.gctl 0)
    | _ => true
  (!on || parentOn) && (force || orderly) && (on || !(decide ((s.dom d).state = .off) || decide ((s.dom d).state = .failed)))

/-- A domain that is not in use goes off at once; one that is on drains first (R451). -/
def State.orderlyOff (s : State) (d : Nat) : State :=
  if s.domOn d then s.setDom d { s.dom d with state := .draining }
  else
    let s1 : State := { s with pwr := { s.pwr with waking := s.pwr.waking.filter (fun k => k != d) } }
    (s1.powerOff d).kickWake

/-- DOMAIN_SET begins its work (R450 to R452); a domain without populated units stays off (R468). -/
def State.domainSet (s : State) (d : Nat) (on force : Bool) : State :=
  if on then (if s.domOn d || s.unpopulated d then s.domainSetDone d true else s.wake d)
  else if force then (s.forceDown d 3).domainSetDone d false
  else s.orderlyOff d

/-- DOMAIN_SET: one domain is powered up or down in the background (R450). -/
def execDomainSet (mb : Bool) (s : State) : Host.Outcome State Fault Refusal :=
  .next (s.runBg mb 0xC032 (fun t i =>
    let d := inNum i 0 1
    let on := inNum i 1 1 % 2 == 1
    let force := decide (inNum i 1 1 ≥ 2)
    t.boxChecked mb [(0, decide (d < 4) || decide (d ≥ 50)), (1, decide (inNum i 1 1 ≥ 4)), rsvIn i 2 6] (t.domainAccepts d on force) (fun u =>
      u.bgRuns mb 0xC032 (.domainSet d on force) (fun v => v.domainSet d on force))))

/-- WARM_RESET: every queue quiesces; what still runs after 10 ms is aborted, and the warm reset follows (Table 16-4). -/
def execWarmReset (mb : Bool) (s : State) : Host.Outcome State Fault Refusal :=
  .next (s.runBg mb 0xC033 (fun t _ => t.bgRuns mb 0xC033 .warmReset (fun u =>
    u.each u.que.que (fun v e => if (v.q e.1).state = .running then v.queQuiesce e.1 else v))))

/-- MODE_QUERY: PWR_MODE. -/
def execModeQuery (mb : Bool) (s : State) : Host.Outcome State Fault Refusal :=
  .next (s.runBox mb 0xC034 (fun t _ => t.boxOk mb (leBytes 8 t.pwrMode)))

/-! ### Queue pairs, windows and ports (12_umakin_transport.md R324) -/

/-- The lowest number from k on that is not in a list, at most n steps on. -/
def lowestFree (used : List Nat) : Nat → Nat → Nat
  | 0, k => k
  | n + 1, k => if used.any (fun u => u == k) then lowestFree used n (k + 1) else k

/-- The explicit queue pairs in use. -/
def State.explicitQps (s : State) : List Nat := (s.net.qp.filter (fun e => decide (65536 ≤ e.1) && e.2.cfg.isSome)).map (fun e => e.1)

/-- Whether n bytes of device memory at an offset are all populated. -/
def State.allPlaced (s : State) (a n : Nat) : Bool :=
  decide (a + n ≤ allMem) && (List.range (n / 1024 + 1)).all (fun k => (s.place (Nat.min (a + 1024 * k) (a + n - 1))).isSome)

/-- The attributes of QP_CREATE's input (Table 12-20). -/
def qpInput (i : List Byte) : QpCfg :=
  { pasid := BitVec.ofNat 20 (inNum i 0 4), peer := BitVec.ofNat 16 (inNum i 4 2), rqpn := BitVec.ofNat 18 (inNum i 8 4),
    lmask := BitVec.ofNat 20 (inNum i 12 4), rmask := BitVec.ofNat 20 (inNum i 16 4), paths := inNum i 20 1, slog2 := inNum i 22 1,
    rlog2 := inNum i 23 1, sring := BitVec.ofNat 64 (inNum i 24 8), scpl := BitVec.ofNat 64 (inNum i 32 8),
    rring := BitVec.ofNat 64 (inNum i 40 8), rcpl := BitVec.ofNat 64 (inNum i 48 8), vsel := decide (inNum i 56 2 ≥ 32768),
    vector := BitVec.ofNat 11 (inNum i 56 2) }

/-- The fields of QP_CREATE that break their ranges (R324, Tables 12-6 and 12-20). -/
def State.qpBad (s : State) (i : List Byte) : List (Nat × Bool) :=
  let log : Nat → Bool := fun o => decide (inNum i o 1 < 4) || decide (inNum i o 1 > 16)
  let ring : Nat → Nat → Nat × Bool := fun o n => (o, inNum i o 8 % n != 0 || !s.allPlaced (inNum i o 8) n)
  [(0, decide (inNum i 0 4 ≥ 2 ^ 20)), rsvIn i 6 2, (8, decide (inNum i 8 4 < 65536) || decide (inNum i 8 4 ≥ 262144)),
   (12, inNum i 12 4 == 0 || decide (inNum i 12 4 ≥ 2 ^ 20)), (16, inNum i 16 4 == 0 || decide (inNum i 16 4 ≥ 2 ^ 20)),
   (20, inNum i 20 1 == 0 || decide (inNum i 20 1 > 64)), (22, log 22), (23, log 23)] ++
  (if log 22 || log 23 then [] else
    [ring 24 (64 * 2 ^ inNum i 22 1), ring 32 (16 * 2 ^ inNum i 22 1), ring 40 (16 * 2 ^ inNum i 23 1), ring 48 (16 * 2 ^ inNum i 23 1)]) ++
  [(56, decide (inNum i 56 2 / 2048 % 16 ≠ 0)), rsvIn i 58 6]

/-- QP_CREATE: the lowest free explicit queue pair takes its attributes, in RESET (R324). -/
def execQpCreate (mb : Bool) (s : State) : Host.Outcome State Fault Refusal :=
  .next (s.runBox mb 0xC050 (fun t i =>
    let used := t.explicitQps
    let n := lowestFree used used.length 65536
    t.boxChecked mb (t.qpBad i) (decide (n < 262144)) (fun u =>
      (u.setQp n { Qp.init with state := .reset, cfg := some (qpInput i), gen := BitVec.ofNat 8 (inNum i 21 1) }).boxOk mb (leBytes 4 n))))

/-- A queue pair moves to RESET: its work requests are flushed, its generation rises and its PSNs are 0; its rings stand as they are
(R324, R344). -/
def State.qpToReset (s : State) (n : Nat) : State :=
  let s1 := s.each (s.qp n).wrs (fun t w => t.sendRecord n w 10 0)
  let q := s1.qp n
  s1.setQp n { Qp.init with
    state := .reset, cfg := q.cfg, gen := q.gen + 1, spi := q.spi, sci := q.sci, sphase := q.sphase, rpi := q.rpi, rci := q.rci,
    rcplIdx := q.rcplIdx, rphase := q.rphase }

/-- A queue pair moves to READY: it takes its first window, and the work requests that wait in its send ring (R324, R340). -/
def State.qpToReady (s : State) (n : Nat) : State :=
  (State.fetchWrs n 65536 (s.setQp n ({ s.qp n with state := .ready }.fresh s.initWindow))).endBadWr n

/-- QP_MODIFY: RESET to READY, READY to RESET, or ERROR to RESET (R324). -/
def execQpModify (mb : Bool) (s : State) : Host.Outcome State Fault Refusal :=
  .next (s.runBox mb 0xC051 (fun t i =>
    let n := inNum i 0 4
    let dst := inNum i 4 1
    let st := (t.qp n).state
    let ok := (t.qp n).cfg.isSome && (if dst = 1 then decide (st = .reset) else decide (st = .ready) || decide (st = .error))
    t.boxChecked mb [(0, decide (n < 65536) || decide (n ≥ 262144)), (4, decide (dst > 1)), rsvIn i 5 3] ok (fun u =>
      (if dst = 1 then u.qpToReady n else u.qpToReset n).boxOk mb [])))

/-- QP_DESTROY: an explicit queue pair in RESET is no longer in use (R324). -/
def execQpDestroy (mb : Bool) (s : State) : Host.Outcome State Fault Refusal :=
  .next (s.runBox mb 0xC052 (fun t i =>
    let n := inNum i 0 4
    t.boxChecked mb [(0, decide (n < 65536) || decide (n ≥ 262144))] ((t.qp n).cfg.isSome && decide ((t.qp n).state = .reset)) (fun u =>
      (u.setQp n Qp.init).boxOk mb [])))

/-- The code of a queue pair's state (Table 12-21). -/
def QpState.code : QpState → Nat
  | .reset => 0 | .ready => 1 | .error => 2 | .idle => 3 | .active => 4 | .dead => 5 | .unused => 0

/-- QP_QUERY: the context of a queue pair (Table 12-21). -/
def execQpQuery (mb : Bool) (s : State) : Host.Outcome State Fault Refusal :=
  .next (s.runBox mb 0xC053 (fun t i =>
    let n := inNum i 0 4
    let q := t.qp n
    t.boxChecked mb [(0, decide (n ≥ 262144))] (t.qpUsed n) (fun u => u.boxOk mb
      ([BitVec.ofNat 8 q.state.code, t.genOf n, 0, 0] ++ leBytes 4 q.snext.toNat ++ leBytes 4 q.suna.toNat ++ leBytes 4 q.cum.toNat ++
       leBytes 4 q.cwnd ++ leBytes 4 q.srtt ++ leBytes 4 q.rttvar ++ leBytes 4 q.alpha.toNat ++ leBytes 2 q.expiries ++ zeros 2 ++
       leBytes 4 q.unacked ++ leBytes 2 (t.peer n).toNat ++ zeros 22))))

/-- The fields of WINDOW_SET that break their ranges (Table 12-15). -/
def windowBad (i : List Byte) : List (Nat × Bool) :=
  [(0, decide (inNum i 0 4 ≥ 256)), rsvIn i 4 4, (8, (BitVec.ofNat 64 (inNum i 8 8) &&& ~~~0xF0003FFFFFFFF000#64) != 0),
   (16, (BitVec.ofNat 64 (inNum i 16 8) &&& ~~~0x00003FFFFFFFF000#64) != 0), rsvIn i 28 4]

/-- WINDOW_SET writes its window, and completes once WIN_BUSY reads 0 (R326). -/
def State.windowStep (s : State) (m : Bool) (i : List Byte) : State :=
  s.boxChecked m (windowBad i) (s.domOn 13) (fun u =>
    let v := u.setWindow (inNum i 0 4) (BitVec.ofNat 64 (inNum i 8 8)) (BitVec.ofNat 64 (inNum i 16 8)) (BitVec.ofNat 32 (inNum i 24 4))
    if v.net.winBusy then v else v.boxOk m [])

/-- WINDOW_SET: a memory window is written (Table 16-4, R326). -/
def execWindowSet (mb : Bool) (s : State) : Host.Outcome State Fault Refusal :=
  .next (s.runBox mb 0xC054 (fun t i => t.windowStep mb i))

/-- WINDOW_DRAIN_COMPLETE (R326): every placement that passed its check under old windows has been performed; a WINDOW_SET whose window
stands completes. -/
def execWindowDrainComplete (s : State) : Host.Outcome State Fault Refusal :=
  .next (([false, true] : List Bool).foldl (fun (t : State) m => t.runBox m 0xC054 (fun u i =>
    if (u.setWindow (inNum i 0 4) (BitVec.ofNat 64 (inNum i 8 8)) (BitVec.ofNat 64 (inNum i 16 8)) (BitVec.ofNat 32 (inNum i 24 4))).net.winBusy
    then u else u.windowStep m i)) { s with net := { s.net with winBusy := false } })

/-- PORT_MODE_SET: NET_PORT_CFG.MODE of a port; NARROWED clears (R308; 18_identity_and_optical_modules.md R488). -/
def execPortModeSet (mb : Bool) (s : State) : Host.Outcome State Fault Refusal :=
  .next (s.runBox mb 0xC055 (fun t i =>
    let p := inNum i 0 1
    t.boxChecked mb [(0, decide (p ≥ 10)), (1, decide (inNum i 1 1 ≥ 4)), rsvIn i 2 6] (t.domOn (netDom p)) (fun u =>
      let v := u.portMode p (BitVec.ofNat 2 (inNum i 1 1))
      (v.setNport p { v.nport p with narrowed := false }).boxOk mb [])))

/-- IQP_RESET: NET_IQP_CTL with RESET for a device (R345). -/
def execIqpReset (mb : Bool) (s : State) : Host.Outcome State Fault Refusal :=
  .next (s.runBox mb 0xC056 (fun t i => t.boxChecked mb [rsvIn i 2 2] (t.domOn 13) (fun u => (u.iqpReset (inNum i 0 2)).boxOk mb [])))

/-! ### Collective groups (13_collectives_and_hawk_store.md R348 to R350; R434) -/

/-- Where the entry of a group stands. -/
def State.groupAt (s : State) (g : Nat) : Nat := bits (s.ceng ((s.nextRegion 0).getD 0)).gtab 45 12 * 4096 + 64 * g

/-- The collectives of a group that run on this device in any role. -/
def State.groupRuns (s : State) (g : Nat) : Nat :=
  (((List.range 5).flatMap (fun r => (s.ceng r).runs)).filter (fun x => x.1 == g)).eraseDups.length

/-- The engines forget what is left of a group's ended collectives. -/
def State.forgetGroup (s : State) (g : Nat) : State :=
  s.each (List.range 5) (fun t r =>
    let c := t.ceng r
    t.setCeng r { c with nodes := c.nodes.filter (fun x => x.group != g), slots := c.slots.filter (fun x => x.group != g),
                         stages := c.stages.filter (fun x => x.group != g) })

/-- Whether a list rises strictly. -/
def rises : List W16 → Bool
  | a :: b :: l => decide (a.toNat < b.toNat) && rises (b :: l)
  | _ => true

/-- The checks of R434, each with the input offset of the field that it is about. -/
def State.groupChecks (s : State) (e : BitVec 512) : List (Nat × Bool) :=
  let n := groupN e
  let pods := s.gPods e
  let mlist := s.allPlaced (bits e 127 64) (2 * n)
  let nlist := s.allPlaced (bits e 191 128) (2 * (pods.length + 1))
  [(4, mlist && (decide (gSelf e ≥ n) || s.gMember e (gSelf e) != s.xlt.devnum)),
   (11, !bit e 63 || decide (bits e 59 57 > 4) || gNodeKind e == 3),
   (12, !mlist || !rises (s.gMembers e)),
   (20, gNodeKind e != 0 && (!nlist || (mlist && !(pods.all (fun p => (List.range pods.length).any (fun k => podOf (s.gNode e (k + 1)) == p)))))),
   (28, gStage e % 4096 != 0 || !s.allPlaced (gStage e) (gStageLen e)),
   (36, decide (bits e 287 256 < 1024))]

/-- GROUP_CREATE: an entry is checked and written; the group's sequence starts at 0 (R349, R434). -/
def execGroupCreate (mb : Bool) (s : State) : Host.Outcome State Fault Refusal :=
  .next (s.runBox mb 0xC070 (fun t i =>
    let g := inNum i 0 4
    let e : BitVec 512 := BitVec.ofNat 512 (inNum i 4 64)
    t.boxChecked mb [(0, decide (g ≥ 4096)), (6, bits e 31 16 != 0), (10, bits e 56 48 != 0), (44, bits e 511 320 != 0)]
      (t.groupEntry g).isNone (fun u =>
        match lowestBad (u.groupChecks e) with
        | some o => u.boxFail mb 2 o 3
        | none =>
          let v := (u.forgetGroup g).devWrite (u.groupAt g) (leBytes 64 e.toNat)
          ({ v with col := { v.col with seq := Tab.set 0 v.col.seq g 0 } } : State).boxOk mb [])))

/-- GROUP_DESTROY: V clears, unless a collective of the group runs (Table 16-4). -/
def execGroupDestroy (mb : Bool) (s : State) : Host.Outcome State Fault Refusal :=
  .next (s.runBox mb 0xC071 (fun t i =>
    let g := inNum i 0 4
    t.boxChecked mb [(0, decide (g ≥ 4096))] (t.groupRuns g == 0) (fun u =>
      (match u.groupEntry g with
       | some e => u.devWrite (u.groupAt g) (leBytes 8 (bits e 62 0))
       | none => u).boxOk mb [])))

/-- GROUP_QUERY: the entry, the next SEQ, and how many collectives run. -/
def execGroupQuery (mb : Bool) (s : State) : Host.Outcome State Fault Refusal :=
  .next (s.runBox mb 0xC072 (fun t i =>
    let g := inNum i 0 4
    t.boxChecked mb [(0, decide (g ≥ 4096))] true (fun u => u.boxOk mb
      (leBytes 64 ((u.tableRead (u.groupAt g) 64).getD 0) ++ leBytes 2 (Tab.get 0 u.col.seq g).toNat ++ leBytes 2 (u.groupRuns g) ++ zeros 4))))

/-- HAWK_QUERY: COL_STATUS of the five engines. -/
def execHawkQuery (mb : Bool) (s : State) : Host.Outcome State Fault Refusal :=
  .next (s.runBox mb 0xC073 (fun t _ => t.boxOk mb ((List.range 5).flatMap (fun r => leBytes 8 (t.ceng r).status))))

/-! ### Skim lanes (14_skim_lanes.md R395) -/

/-- LANE_QUERY: a lane's status and counters, which it does not clear (Table 14-15). -/
def execLaneQuery (mb : Bool) (s : State) : Host.Outcome State Fault Refusal :=
  .next (s.runBox mb 0xC080 (fun t i =>
    let x := t.lane (inNum i 0 4)
    t.boxChecked mb [(0, decide (inNum i 0 4 ≥ 16))] true (fun u => u.boxOk mb
      (leBytes 4 x.status ++ leBytes 4 x.dl.toNat ++ leBytes 8 x.cMatch.toNat ++ leBytes 8 x.cReply.toNat ++ leBytes 4 x.cNoanswer.toNat ++
       leBytes 4 x.cLate.toNat ++ leBytes 4 x.cMismatch.toNat ++ leBytes 4 x.cSingle.toNat ++ leBytes 4 x.cFcsbad.toNat ++
       leBytes 4 x.cRdrop.toNat ++ leBytes 4 x.cTxdrop.toNat ++ leBytes 4 x.ring ++ zeros 8))))

/-- LANE_CHECK: every check of arming is applied to a configuration block, and nothing is armed (Table 16-4). -/
def execLaneCheck (mb : Bool) (s : State) : Host.Outcome State Fault Refusal :=
  .next (s.runBox mb 0xC081 (fun t i =>
    let a := inNum i 0 8
    t.boxChecked mb [(0, a % 4096 != 0)] true (fun u =>
      match u.readLcb a with
      | none => u.boxFail mb 2 0 3
      | some l => match lowestBad (u.blockChecks l ++ u.lcbChecks l 0) with
        | some o => u.boxFail mb 2 o 3
        | none => u.boxOk mb [])))

/-! ### Faults and salvage (R431, R432; 15_faults_and_dust_sheets.md R410, R412, R418, R419) -/

/-- The unit that a unit operand names, if it takes a dust sheet (R431). -/
def dustOperand (v : Nat) : Option DustUnit :=
  if v ≥ 2 ^ 20 then none
  else match dustUnitOf (v / 65536) (v % 65536) with
    | some u => if dustNum u = (v / 65536, v % 65536) then some u else none
    | none => none

/-- A cell that a fuse disabled, or that the spare replaced at wafer test. -/
def State.fusedCell (s : State) (u : DustUnit) : Bool :=
  match u with
  | .cell b p => decide (((s.blk b.val).cell p.val).state.toNat = 3)
  | _ => false

/-- DUST_SHEET: a unit that is under none is placed under a dust sheet, as by a FENCE (R410). -/
def execDustSheet (mb : Bool) (s : State) : Host.Outcome State Fault Refusal :=
  .next (s.runBox mb 0xC090 (fun t i =>
    match dustOperand (inNum i 0 4) with
    | none => t.boxRange mb 0
    | some u =>
      if t.underSheet u || t.fusedCell u then t.boxState mb
      else (t.dustUnit u 9 0 { t.plainRec 6 (dustNum u).2 0 0 0 [] with grp := (dustNum u).1, kind := 0, sev := 3 }).boxOk mb []))

/-- The domains that a unit's test needs (17_power_clocks_startup.md R453, R455). -/
def testDomains (u : DustUnit) : List Nat :=
  match u with
  | .cell b _ => [computeDom b.val]
  | .block b => [computeDom b.val]
  | .region r => [10, 11, 12, 5, 6, 7, 8, 9, 13].map (fun k => k + 9 * r.val)
  | _ => []

/-- MAKE_GOOD: the test of a unit under a dust sheet begins in the background (R412). -/
def execMakeGood (mb : Bool) (s : State) : Host.Outcome State Fault Refusal :=
  .next (s.runBg mb 0xC091 (fun t i =>
    match dustOperand (inNum i 0 4) with
    | none => t.boxRange mb 0
    | some u =>
      if !t.ownSheet u || underAny t.ownSheet u || t.fusedCell u then t.boxState mb
      else t.bgRuns mb 0xC091 .makeGood (fun v =>
        let w : State := { v with flt := { v.flt with makeGood := some { u := u, seen := [] } } }
        w.each ((testDomains u).filter (fun d => !w.unpopulated d)) (fun x d => x.wake d))))

/-- FAULT_SNAPSHOT: the latches, the sticky arrays and the last records (R419, Table 15-17). -/
def execFaultSnapshot (mb : Bool) (s : State) : Host.Outcome State Fault Refusal :=
  .next (s.runBox mb 0xC092 (fun t _ => t.boxOk mb
    (leBytes 8 t.flt.oclk.toNat ++ leBytes 8 t.flt.fallback.toNat ++ leBytes 4 t.flt.chip.toNat ++ leBytes 4 t.fltSummary ++ zeros 40 ++
     (List.range 8192).flatMap (fun w => leBytes 4 (Tab.get 0 t.flt.sticky w).toNat) ++
     (List.range 16).flatMap (fun k => leBytes 64 ((t.flt.last[15 - k]?).getD 0).toNat))))

/-- What SALVAGE_MODE returns (Table 15-18). -/
def State.salvageOut (s : State) : List Byte :=
  leBytes 8 s.flt.walked.toNat ++ (List.range 5).flatMap (fun r => leBytes 4 (s.rc r).poisoned.toNat) ++
    (List.range 5).flatMap (fun r => leBytes 4 (s.rc r).hlost.toNat) ++ [BitVec.ofNat 8 (b2n (s.map 0).spread), 0, 0, 0] ++
    (List.range 20).flatMap (fun p => leBytes 2 (s.mport p).status) ++ zeros 4

/-- SALVAGE_MODE: outside a takeover the queues stop and the caches are walked first; READONLY discards host writes (Table 16-4,
Table 15-8). -/
def execSalvageMode (mb : Bool) (s : State) : Host.Outcome State Fault Refusal :=
  .next (s.runBox mb 0xC093 (fun t i => t.boxChecked mb [(0, decide (inNum i 0 4 > 1))] true (fun u =>
    let v : State := if u.hpt.fallback then u
      else (({ u with flt := { u.flt with walked := 0 } } : State).stopQueues.drainBuffers).walkAll
    let w : State := { v with flt := { v.flt with salvage := true, readonly := inNum i 0 4 == 1 } }
    w.boxOk mb w.salvageOut)))

/-- WARM_RESET_REQUEST: the warm reset starts 1 ms later (Table 15-8). -/
def execWarmResetRequest (mb : Bool) (s : State) : Host.Outcome State Fault Refusal :=
  .next (s.runBox mb 0xC094 (fun t _ => ({ t with mail := { t.mail with resetAsked := true } } : State).boxOk mb []))

/-- FAULT_INJECT: a source shows error for so many cycles, and its event takes its course (R432). -/
def execFaultInject (mb : Bool) (s : State) : Host.Outcome State Fault Refusal :=
  .next (s.runBox mb 0xC095 (fun t i =>
    let v := inNum i 0 4
    let g := v / 65536 % 16
    let u := v % 65536
    let k := v / 2 ^ 20 % 8
    let n := inNum i 4 4
    t.boxChecked mb [(0, decide (v ≥ 2 ^ 23) || !srcUnit g u), (4, decide (n < 1) || decide (n > 1000000))] (bits (t.sev g k) 2 0 != 5) (fun w =>
      let x := w.boxOk mb []
      let y : State := { x with flt := { x.flt with inject := x.flt.inject.filter (fun e => e.1 != srcKey g u k) ++ [(srcKey g u k, BitVec.ofNat 32 n)] } }
      if g = 0 ∧ ((y.blk (u / 17)).cell (u % 17)).state.toNat = 3 then y else y.faultEvent g u k false y.flt.oclk 0)))

/-- FAULT_INJECT_END: the cycles of an injection are over, and the source shows no error any more (R432). -/
def execFaultInjectEnd (src : Src) (s : State) : Host.Outcome State Fault Refusal :=
  let g := src.g.toNat
  let u := src.u.toNat
  let k := src.k.toNat
  .next (if s.flt.inject.any (fun e => e.1 == srcKey g u k) then
      let t := s.setSrc g u k { s.srcSt g u k with level := false, grace := false }
      { t with flt := { t.flt with inject := t.flt.inject.filter (fun e => e.1 != srcKey g u k) } }
    else s)

/-! ### The flash (17_power_clocks_startup.md R469 to R473) -/

/-- PRIMER_READ: bytes of the flash. -/
def execPrimerRead (mb : Bool) (s : State) : Host.Outcome State Fault Refusal :=
  .next (s.runBox mb 0xC0A0 (fun t i => t.boxChecked mb
    [(0, decide (inNum i 0 4 > 262144)), (4, decide (inNum i 4 4 > 2 ^ 20) || decide (inNum i 0 4 + inNum i 4 4 > 262144))] true (fun u =>
      u.boxOk mb (u.flashRead (inNum i 0 4) (inNum i 4 4)))))

/-- PRIMER_WRITE: bytes of the image are replaced in the background (Table 16-4). -/
def execPrimerWrite (mb : Bool) (s : State) : Host.Outcome State Fault Refusal :=
  .next (s.runBg mb 0xC0A1 (fun t i => t.boxChecked mb
    [(0, decide (inNum i 0 4 > 262144)), (4, inNum i 4 4 != i.length - 8 || decide (inNum i 0 4 + inNum i 4 4 > 262144))] true (fun u =>
      u.bgRuns mb 0xC0A1 (.primerWrite (inNum i 0 4) (i.drop 8)) (fun v => v))))

/-- The image with bytes replaced from an offset on, and a new check word at the end that its LENGTH names, if that is a legal one
(R469, R472). -/
def State.primerWith (s : State) (off : Nat) (data : List Byte) : State :=
  let f := flashPut s.pwr.flash off data
  let byteAt : Nat → List Byte := fun n => (List.range n).map (fun k => Tab.get 0 f k)
  let len := leVal ((List.range 4).map (fun k => Tab.get 0 f (8 + k)))
  if len % 4 = 0 ∧ 256 ≤ len ∧ len ≤ 262144 then s.flashImage (withCheck (byteAt (len - 4)))
  else s.flashImage (byteAt (Nat.max (off + data.length) (Nat.min s.imageLen 262144)))

/-- CALIBRATION_READ: the calibration record in force (R473). -/
def execCalibrationRead (mb : Bool) (s : State) : Host.Outcome State Fault Refusal :=
  .next (s.runBox mb 0xC0A2 (fun t _ => t.boxOk mb ((List.range 4352).map (fun k => Tab.get 0 t.pwr.cal k))))

/-- CALIBRATION_WRITE: the record is replaced in the background, when its last word is the one that confirms it (R473, Table 16-4). -/
def execCalibrationWrite (mb : Bool) (s : State) : Host.Outcome State Fault Refusal :=
  .next (s.runBg mb 0xC0A3 (fun t i => t.boxChecked mb [rsvIn i 228 28, (4352, inNum i 4352 4 != 0xCA11B8A7)] true (fun u =>
    u.bgRuns mb 0xC0A3 (.calibration (i.take 4352)) (fun v => v))))

/-- The calibration record is in force, and stands in the image where that holds one (R472, R473). -/
def State.calibrate (s : State) (data : List Byte) : State :=
  let s1 : State := { s with pwr := { s.pwr with cal := flashPut [] 0 data } }
  if s1.primerOk then
    match s1.primerDir.find? (fun e => e.1 == 7) with
    | some e => s1.primerWith e.2.1 (data.take e.2.2)
    | none => s1
  else s1

/-! ### Modules, fuses and addressing -/

/-- MODULE_INFO: the identity, hours and rated life of a module (18_identity_and_optical_modules.md R485). -/
def execModuleInfo (mb : Bool) (s : State) : Host.Outcome State Fault Refusal :=
  .next (s.runBox mb 0xC0A4 (fun t i =>
    let x := t.modl (inNum i 0 4)
    t.boxChecked mb [(0, decide (inNum i 0 4 ≥ 10))] true (fun u => u.boxOk mb
      ((match x.id with
        | some d => leBytes 16 d.name.toNat ++ leBytes 16 d.part.toNat ++ leBytes 16 d.serial.toNat
        | none => zeros 48) ++ leBytes 4 x.hours.toNat ++ leBytes 4 x.rated.toNat ++ leBytes 4 x.status ++ zeros 196))))

/-- FUSE_READ: the serial number, the key hash and the spare-cell map (18_identity_and_optical_modules.md R481). -/
def execFuseRead (mb : Bool) (s : State) : Host.Outcome State Fault Refusal :=
  .next (s.runBox mb 0xC0A5 (fun t _ => t.boxOk mb
    (leBytes 8 t.idn.fuses.dsn.toNat ++ leBytes 48 t.idn.fuses.keyHash.toNat ++
     (List.range 100).map (fun b => match t.idn.fuses.spare.find? (fun e => e.1.val == b) with
       | some e => BitVec.ofNat 8 (128 + e.2.val)
       | none => 31) ++ zeros 100)))

/-- DEVNUM_SET: the device number, while NET_GCTL.EN is 0 and no queue runs (R433). -/
def execDevnumSet (mb : Bool) (s : State) : Host.Outcome State Fault Refusal :=
  .next (s.runBox mb 0xC0B0 (fun t i => t.boxChecked mb [rsvIn i 2 2] (!bit t.net.gctl 0 && !t.anyRuns) (fun u =>
    ({ u with xlt := { u.xlt with devnum := BitVec.ofNat 16 (inNum i 0 2) } } : State).boxOk mb [])))

/-- GLOBAL_MODE_SET: XLT_GCTL is written (10_translation.md R279); a refused write sets GCTL_REFUSED. -/
def execGlobalModeSet (mb : Bool) (s : State) : Host.Outcome State Fault Refusal :=
  .next (s.runBox mb 0xC0B1 (fun t i =>
    let v : W64 := BitVec.ofNat 64 (inNum i 0 8)
    t.boxChecked mb [(0, (v &&& ~~~gctlMask) != 0)] (t.domOn 3) (fun u =>
      if u.gctlOk v then (u.writeGctl v).boxOk mb [] else (u.writeGctl v).boxState mb)))

/-- MEMBER_SET: XLT_MEMBER of an index is written. -/
def execMemberSet (mb : Bool) (s : State) : Host.Outcome State Fault Refusal :=
  .next (s.runBox mb 0xC0B2 (fun t i => t.boxChecked mb [(0, decide (inNum i 0 4 ≥ 8)), (4, decide (inNum i 4 4 / 65536 % 32768 ≠ 0))]
    (t.domOn 3) (fun u => (u.putMember (inNum i 0 4) (BitVec.ofNat 32 (inNum i 4 4))).boxOk mb [])))

/-- XLT_QUERY: XLT_GCTL, XLT_DEVNUM, XLT_STATUS and XLT_FAULTS, 8 bytes each, cleared by none. -/
def execXltQuery (mb : Bool) (s : State) : Host.Outcome State Fault Refusal :=
  .next (s.runBox mb 0xC0B3 (fun t _ => t.boxOk mb
    (leBytes 8 t.xlt.gctl.toNat ++ leBytes 8 t.xlt.devnum.toNat ++ leBytes 8 t.xltStatus ++ leBytes 8 t.xlt.faults.toNat)))

/-! ### CXL commands (R430; layouts of CXL 3.1, PRESUMED, notes/assumptions 13) -/

/-- IDENTIFY MEMORY DEVICE: the capacity in units of 256 MiB, all of it volatile. -/
def execIdentifyMemoryDevice (mb : Bool) (s : State) : Host.Outcome State Fault Refusal :=
  .next (s.runBox mb 0x4000 (fun t _ =>
    let cap := leBytes 8 (t.popEnd / 2 ^ 28)
    t.boxOk mb ((List.range 16).map (fun k => Config.configByte (0x20000 + k)) ++ cap ++ cap ++ zeros 37)))

/-- The identifier of the Command Effects Log. -/
def celId : List Byte := [0x0D, 0xA9, 0xC0, 0xB5, 0xBF, 0x41, 0x4B, 0x78, 0x8F, 0x79, 0x96, 0xB1, 0x62, 0x3B, 0x3F, 0x17]

/-- The Command Effects Log: the opcode of every command offered, with its effects, which the manual does not give. -/
def celLog : List Byte :=
  boxCmds.flatMap (fun c => leBytes 2 c.opcode ++ [Config.configByte (0x30000 + 2 * c.opcode), Config.configByte (0x30001 + 2 * c.opcode)])

/-- GET SUPPORTED LOGS: the Command Effects Log and its size. -/
def execGetSupportedLogs (mb : Bool) (s : State) : Host.Outcome State Fault Refusal :=
  .next (s.runBox mb 0x400 (fun t _ => t.boxOk mb ([1, 0, 0, 0, 0, 0, 0, 0] ++ celId ++ leBytes 4 (4 * boxCmds.length))))

/-- GET LOG: bytes of the Command Effects Log. -/
def execGetLog (mb : Bool) (s : State) : Host.Outcome State Fault Refusal :=
  .next (s.runBox mb 0x401 (fun t i =>
    let size := 4 * boxCmds.length
    t.boxChecked mb [(0, i.take 16 != celId), (16, decide (inNum i 16 4 > size)), (20, decide (inNum i 16 4 + inNum i 20 4 > size))] true (fun u =>
      u.boxOk mb ((celLog.drop (inNum i 16 4)).take (inNum i 20 4)))))

/-! ### The end of a background command (R426) -/

/-- BACKGROUND_COMMAND_END: the background command has done its work: FW_START and the writes of the flash end with it, the others once their
outcome is known; WARM_RESET never ends (R426, R438). -/
def execBackgroundCommandEnd (s : State) : Host.Outcome State Fault Refusal :=
  .next (match s.mail.bg with
    | none => s
    | some g =>
      if s.rst.phase ≠ .none then s
      else match g.kind with
        | .fwStart => s.fwEnd
        | .primerWrite off data => (s.primerWith off data).bgDone 0 0 []
        | .calibration data => (s.calibrate data).bgDone 0 0 []
        | .warmReset => s
        | _ => match g.result with
          | none => s
          | some (ret, ext) => s.bgDone ret.toNat ext.toNat (if ext = 5 then leBytes 4 g.step.toNat ++ leBytes 4 5 else []))

end Sys2Proof.Machine
end

