-- ==== Sys2Proof/Machine/Board.lean ====
section
/-! DEFINITION. The board controller's bus and the test access port (19_die_ports_and_integration.md R501, R502, R506, R507). -/
namespace Sys2Proof.Machine

/-! ### The board bus (R501, R502) -/

/-- The register of the board-bus map that a pointer lies in: where it begins there, its bytes, and its BAR0 offset (Table 19-3). -/
def boardMap (p : Nat) : Option (Nat × Nat × Nat) :=
  if p < 0x08 then some (0, 8, 0x140008)
  else if p < 0x0C then some (0x08, 4, 0x140000)
  else if p < 0x10 then some (0x0C, 4, 0x8000)
  else if p < 0x14 then some (0x10, 4, 0x110008)
  else if p < 0x18 then some (0x14, 4, 0x110020)
  else if p < 0x1C then some (0x18, 4, 0x13000C)
  else if p < 0x20 then some (0x1C, 4, 0x130010)
  else if p < 0x24 then some (0x20, 4, 0x130008)
  else if 0x28 ≤ p ∧ p < 0x30 then some (0x28, 8, 0x110018)
  else if 0x100 ≤ p ∧ p < 0x200 then some (p / 4 * 4, 4, 0x130200 + (p / 4 * 4 - 0x100))
  else if 0x200 ≤ p ∧ p < 0x2C8 then some (p / 4 * 4, 4, 0x130100 + (p / 4 * 4 - 0x200))
  else none

/-- BOARD_BUS_POINTER_WRITE: the target at 0x58 + BRD_ADDR takes a pointer once PD0 is ready; another address, or an earlier one, is not
acknowledged (R501, R502). -/
def execBoardBusPointerWrite (addr : BitVec 7) (ptr : W16) (s : State) : Host.Outcome State Fault Refusal :=
  .next (if s.rst.pd0Ready && decide (addr.toNat = 0x58 + s.idn.brdAddr.toNat)
    then { s with idn := { s.idn with ptr := ptr, latch := [] } }
    else s.emit .boardNak)

/-- One byte of a read: a register is latched at the first byte that is read of it, and the pointer advances (R502). -/
def State.boardByte (s : State) : Byte × State :=
  let p := s.idn.ptr.toNat
  let bs := match s.idn.latch with
    | [] => (match boardMap p with
      | some (base, n, off) => (s.peek off n).drop (p - base)
      | none => [])
    | l => l
  (bs.headD 0, { s with idn := { s.idn with ptr := s.idn.ptr + 1, latch := bs.drop 1 } })

/-- The bytes of a read. -/
def State.boardBytes : Nat → State → List Byte × State
  | 0, s => ([], s)
  | n + 1, s =>
    let x := s.boardByte
    let y := State.boardBytes n x.2
    (x.1 :: y.1, y.2)

/-- BOARD_BUS_READ: bytes from the pointer on (R502). -/
def execBoardBusRead (n : Nat) (s : State) : Host.Outcome State Fault Refusal :=
  .next (if s.rst.pd0Ready then
      let x := State.boardBytes n s
      x.2.emit (.board x.1)
    else s.emit .boardNak)

/-! ### The test access port (R506, R507) -/

/-- The TAP takes an instruction: one that takes the pins does so only while PERST_N is low; leaving the pins starts a core whose start was
held (R507). -/
def State.tapTake (s : State) (i : TapInstr) (pins : Bool) : State :=
  let stays := s.idn.tapHolds && decide (s.idn.tap = i)
  let holds := stays || (pins && !s.rst.perstHigh)
  let s1 : State := { s with idn := { s.idn with tap := i, tapHolds := holds } }
  if !holds && s.idn.tapCoreHeld then
    let s2 : State := { s1 with idn := { s1.idn with tapCoreHeld := false } }
    if s.rst.perstHigh && !s.rst.stopped && (decide (s.rst.phase = .pd0Ready) || decide (s.rst.phase = .held true)) then s2.startCore else s2
  else s1

/-- TAP_RESET: TRST_N resets the TAP (R506). -/
def execTapReset (s : State) : Host.Outcome State Fault Refusal := .next (s.tapTake .idcode false)

/-- BYPASS: one bit between TDI and TDO (R506). -/
def execBypass (s : State) : Host.Outcome State Fault Refusal := .next (s.tapTake .bypass false)

/-- IDCODE: the TAP shifts out 0xB962_0553 (R506). -/
def execIdcode (s : State) : Host.Outcome State Fault Refusal := .next ((s.tapTake .idcode false).emit (.tdo 0xB9620553))

/-- SAMPLE/PRELOAD: the boundary register samples the pins, which it does not take (R506). -/
def execSamplePreload (s : State) : Host.Outcome State Fault Refusal := .next (s.tapTake .sample false)

/-- EXTEST: takes the pins while PERST_N is low, and acts as BYPASS otherwise (R507). -/
def execExtest (s : State) : Host.Outcome State Fault Refusal := .next (s.tapTake .extest true)

/-- CLAMP: takes the pins while PERST_N is low, and acts as BYPASS otherwise (R507). -/
def execClamp (s : State) : Host.Outcome State Fault Refusal := .next (s.tapTake .clamp true)

/-- HIGHZ: takes the pins while PERST_N is low, and acts as BYPASS otherwise (R507). -/
def execHighz (s : State) : Host.Outcome State Fault Refusal := .next (s.tapTake .highz true)

end Sys2Proof.Machine
end

