-- ==== Sys2Proof/Machine/Scalar.lean ====
section
/-! DEFINITION. The scalar integer and predicate instructions (05_veltur_instructions.md Tables 5-6 to 5-8). -/
namespace Sys2Proof.Machine

/-- The high 64 bits of the signed 128-bit product. -/
def mulHighS (a b : W64) : W64 := w64 (a.toInt * b.toInt / 2 ^ 64)
/-- The high 64 bits of the unsigned 128-bit product. -/
def mulHighU (a b : W64) : W64 := BitVec.ofNat 64 (a.toNat * b.toNat / 2 ^ 64)
/-- The signed quotient; −2^63 by −1 gives −2^63. -/
def divSigned (a b : W64) : W64 := if b = 0 then BitVec.allOnes 64 else w64 (a.toInt.tdiv b.toInt)
/-- The unsigned quotient. -/
def divUnsigned (a b : W64) : W64 := if b = 0 then BitVec.allOnes 64 else BitVec.ofNat 64 (a.toNat / b.toNat)
/-- The signed remainder. -/
def remSigned (a b : W64) : W64 := if b = 0 then a else w64 (a.toInt.tmod b.toInt)
/-- The unsigned remainder. -/
def remUnsigned (a b : W64) : W64 := if b = 0 then a else BitVec.ofNat 64 (a.toNat % b.toNat)
/-- The compare conditions of ICMP (Table 5-8). -/
def intCond (c : Nat) (a b : W64) : Bool :=
  match c with
  | 0 => a == b
  | 1 => a != b
  | 2 => a.slt b
  | 3 => !(a.slt b)
  | 4 => a.ult b
  | _ => !(a.ult b)
/-- The leading zeros of a word. -/
def leadingZeros (a : W64) : W64 :=
  BitVec.ofNat 64 (match (List.range 64).find? (fun k => a.getLsbD (63 - k)) with | some k => k | none => 64)

/-- ADD: g[D] = g[A] + g[B] (05_veltur_instructions.md R127). -/
def execAdd (t : Th) (w : W0) (s : State) : Host.Outcome State Fault Refusal := .next (issueInt t w (fun a b => a + b) s)

/-- SUB: g[D] = g[A] − g[B] (R127). -/
def execSub (t : Th) (w : W0) (s : State) : Host.Outcome State Fault Refusal := .next (issueInt t w (fun a b => a - b) s)

/-- MUL: the low 64 bits of the product (R127). -/
def execMul (t : Th) (w : W0) (s : State) : Host.Outcome State Fault Refusal := .next (issueInt t w (fun a b => a * b) s)

/-- MULHS: the high 64 bits of the signed product (R127). -/
def execMulhs (t : Th) (w : W0) (s : State) : Host.Outcome State Fault Refusal := .next (issueInt t w (mulHighS) s)

/-- MULHU: the high 64 bits of the unsigned product (R127). -/
def execMulhu (t : Th) (w : W0) (s : State) : Host.Outcome State Fault Refusal := .next (issueInt t w (mulHighU) s)

/-- DIVS: the signed quotient, truncated toward zero; all ones for a divisor of 0 (R127). -/
def execDivs (t : Th) (w : W0) (s : State) : Host.Outcome State Fault Refusal := .next (issueInt t w (divSigned) s)

/-- DIVU: the unsigned quotient; all ones for a divisor of 0 (R127). -/
def execDivu (t : Th) (w : W0) (s : State) : Host.Outcome State Fault Refusal := .next (issueInt t w (divUnsigned) s)

/-- REMS: the signed remainder, with the dividend's sign; the dividend for a divisor of 0 (R127). -/
def execRems (t : Th) (w : W0) (s : State) : Host.Outcome State Fault Refusal := .next (issueInt t w (remSigned) s)

/-- REMU: the unsigned remainder; the dividend for a divisor of 0 (R127). -/
def execRemu (t : Th) (w : W0) (s : State) : Host.Outcome State Fault Refusal := .next (issueInt t w (remUnsigned) s)

/-- AND (R127). -/
def execAnd (t : Th) (w : W0) (s : State) : Host.Outcome State Fault Refusal := .next (issueInt t w (fun a b => a &&& b) s)

/-- OR (R127). -/
def execOr (t : Th) (w : W0) (s : State) : Host.Outcome State Fault Refusal := .next (issueInt t w (fun a b => a ||| b) s)

/-- XOR (R127). -/
def execXor (t : Th) (w : W0) (s : State) : Host.Outcome State Fault Refusal := .next (issueInt t w (fun a b => a ^^^ b) s)

/-- SHL: shift left by g[B][5:0] (R127). -/
def execShl (t : Th) (w : W0) (s : State) : Host.Outcome State Fault Refusal := .next (issueInt t w (fun a b => a <<< bits b 5 0) s)

/-- SHR: shift right by g[B][5:0] (R127). -/
def execShr (t : Th) (w : W0) (s : State) : Host.Outcome State Fault Refusal := .next (issueInt t w (fun a b => a >>> bits b 5 0) s)

/-- SAR: shift right by g[B][5:0], copying the sign (R127). -/
def execSar (t : Th) (w : W0) (s : State) : Host.Outcome State Fault Refusal := .next (issueInt t w (fun a b => a.sshiftRight (bits b 5 0)) s)

/-- MIN, signed (R127). -/
def execMin (t : Th) (w : W0) (s : State) : Host.Outcome State Fault Refusal := .next (issueInt t w (fun a b => if a.slt b then a else b) s)

/-- MAX, signed (R127). -/
def execMax (t : Th) (w : W0) (s : State) : Host.Outcome State Fault Refusal := .next (issueInt t w (fun a b => if a.slt b then b else a) s)

/-- MINU (R127). -/
def execMinu (t : Th) (w : W0) (s : State) : Host.Outcome State Fault Refusal := .next (issueInt t w (fun a b => if a.ult b then a else b) s)

/-- MAXU (R127). -/
def execMaxu (t : Th) (w : W0) (s : State) : Host.Outcome State Fault Refusal := .next (issueInt t w (fun a b => if a.ult b then b else a) s)

/-- ICMP: p[D] = compare g[A] with g[B]; conditions 6 and 7 are reserved (R127, R129). -/
def execIcmp (t : Th) (w : W0) (s : State) : Host.Outcome State Fault Refusal := .next (issueCmp t w (fun c => decide (c < 6)) (fun th c => th.setPred (pd w) (intCond c (th.reg w.a) (th.reg w.b))) s)

/-- SEL: g[D] = p[C] ? g[A] : g[B] (R127). -/
def execSel (t : Th) (w : W0) (s : State) : Host.Outcome State Fault Refusal := .next (issueThread t w { regs := [w.a, w.b, w.d] } (fun th => th.setReg w.d (if th.pred (w.c.setWidth 3) then th.reg w.a else th.reg w.b)) s)

/-- MOV (R127). -/
def execMov (t : Th) (w : W0) (s : State) : Host.Outcome State Fault Refusal := .next (issueUn t w (fun a => a) s)

/-- ADDI: g[D] = g[A] + IMM38 (R127). -/
def execAddi (t : Th) (w : W0) (s : State) : Host.Outcome State Fault Refusal := .next (issueUn t w (fun a => a + w64 (imm38 w)) s)

/-- MOVI: g[D] = IMM64, the second word (R127). -/
def execMovi (t : Th) (w : W0) (imm : W64) (s : State) : Host.Outcome State Fault Refusal :=
  .next (issueThread t w { long := true, regs := [w.d] } (fun th => th.setReg w.d imm) s)

/-- POPC: how many bits of g[A] are set (R127). -/
def execPopc (t : Th) (w : W0) (s : State) : Host.Outcome State Fault Refusal := .next (issueUn t w (fun a => BitVec.ofNat 64 (popc a)) s)

/-- CLZ: the leading zeros of g[A], 64 for 0 (R127). -/
def execClz (t : Th) (w : W0) (s : State) : Host.Outcome State Fault Refusal := .next (issueUn t w leadingZeros s)

/-- MADD: the low 64 bits of g[A] × g[B] + g[C] (R127). -/
def execMadd (t : Th) (w : W0) (s : State) : Host.Outcome State Fault Refusal := .next (issueThread t w { regs := [w.a, w.b, w.c, w.d] } (fun th => th.setReg w.d (th.reg w.a * th.reg w.b + th.reg w.c)) s)

/-- BFX: X[11:6] bits of g[A] from bit X[5:0], zero-extended (R127). -/
def execBfx (t : Th) (w : W0) (s : State) : Host.Outcome State Fault Refusal := .next (issueUn t w (fun a => BitVec.ofNat 64 (a.toNat / 2 ^ bits w.x 5 0 % 2 ^ bits w.x 11 6)) s)

/-- PAND (R128). -/
def execPand (t : Th) (w : W0) (s : State) : Host.Outcome State Fault Refusal := .next (issuePred t w (fun a b => a && b) s)

/-- POR (R128). -/
def execPor (t : Th) (w : W0) (s : State) : Host.Outcome State Fault Refusal := .next (issuePred t w (fun a b => a || b) s)

/-- PXOR (R128). -/
def execPxor (t : Th) (w : W0) (s : State) : Host.Outcome State Fault Refusal := .next (issuePred t w (fun a b => a != b) s)

/-- PNOT: p[D] = NOT p[A] (R128). -/
def execPnot (t : Th) (w : W0) (s : State) : Host.Outcome State Fault Refusal := .next (issuePred t w (fun a _ => !a) s)

/-- PMOV: X[0] = 0 moves p7…p0 into g[D], whose higher bits become 0 (DEDUCED from R119); X[0] = 1 moves g[A][7:0] into p7…p0 (R128). -/
def execPmov (t : Th) (w : W0) (s : State) : Host.Outcome State Fault Refusal := .next (if bit w.x 0 then issueThread t w { regs := [w.a] } (fun th => { th with p := (th.reg w.a).setWidth 8 }) s
    else issueThread t w { regs := [w.d] } (fun th => th.setReg w.d (th.p.setWidth 64)) s)

end Sys2Proof.Machine
end

