-- ==== Sys2Proof/Machine/ScalarFp.lean ====
section
/-! DEFINITION. The scalar floating-point instructions (05_veltur_instructions.md Table 5-7, R128). -/
namespace Sys2Proof.Machine

/-- The FP32 value in the low bits of a register (R119). -/
def f32 (v : W64) : Val := decodeVal fp32 (bits v 31 0)

/-- An instruction that writes a code to g[D], higher bits 0, and merges flags. bad tells of a reserved field, ill of
another illegal one. -/
def issueFp (t : Th) (w : W0) (bad ill : Bool) (regs : List (BitVec 6)) (f : Thread → Nat × BitVec 5) (s : State) : State :=
  issueThread t w { bad := bad, ill := ill, regs := w.d :: regs } (fun th => (th.setReg w.d (BitVec.ofNat 64 (f th).1)).flags (f th).2) s

/-- An arithmetic instruction that rounds to FP32 by RND in X[1:0] and OVF in X[2]; RND = 3 is reserved (R46). -/
def issueArith (t : Th) (w : W0) (regs : List (BitVec 6)) (f : Thread → Val × BitVec 5) (s : State) : State :=
  issueFp t w (bits w.x 1 0 == 3) false regs (fun th => finish fp32 (bits w.x 1 0) (bit w.x 2) (f th)) s

/-- FADD (R128). -/
def execFadd (t : Th) (w : W0) (s : State) : Host.Outcome State Fault Refusal :=
  .next (issueArith t w [w.a, w.b] (fun th => addV (f32 (th.reg w.a)) (f32 (th.reg w.b))) s)

/-- FSUB (R128). -/
def execFsub (t : Th) (w : W0) (s : State) : Host.Outcome State Fault Refusal :=
  .next (issueArith t w [w.a, w.b] (fun th => addV (f32 (th.reg w.a)) (negV (f32 (th.reg w.b)))) s)

/-- FMUL (R128). -/
def execFmul (t : Th) (w : W0) (s : State) : Host.Outcome State Fault Refusal :=
  .next (issueArith t w [w.a, w.b] (fun th => mulV (f32 (th.reg w.a)) (f32 (th.reg w.b))) s)

/-- FFMA: g[A] × g[B] + g[C], rounded once (R128). -/
def execFfma (t : Th) (w : W0) (s : State) : Host.Outcome State Fault Refusal :=
  .next (issueArith t w [w.a, w.b, w.c]
    (fun th => fmaV (f32 (th.reg w.a)) (f32 (th.reg w.b)) (f32 (th.reg w.c))) s)

/-- FDIV, correctly rounded (R128). -/
def execFdiv (t : Th) (w : W0) (s : State) : Host.Outcome State Fault Refusal :=
  .next (issueArith t w [w.a, w.b] (fun th => divV (f32 (th.reg w.a)) (f32 (th.reg w.b))) s)

/-- FSQRT, correctly rounded (R128). -/
def execFsqrt (t : Th) (w : W0) (s : State) : Host.Outcome State Fault Refusal :=
  .next (issueArith t w [w.a] (fun th => sqrtV (f32 (th.reg w.a))) s)

/-- FMIN (02_formats_and_coats.md R45). -/
def execFmin (t : Th) (w : W0) (s : State) : Host.Outcome State Fault Refusal :=
  .next (issueFp t w false false [w.a, w.b] (fun th =>
    finish fp32 0 true (minMax false (f32 (th.reg w.a)) (f32 (th.reg w.b)),
      cmpFlags (f32 (th.reg w.a)) (f32 (th.reg w.b)))) s)

/-- FMAX (02_formats_and_coats.md R45). -/
def execFmax (t : Th) (w : W0) (s : State) : Host.Outcome State Fault Refusal :=
  .next (issueFp t w false false [w.a, w.b] (fun th =>
    finish fp32 0 true (minMax true (f32 (th.reg w.a)) (f32 (th.reg w.b)),
      cmpFlags (f32 (th.reg w.a)) (f32 (th.reg w.b)))) s)

/-- FCMP: p[D] = compare by X[2:0] (R128, R129). -/
def execFcmp (t : Th) (w : W0) (s : State) : Host.Outcome State Fault Refusal :=
  .next (issueCmp t w (fun _ => true) (fun th c =>
    (th.setPred (pd w) (fpCond c (f32 (th.reg w.a)) (f32 (th.reg w.b)))).flags
      (cmpFlags (f32 (th.reg w.a)) (f32 (th.reg w.b)))) s)

/-- FCVT: g[A] from format X[3:0] to format X[7:4] by RND X[9:8] and OVF X[10]; stochastic and reserved rounding and reserved
formats are illegal (R128). -/
def execFcvt (t : Th) (w : W0) (s : State) : Host.Outcome State Fault Refusal :=
  .next (match fmtOf (bits w.x 3 0), fmtOf (bits w.x 7 4) with
    | some f, some g =>
      issueFp t w (bits w.x 9 8 == 3) (bits w.x 9 8 == 2) [w.a] (fun th =>
        convert g (bits w.x 9 8) (bit w.x 10) 0 (decodeVal f ((th.reg w.a).toNat % 2 ^ f.w))) s
    | _, _ => issueFp t w true false [] (fun _ => (0, 0)) s)

/-- A sign operation: any NaN becomes canonical with no flag (R44). -/
def signOp (f : Nat → Nat) (v : W64) : Nat × BitVec 5 :=
  if (f32 v).isNan then (canonNan fp32, 0) else (f (bits v 31 0), 0)

/-- FABS (R44). -/
def execFabs (t : Th) (w : W0) (s : State) : Host.Outcome State Fault Refusal :=
  .next (issueFp t w false false [w.a] (fun th => signOp (fun v => v % 2 ^ 31) (th.reg w.a)) s)

/-- FNEG (R44). -/
def execFneg (t : Th) (w : W0) (s : State) : Host.Outcome State Fault Refusal :=
  .next (issueFp t w false false [w.a] (fun th => signOp (fun v => (v + 2 ^ 31) % 2 ^ 32) (th.reg w.a)) s)

/-- ICVTF: a signed 64-bit integer to FP32 by RND (R128). -/
def execIcvtf (t : Th) (w : W0) (s : State) : Host.Outcome State Fault Refusal :=
  .next (issueArith t w [w.a] (fun th =>
    (.num { neg := decide ((th.reg w.a).toInt < 0), m := (th.reg w.a).toInt.natAbs, e := 0 }, 0)) s)

/-- FP32 to a signed 64-bit integer, truncated toward zero; out of range it saturates with NV, and a NaN gives 0 with NV
(R128). A discarded fraction sets NX (02_formats_and_coats.md Table 2-6). -/
def toInt64 (v : Val) : Nat × BitVec 5 :=
  let limit : Bool → Nat := fun n => if n then 2 ^ 63 else 2 ^ 63 - 1
  match v with
  | .nan _ => (0, fNV)
  | .inf n => (limit n, fNV)
  | .num d =>
    let r := onGrid 1 0 d.m d.e 0
    if r.1 > limit d.neg then (limit d.neg, fNV)
    else (if d.neg then (2 ^ 64 - r.1) % 2 ^ 64 else r.1, flagIf r.2 fNX)

/-- FCVTI (R128). -/
def execFcvti (t : Th) (w : W0) (s : State) : Host.Outcome State Fault Refusal :=
  .next (issueFp t w false false [w.a] (fun th => toInt64 (f32 (th.reg w.a))) s)

end Sys2Proof.Machine
end

