-- ==== Sys2Proof/Machine/Dispatch.lean ====
section
/-! DEFINITION. Which meaning each command has: one arm for each constructor of Instr. -/
namespace Sys2Proof.Machine

def exec (i : Instr) (s : State) : Host.Outcome State Fault Refusal :=
  match i with
  | .registerWrite bar off size data => Sys2Proof.Machine.execRegisterWrite bar off size data s
  | .rcCounterRead off size => Sys2Proof.Machine.execRcCounterRead off size s
  | .add t w => Sys2Proof.Machine.execAdd t w s
  | .sub t w => Sys2Proof.Machine.execSub t w s
  | .mul t w => Sys2Proof.Machine.execMul t w s
  | .mulhs t w => Sys2Proof.Machine.execMulhs t w s
  | .mulhu t w => Sys2Proof.Machine.execMulhu t w s
  | .divs t w => Sys2Proof.Machine.execDivs t w s
  | .divu t w => Sys2Proof.Machine.execDivu t w s
  | .rems t w => Sys2Proof.Machine.execRems t w s
  | .remu t w => Sys2Proof.Machine.execRemu t w s
  | .and t w => Sys2Proof.Machine.execAnd t w s
  | .or t w => Sys2Proof.Machine.execOr t w s
  | .xor t w => Sys2Proof.Machine.execXor t w s
  | .shl t w => Sys2Proof.Machine.execShl t w s
  | .shr t w => Sys2Proof.Machine.execShr t w s
  | .sar t w => Sys2Proof.Machine.execSar t w s
  | .min t w => Sys2Proof.Machine.execMin t w s
  | .max t w => Sys2Proof.Machine.execMax t w s
  | .minu t w => Sys2Proof.Machine.execMinu t w s
  | .maxu t w => Sys2Proof.Machine.execMaxu t w s
  | .icmp t w => Sys2Proof.Machine.execIcmp t w s
  | .sel t w => Sys2Proof.Machine.execSel t w s
  | .mov t w => Sys2Proof.Machine.execMov t w s
  | .addi t w => Sys2Proof.Machine.execAddi t w s
  | .movi t w imm => Sys2Proof.Machine.execMovi t w imm s
  | .popc t w => Sys2Proof.Machine.execPopc t w s
  | .clz t w => Sys2Proof.Machine.execClz t w s
  | .madd t w => Sys2Proof.Machine.execMadd t w s
  | .bfx t w => Sys2Proof.Machine.execBfx t w s
  | .fadd t w => Sys2Proof.Machine.execFadd t w s
  | .fsub t w => Sys2Proof.Machine.execFsub t w s
  | .fmul t w => Sys2Proof.Machine.execFmul t w s
  | .ffma t w => Sys2Proof.Machine.execFfma t w s
  | .fdiv t w => Sys2Proof.Machine.execFdiv t w s
  | .fsqrt t w => Sys2Proof.Machine.execFsqrt t w s
  | .fmin t w => Sys2Proof.Machine.execFmin t w s
  | .fmax t w => Sys2Proof.Machine.execFmax t w s
  | .fcmp t w => Sys2Proof.Machine.execFcmp t w s
  | .fcvt t w => Sys2Proof.Machine.execFcvt t w s
  | .fabs t w => Sys2Proof.Machine.execFabs t w s
  | .fneg t w => Sys2Proof.Machine.execFneg t w s
  | .icvtf t w => Sys2Proof.Machine.execIcvtf t w s
  | .fcvti t w => Sys2Proof.Machine.execFcvti t w s
  | .pand t w => Sys2Proof.Machine.execPand t w s
  | .por t w => Sys2Proof.Machine.execPor t w s
  | .pxor t w => Sys2Proof.Machine.execPxor t w s
  | .pnot t w => Sys2Proof.Machine.execPnot t w s
  | .pmov t w => Sys2Proof.Machine.execPmov t w s
  | .nop t w opc => Sys2Proof.Machine.execNop t w opc s
  | .bra t w => Sys2Proof.Machine.execBra t w s
  | .br t w => Sys2Proof.Machine.execBr t w s
  | .call t w => Sys2Proof.Machine.execCall t w s
  | .endThread t w => Sys2Proof.Machine.execEndThread t w s
  | .endComplete t => Sys2Proof.Machine.execEndComplete t s
  | .trap t w => Sys2Proof.Machine.execTrap t w s
  | .eret t w => Sys2Proof.Machine.execEret t w s
  | .rdsr t w => Sys2Proof.Machine.execRdsr t w s
  | .wrsr t w => Sys2Proof.Machine.execWrsr t w s
  | .ld t w => Sys2Proof.Machine.execLd t w s
  | .st t w => Sys2Proof.Machine.execSt t w s
  | .ldr t w => Sys2Proof.Machine.execLdr t w s
  | .stc t w => Sys2Proof.Machine.execStc t w s
  | .amo t w => Sys2Proof.Machine.execAmo t w s
  | .zline t w => Sys2Proof.Machine.execZline t w s
  | .pref t w => Sys2Proof.Machine.execPref t w s
  | .tld t w ext => Sys2Proof.Machine.execTld t w ext s
  | .tst t w ext => Sys2Proof.Machine.execTst t w ext s
  | .tpf t w ext => Sys2Proof.Machine.execTpf t w ext s
  | .tdset t w => Sys2Proof.Machine.execTdset t w s
  | .tdget t w => Sys2Proof.Machine.execTdget t w s
  | .tdadd t w => Sys2Proof.Machine.execTdadd t w s
  | .tmma t w ext => Sys2Proof.Machine.execTmma t w ext s
  | .tattn t w => Sys2Proof.Machine.execTattn t w s
  | .tseed t w => Sys2Proof.Machine.execTseed t w s
  | .cwait t w => Sys2Proof.Machine.execCwait t w s
  | .vadd t w ext => Sys2Proof.Machine.execVadd t w ext s
  | .vsub t w ext => Sys2Proof.Machine.execVsub t w ext s
  | .vmul t w ext => Sys2Proof.Machine.execVmul t w ext s
  | .vfma t w ext => Sys2Proof.Machine.execVfma t w ext s
  | .vmin t w ext => Sys2Proof.Machine.execVmin t w ext s
  | .vmax t w ext => Sys2Proof.Machine.execVmax t w ext s
  | .vcmp t w ext => Sys2Proof.Machine.execVcmp t w ext s
  | .vabs t w ext => Sys2Proof.Machine.execVabs t w ext s
  | .vneg t w ext => Sys2Proof.Machine.execVneg t w ext s
  | .vscale t w ext => Sys2Proof.Machine.execVscale t w ext s
  | .vdiv t w ext => Sys2Proof.Machine.execVdiv t w ext s
  | .vsqrt t w ext => Sys2Proof.Machine.execVsqrt t w ext s
  | .vrcp t w ext => Sys2Proof.Machine.execVrcp t w ext s
  | .vrsq t w ext => Sys2Proof.Machine.execVrsq t w ext s
  | .vexp2 t w ext => Sys2Proof.Machine.execVexp2 t w ext s
  | .vexp t w ext => Sys2Proof.Machine.execVexp t w ext s
  | .vrmax t w ext => Sys2Proof.Machine.execVrmax t w ext s
  | .vrsum t w ext => Sys2Proof.Machine.execVrsum t w ext s
  | .vcvt t w ext => Sys2Proof.Machine.execVcvt t w ext s
  | .vmov t w ext => Sys2Proof.Machine.execVmov t w ext s
  | .fence t w => Sys2Proof.Machine.execFence t w s
  | .fenceComplete t => Sys2Proof.Machine.execFenceComplete t s
  | .fenceTimeoutExpiry t => Sys2Proof.Machine.execFenceTimeoutExpiry t s
  | .bar t w => Sys2Proof.Machine.execBar t w s
  | .semsig t w => Sys2Proof.Machine.execSemsig t w s
  | .semwait t w => Sys2Proof.Machine.execSemwait t w s
  | .semwaitTimeout t => Sys2Proof.Machine.execSemwaitTimeout t s
  | .cwld t w => Sys2Proof.Machine.execCwld t w s
  | .cwst t w => Sys2Proof.Machine.execCwst t w s
  | .deferredExceptionReport t e => Sys2Proof.Machine.execDeferredExceptionReport t e s
  | .cellInstructionComplete b cell => Sys2Proof.Machine.execCellInstructionComplete b cell s
  | .loadDataReturn t k => Sys2Proof.Machine.execLoadDataReturn t k s
  | .tileLoadComplete t k => Sys2Proof.Machine.execTileLoadComplete t k s
  | .storeComplete t k => Sys2Proof.Machine.execStoreComplete t k s
  | .reservationHoldExpiry b l => Sys2Proof.Machine.execReservationHoldExpiry b l s
  | .taskPlace q slot => Sys2Proof.Machine.execTaskPlace q slot s
  | .taskStart b => Sys2Proof.Machine.execTaskStart b s
  | .taskEnd b => Sys2Proof.Machine.execTaskEnd b s
  | .kernelAbort b => Sys2Proof.Machine.execKernelAbort b s
  | .kernelAbortDone b => Sys2Proof.Machine.execKernelAbortDone b s
  | .klaunchTlimitExpiry q slot => Sys2Proof.Machine.execKlaunchTlimitExpiry q slot s
  | .writeCombineDrain r n => Sys2Proof.Machine.execWriteCombineDrain r n s
  | .rdshared b l secs => Sys2Proof.Machine.execRdshared b l secs s
  | .rdown b l secs => Sys2Proof.Machine.execRdown b l secs s
  | .rdcurr a l secs => Sys2Proof.Machine.execRdcurr a l secs s
  | .wrline b l mask data => Sys2Proof.Machine.execWrline b l mask data s
  | .wrcond t l mask data => Sys2Proof.Machine.execWrcond t l mask data s
  | .wrpart r l mask data => Sys2Proof.Machine.execWrpart r l mask data s
  | .zero b l => Sys2Proof.Machine.execZero b l s
  | .atom t l off op wide a c => Sys2Proof.Machine.execAtom t l off op wide a c s
  | .wbline b l => Sys2Proof.Machine.execWbline b l s
  | .hostMemrd hpa m => Sys2Proof.Machine.execHostMemrd hpa m s
  | .hostMemwr hpa mask data m => Sys2Proof.Machine.execHostMemwr hpa mask data m s
  | .remoteRead dev off len => Sys2Proof.Machine.execRemoteRead dev off len s
  | .remoteWrite dev off bytes => Sys2Proof.Machine.execRemoteWrite dev off bytes s
  | .remoteAtomic dev off op wide a c => Sys2Proof.Machine.execRemoteAtomic dev off op wide a c s
  | .snpinv b l => Sys2Proof.Machine.execSnpinv b l s
  | .snpfwd b l dst => Sys2Proof.Machine.execSnpfwd b l dst s
  | .recall b l toS => Sys2Proof.Machine.execRecall b l toS s
  | .snpcur b l => Sys2Proof.Machine.execSnpcur b l s
  | .hostSnpinv hpa => Sys2Proof.Machine.execHostSnpinv hpa s
  | .hostSnpdata hpa => Sys2Proof.Machine.execHostSnpdata hpa s
  | .hostSnpcur hpa => Sys2Proof.Machine.execHostSnpcur hpa s
  | .invack b l => Sys2Proof.Machine.execInvack b l s
  | .rspmiss b l => Sys2Proof.Machine.execRspmiss b l s
  | .rsppoison b l => Sys2Proof.Machine.execRsppoison b l s
  | .cmp b l => Sys2Proof.Machine.execCmp b l s
  | .cmpfail t l => Sys2Proof.Machine.execCmpfail t l s
  | .cmpack b l => Sys2Proof.Machine.execCmpack b l s
  | .wback b l => Sys2Proof.Machine.execWback b l s
  | .birsp l st => Sys2Proof.Machine.execBirsp l st s
  | .data b l => Sys2Proof.Machine.execData b l s
  | .fwddata b l => Sys2Proof.Machine.execFwddata b l s
  | .recalldata b l => Sys2Proof.Machine.execRecalldata b l s
  | .hostGo hpa st data => Sys2Proof.Machine.execHostGo hpa st data s
  | .goWritepull hpa => Sys2Proof.Machine.execGoWritepull hpa s
  | .goWritepulldrop hpa => Sys2Proof.Machine.execGoWritepulldrop hpa s
  | .biSnoopTimeout l => Sys2Proof.Machine.execBiSnoopTimeout l s
  | .cchCtlWrite r v => Sys2Proof.Machine.execCchCtlWrite r v s
  | .cchWaydisWrite r v => Sys2Proof.Machine.execCchWaydisWrite r v s
  | .cchFlush r => Sys2Proof.Machine.execCchFlush r s
  | .cchFlushInvalidate r => Sys2Proof.Machine.execCchFlushInvalidate r s
  | .cacheWalkEnd r => Sys2Proof.Machine.execCacheWalkEnd r s
  | .reclamationWalk r a => Sys2Proof.Machine.execReclamationWalk r a s
  | .rdat mp tag bad => Sys2Proof.Machine.execRdat mp tag bad s
  | .wack mp tag => Sys2Proof.Machine.execWack mp tag s
  | .mrsp mp tag value ok => Sys2Proof.Machine.execMrsp mp tag value ok s
  | .alert mp kind count => Sys2Proof.Machine.execAlert mp kind count s
  | .ucieModuleFailure lg m => Sys2Proof.Machine.execUcieModuleFailure lg m s
  | .memRspTimeoutExpiry mp tag => Sys2Proof.Machine.execMemRspTimeoutExpiry mp tag s
  | .trainingStepTimeout lg step => Sys2Proof.Machine.execTrainingStepTimeout lg step s
  | .memoryMapBuild => Sys2Proof.Machine.execMemoryMapBuild s
  | .hostLinkTrainingComplete rate width flit => Sys2Proof.Machine.execHostLinkTrainingComplete rate width flit s
  | .linkRecovery => Sys2Proof.Machine.execLinkRecovery s
  | .linkDown => Sys2Proof.Machine.execLinkDown s
  | .hotReset => Sys2Proof.Machine.execHotReset s
  | .hostLostClear => Sys2Proof.Machine.execHostLostClear s
  | .configRequest wr off size data => Sys2Proof.Machine.execConfigRequest wr off size data s
  | .hdmDecoderCommit n base size ways gran skip => Sys2Proof.Machine.execHdmDecoderCommit n base size ways gran skip s
  | .biEnableClear => Sys2Proof.Machine.execBiEnableClear s
  | .cacheWritebackInvalidate => Sys2Proof.Machine.execCacheWritebackInvalidate s
  | .cacheEnableClear => Sys2Proof.Machine.execCacheEnableClear s
  | .initiateFlr => Sys2Proof.Machine.execInitiateFlr s
  | .flrComplete => Sys2Proof.Machine.execFlrComplete s
  | .d3hotEntry => Sys2Proof.Machine.execD3hotEntry s
  | .d0Entry => Sys2Proof.Machine.execD0Entry s
  | .l0pWindowExpiry up down waited => Sys2Proof.Machine.execL0pWindowExpiry up down waited s
  | .l1IdleExpiry accepted => Sys2Proof.Machine.execL1IdleExpiry accepted s
  | .cxlIoCompletion tag ok data => Sys2Proof.Machine.execCxlIoCompletion tag ok data s
  | .completionTimeout tag => Sys2Proof.Machine.execCompletionTimeout tag s
  | .atsTranslationCompletion pasid va ok u rd wr log2 hpa => Sys2Proof.Machine.execAtsTranslationCompletion pasid va ok u rd wr log2 hpa s
  | .pageRequestResponse idx code => Sys2Proof.Machine.execPageRequestResponse idx code s
  | .priTimeout idx => Sys2Proof.Machine.execPriTimeout idx s
  | .atsInvalidateRequest pasid glob start len => Sys2Proof.Machine.execAtsInvalidateRequest pasid glob start len s
  | .invalidationComplete ats => Sys2Proof.Machine.execInvalidationComplete ats s
  | .xltInvRange pasid => Sys2Proof.Machine.execXltInvRange pasid s
  | .xltInvPasid pasid => Sys2Proof.Machine.execXltInvPasid pasid s
  | .xltInvAll pasid => Sys2Proof.Machine.execXltInvAll pasid s
  | .xltGctlWrite v => Sys2Proof.Machine.execXltGctlWrite v s
  | .queDoorbell q pi => Sys2Proof.Machine.execQueDoorbell q pi s
  | .descriptorFetch q => Sys2Proof.Machine.execDescriptorFetch q s
  | .staleReread q => Sys2Proof.Machine.execStaleReread q s
  | .nopCommand q slot => Sys2Proof.Machine.execNopCommand q slot s
  | .klaunch q slot => Sys2Proof.Machine.execKlaunch q slot s
  | .copy q slot => Sys2Proof.Machine.execCopy q slot s
  | .coll q slot => Sys2Proof.Machine.execColl q slot s
  | .signal q slot => Sys2Proof.Machine.execSignal q slot s
  | .wait q slot => Sys2Proof.Machine.execWait q slot s
  | .waitReread q slot => Sys2Proof.Machine.execWaitReread q slot s
  | .waitTimeout q slot => Sys2Proof.Machine.execWaitTimeout q slot s
  | .flush q slot => Sys2Proof.Machine.execFlush q slot s
  | .modeset q slot => Sys2Proof.Machine.execModeset q slot s
  | .modesetAcknowledge b => Sys2Proof.Machine.execModesetAcknowledge b s
  | .modesetCommit => Sys2Proof.Machine.execModesetCommit s
  | .modesetAckTimeout b => Sys2Proof.Machine.execModesetAckTimeout b s
  | .zeroRange q slot => Sys2Proof.Machine.execZeroRange q slot s
  | .skimArm q slot => Sys2Proof.Machine.execSkimArm q slot s
  | .skimDisarm q slot => Sys2Proof.Machine.execSkimDisarm q slot s
  | .skimReplace q slot => Sys2Proof.Machine.execSkimReplace q slot s
  | .commandCompletion q slot => Sys2Proof.Machine.execCommandCompletion q slot s
  | .copyPieceComplete e => Sys2Proof.Machine.execCopyPieceComplete e s
  | .queCtlEnable q => Sys2Proof.Machine.execQueCtlEnable q s
  | .queCtlQuiesce q => Sys2Proof.Machine.execQueCtlQuiesce q s
  | .queCtlAbort q => Sys2Proof.Machine.execQueCtlAbort q s
  | .queCtlReset q => Sys2Proof.Machine.execQueCtlReset q s
  | .quiesceDrainComplete q => Sys2Proof.Machine.execQuiesceDrainComplete q s
  | .frameReceive ifc bytes fcsOk => Sys2Proof.Machine.execFrameReceive ifc bytes fcsOk s
  | .umtWrite p => Sys2Proof.Machine.execUmtWrite p s
  | .umtReadReq p => Sys2Proof.Machine.execUmtReadReq p s
  | .umtReadResp p => Sys2Proof.Machine.execUmtReadResp p s
  | .umtSend p => Sys2Proof.Machine.execUmtSend p s
  | .umtAtomic p => Sys2Proof.Machine.execUmtAtomic p s
  | .umtAtomicResp p => Sys2Proof.Machine.execUmtAtomicResp p s
  | .umtNotify p => Sys2Proof.Machine.execUmtNotify p s
  | .umtAck p => Sys2Proof.Machine.execUmtAck p s
  | .ackDelayExpiry qp => Sys2Proof.Machine.execAckDelayExpiry qp s
  | .retransmitTimerExpiry qp => Sys2Proof.Machine.execRetransmitTimerExpiry qp s
  | .rnrRetryTimer qp => Sys2Proof.Machine.execRnrRetryTimer qp s
  | .pathPenaltyExpiry qp path => Sys2Proof.Machine.execPathPenaltyExpiry qp path s
  | .pacingTimer qp => Sys2Proof.Machine.execPacingTimer qp s
  | .sendRingDoorbell qp pi => Sys2Proof.Machine.execSendRingDoorbell qp pi s
  | .receiveRingDoorbell qp pi => Sys2Proof.Machine.execReceiveRingDoorbell qp pi s
  | .wrWrite qp slot => Sys2Proof.Machine.execWrWrite qp slot s
  | .wrWriteNotify qp slot => Sys2Proof.Machine.execWrWriteNotify qp slot s
  | .wrRead qp slot => Sys2Proof.Machine.execWrRead qp slot s
  | .wrSend qp slot => Sys2Proof.Machine.execWrSend qp slot s
  | .wrAtomic qp slot => Sys2Proof.Machine.execWrAtomic qp slot s
  | .wrNotify qp slot => Sys2Proof.Machine.execWrNotify qp slot s
  | .qpContextFill qp => Sys2Proof.Machine.execQpContextFill qp s
  | .netIqpReset dev => Sys2Proof.Machine.execNetIqpReset dev s
  | .netGctlWrite v => Sys2Proof.Machine.execNetGctlWrite v s
  | .portModeWrite p mode => Sys2Proof.Machine.execPortModeWrite p mode s
  | .windowWrite n base len src => Sys2Proof.Machine.execWindowWrite n base len src s
  | .windowDrainComplete => Sys2Proof.Machine.execWindowDrainComplete s
  | .interfaceDown ifc => Sys2Proof.Machine.execInterfaceDown ifc s
  | .interfaceUp ifc => Sys2Proof.Machine.execInterfaceUp ifc s
  | .claim p => Sys2Proof.Machine.execClaim p s
  | .contrib p => Sys2Proof.Machine.execContrib p s
  | .result p => Sys2Proof.Machine.execResult p s
  | .done p => Sys2Proof.Machine.execDone p s
  | .stage p => Sys2Proof.Machine.execStage p s
  | .collectiveTimeout r group seq => Sys2Proof.Machine.execCollectiveTimeout r group seq s
  | .resultRepairTimer r group seq chunk => Sys2Proof.Machine.execResultRepairTimer r group seq chunk s
  | .skimFrameTrigger lane ifc bytes stamp fcsOk => Sys2Proof.Machine.execSkimFrameTrigger lane ifc bytes stamp fcsOk s
  | .skimFcsCheck lane seq ok => Sys2Proof.Machine.execSkimFcsCheck lane seq ok s
  | .skimScheduleStart lane seq partner => Sys2Proof.Machine.execSkimScheduleStart lane seq partner s
  | .skimScheduleComplete lane seq partner => Sys2Proof.Machine.execSkimScheduleComplete lane seq partner s
  | .skimDeadline lane seq => Sys2Proof.Machine.execSkimDeadline lane seq s
  | .skimReplySent lane seq stamp => Sys2Proof.Machine.execSkimReplySent lane seq stamp s
  | .skimImageLoadComplete lane => Sys2Proof.Machine.execSkimImageLoadComplete lane s
  | .skimCellReload b => Sys2Proof.Machine.execSkimCellReload b s
  | .timestampCapture => Sys2Proof.Machine.execTimestampCapture s
  | .faultSourceEvent src rails oclk detail => Sys2Proof.Machine.execFaultSourceEvent src rails oclk detail s
  | .graceTimerExpiry src => Sys2Proof.Machine.execGraceTimerExpiry src s
  | .heartbeatTimeout => Sys2Proof.Machine.execHeartbeatTimeout s
  | .lockupTimeout => Sys2Proof.Machine.execLockupTimeout s
  | .snagRecordWrite => Sys2Proof.Machine.execSnagRecordWrite s
  | .snagEnable v => Sys2Proof.Machine.execSnagEnable v s
  | .snagCiWrite ci => Sys2Proof.Machine.execSnagCiWrite ci s
  | .makeGoodTestComplete u passed step bad => Sys2Proof.Machine.execMakeGoodTestComplete u passed step bad s
  | .mailboxDoorbell mb => Sys2Proof.Machine.execMailboxDoorbell mb s
  | .backgroundCommandEnd => Sys2Proof.Machine.execBackgroundCommandEnd s
  | .info mb => Sys2Proof.Machine.execInfo mb s
  | .fwTransfer mb => Sys2Proof.Machine.execFwTransfer mb s
  | .fwStart mb => Sys2Proof.Machine.execFwStart mb s
  | .fwStatus mb => Sys2Proof.Machine.execFwStatus mb s
  | .queueCreate mb => Sys2Proof.Machine.execQueueCreate mb s
  | .queueEnable mb => Sys2Proof.Machine.execQueueEnable mb s
  | .queueQuiesce mb => Sys2Proof.Machine.execQueueQuiesce mb s
  | .queueAbort mb => Sys2Proof.Machine.execQueueAbort mb s
  | .queueReset mb => Sys2Proof.Machine.execQueueReset mb s
  | .queueQuery mb => Sys2Proof.Machine.execQueueQuery mb s
  | .powerLimitSet mb => Sys2Proof.Machine.execPowerLimitSet mb s
  | .powerQuery mb => Sys2Proof.Machine.execPowerQuery mb s
  | .domainSet mb => Sys2Proof.Machine.execDomainSet mb s
  | .warmReset mb => Sys2Proof.Machine.execWarmReset mb s
  | .modeQuery mb => Sys2Proof.Machine.execModeQuery mb s
  | .qpCreate mb => Sys2Proof.Machine.execQpCreate mb s
  | .qpModify mb => Sys2Proof.Machine.execQpModify mb s
  | .qpDestroy mb => Sys2Proof.Machine.execQpDestroy mb s
  | .qpQuery mb => Sys2Proof.Machine.execQpQuery mb s
  | .windowSet mb => Sys2Proof.Machine.execWindowSet mb s
  | .portModeSet mb => Sys2Proof.Machine.execPortModeSet mb s
  | .iqpReset mb => Sys2Proof.Machine.execIqpReset mb s
  | .groupCreate mb => Sys2Proof.Machine.execGroupCreate mb s
  | .groupDestroy mb => Sys2Proof.Machine.execGroupDestroy mb s
  | .groupQuery mb => Sys2Proof.Machine.execGroupQuery mb s
  | .hawkQuery mb => Sys2Proof.Machine.execHawkQuery mb s
  | .laneQuery mb => Sys2Proof.Machine.execLaneQuery mb s
  | .laneCheck mb => Sys2Proof.Machine.execLaneCheck mb s
  | .dustSheet mb => Sys2Proof.Machine.execDustSheet mb s
  | .makeGood mb => Sys2Proof.Machine.execMakeGood mb s
  | .faultSnapshot mb => Sys2Proof.Machine.execFaultSnapshot mb s
  | .salvageMode mb => Sys2Proof.Machine.execSalvageMode mb s
  | .warmResetRequest mb => Sys2Proof.Machine.execWarmResetRequest mb s
  | .warmResetRequestDelay => Sys2Proof.Machine.execWarmResetRequestDelay s
  | .faultInject mb => Sys2Proof.Machine.execFaultInject mb s
  | .faultInjectEnd src => Sys2Proof.Machine.execFaultInjectEnd src s
  | .primerRead mb => Sys2Proof.Machine.execPrimerRead mb s
  | .primerWrite mb => Sys2Proof.Machine.execPrimerWrite mb s
  | .calibrationRead mb => Sys2Proof.Machine.execCalibrationRead mb s
  | .calibrationWrite mb => Sys2Proof.Machine.execCalibrationWrite mb s
  | .moduleInfo mb => Sys2Proof.Machine.execModuleInfo mb s
  | .fuseRead mb => Sys2Proof.Machine.execFuseRead mb s
  | .devnumSet mb => Sys2Proof.Machine.execDevnumSet mb s
  | .globalModeSet mb => Sys2Proof.Machine.execGlobalModeSet mb s
  | .memberSet mb => Sys2Proof.Machine.execMemberSet mb s
  | .xltQuery mb => Sys2Proof.Machine.execXltQuery mb s
  | .identifyMemoryDevice mb => Sys2Proof.Machine.execIdentifyMemoryDevice mb s
  | .getSupportedLogs mb => Sys2Proof.Machine.execGetSupportedLogs mb s
  | .getLog mb => Sys2Proof.Machine.execGetLog mb s
  | .getVersion req => Sys2Proof.Machine.execGetVersion req s
  | .getCapabilities req => Sys2Proof.Machine.execGetCapabilities req s
  | .negotiateAlgorithms req => Sys2Proof.Machine.execNegotiateAlgorithms req s
  | .getDigests req => Sys2Proof.Machine.execGetDigests req s
  | .getCertificate req => Sys2Proof.Machine.execGetCertificate req s
  | .challenge req => Sys2Proof.Machine.execChallenge req s
  | .getMeasurements req => Sys2Proof.Machine.execGetMeasurements req s
  | .eventArrival src => Sys2Proof.Machine.execEventArrival src s
  | .evtAckWrite n v => Sys2Proof.Machine.execEvtAckWrite n v s
  | .evtRaise v => Sys2Proof.Machine.execEvtRaise v s
  | .evtPendingWrite n v => Sys2Proof.Machine.execEvtPendingWrite n v s
  | .evtEnableWrite n v => Sys2Proof.Machine.execEvtEnableWrite n v s
  | .evtMaskWrite n v => Sys2Proof.Machine.execEvtMaskWrite n v s
  | .evtRouteWrite src v => Sys2Proof.Machine.execEvtRouteWrite src v s
  | .domainPowerUpComplete d => Sys2Proof.Machine.execDomainPowerUpComplete d s
  | .domainDrainComplete d => Sys2Proof.Machine.execDomainDrainComplete d s
  | .idleGating d => Sys2Proof.Machine.execIdleGating d s
  | .powerCapStep currents mv => Sys2Proof.Machine.execPowerCapStep currents mv s
  | .thermalStep raw => Sys2Proof.Machine.execThermalStep raw s
  | .droopCrossing d => Sys2Proof.Machine.execDroopCrossing d s
  | .droopResponseEnd d => Sys2Proof.Machine.execDroopResponseEnd d s
  | .pllLossOfLock pll => Sys2Proof.Machine.execPllLossOfLock pll s
  | .powerOnReset supply => Sys2Proof.Machine.execPowerOnReset supply s
  | .pd0Start fuses => Sys2Proof.Machine.execPd0Start fuses s
  | .conventionalReset => Sys2Proof.Machine.execConventionalReset s
  | .coreStart => Sys2Proof.Machine.execCoreStart s
  | .primerCheck answers => Sys2Proof.Machine.execPrimerCheck answers s
  | .domainSequenceStep => Sys2Proof.Machine.execDomainSequenceStep s
  | .warmRstPin low => Sys2Proof.Machine.execWarmRstPin low s
  | .warmRstPinRelease => Sys2Proof.Machine.execWarmRstPinRelease s
  | .warmResetDrainDeadline => Sys2Proof.Machine.execWarmResetDrainDeadline s
  | .pwrgdLoss => Sys2Proof.Machine.execPwrgdLoss s
  | .modulePresent p id => Sys2Proof.Machine.execModulePresent p id s
  | .moduleRemoved p => Sys2Proof.Machine.execModuleRemoved p s
  | .moduleInterrupt p lanes => Sys2Proof.Machine.execModuleInterrupt p lanes s
  | .laserHoursUpdate p hours => Sys2Proof.Machine.execLaserHoursUpdate p hours s
  | .lifeRecordWrite => Sys2Proof.Machine.execLifeRecordWrite s
  | .boardBusPointerWrite addr ptr => Sys2Proof.Machine.execBoardBusPointerWrite addr ptr s
  | .boardBusRead n => Sys2Proof.Machine.execBoardBusRead n s
  | .tapReset => Sys2Proof.Machine.execTapReset s
  | .bypass => Sys2Proof.Machine.execBypass s
  | .idcode => Sys2Proof.Machine.execIdcode s
  | .samplePreload => Sys2Proof.Machine.execSamplePreload s
  | .extest => Sys2Proof.Machine.execExtest s
  | .clamp => Sys2Proof.Machine.execClamp s
  | .highz => Sys2Proof.Machine.execHighz s
  | .faultSourceCleared src => Sys2Proof.Machine.execFaultSourceCleared src s
  | .firmwareHeartbeat => Sys2Proof.Machine.execFirmwareHeartbeat s
  | .warmResetAbortDeadline => Sys2Proof.Machine.execWarmResetAbortDeadline s
  | .skimDisarmComplete lane => Sys2Proof.Machine.execSkimDisarmComplete lane s
  | .homeReservationHoldExpiry r l => Sys2Proof.Machine.execHomeReservationHoldExpiry r l s

end Sys2Proof.Machine
end

