-- ==== Sys2Proof/Machine/Tick.lean ====
section
/-! DEFINITION. The passing of one OCLK cycle: the counters that advance with no command (17_power_clocks_startup.md R458, Table 17-3;
notes/assumptions 1). -/
namespace Sys2Proof.Machine

/-- SKM_NCLK counts NCLK cycles, 27 of them in every two OCLK cycles, while its domain is on and NCLK runs. -/
def State.tickNclk (s : State) : State :=
  if s.domOn 4 && s.rst.plls.getLsbD 4 then
    { s with skm := { s.skm with nclk := s.skm.nclk + (if s.skm.half then 14 else 13), half := !s.skm.half } }
  else s

/-- A block with a task runs 136 / (16 + level) ACLK cycles, which its threads' CYCLES count; what is left over stays for the next OCLK
cycle (R458; 05_veltur_instructions.md CYCLES). -/
def State.tickBlock (s : State) (b : Nat) : State :=
  let x := s.blk b
  if x.task.isNone || s.blockDust b || !(s.domOn (computeDom b)) || !(s.rst.plls.getLsbD 0) then s
  else
    let n := x.aclk + 136
    let d := 16 + s.level b
    let s1 := s.setBlk b { x with aclk := n % d }
    { s1 with blocks := { s1.blocks with thr := s1.blocks.thr.map (fun e =>
        if e.1 / 128 = b then (e.1, { e.2 with cycles := e.2.cycles + BitVec.ofNat 64 (n / d) }) else e) } }

/-- One OCLK cycle passes: FLT_OCLK counts it while PD0 runs. -/
def tick (s : State) : State :=
  if s.rst.pd0Ready then
    let s1 : State := { s with flt := { s.flt with oclk := s.flt.oclk + 1 } }
    s1.tickNclk.each (s1.blocks.blk.map (fun e => e.1)) (fun t b => t.tickBlock b)
  else s

end Sys2Proof.Machine
end

