-- ==== Sys2Proof/Safety.lean ====
section
/-! DEFINITION. What counts as a safe run, and the terms in which the claims about threads are stated. -/
namespace Sys2Proof

/-- k steps from s end in a next state. -/
def SafeFor (s : Machine.State) (k : Nat) : Prop := ∃ t, core.run k s = .next t

end Sys2Proof

namespace Sys2Proof.Machine

/-- What the fetch of an instruction word of a thread at an address asks of the translation logic (05_veltur_instructions.md R122;
10_translation.md R274). -/
def fetchWant (s : State) (t : Th) (va : W64) : Want :=
  { unit := t.blk.val, who := .thread t.blk.val t.thr.val, pasid := s.pasidOf t.blk.val, va := va,
    write := false, fetch := true, tries := (s.thr t.blk.val t.thr.val).ftries }

/-- The translation logic after the fetch of a word, when that fetch is translated. -/
def fetchedWord (s : State) (t : Th) (va : W64) : Option Xlt :=
  match s.translate (fetchWant s t va) with
  | .ok _ s1 => some s1.xlt
  | _ => none

/-- The translation logic after the fetch of a thread's next instruction, of one word or of two, when each page that holds a word of it is
translated. -/
def fetched (s : State) (t : Th) (long : Bool) : Option Xlt :=
  let pc := (s.thr t.blk.val t.thr.val).pc
  match fetchedWord s t pc with
  | none => none
  | some x => if long && pageOf (pc + 8) != pageOf pc then fetchedWord { s with xlt := x } t (pc + 8) else some x

/-- A thread executes an instruction of form f with first word w (05_veltur_instructions.md R122 to R125, R155;
04_blocks_and_threads.md R89; 06_memory_ordering.md R162; 17_power_clocks_startup.md R466): ACLK runs, the thread is ready and takes no
late exception, its fetch translates and leaves the translation logic x, the word is well formed and its form legal, its guard
holds, and no fence, outstanding access or control-window rule holds it back. -/
def Executes (s : State) (t : Th) (w : W0) (f : Form) (x : Xlt) : Prop :=
  (s.thr t.blk.val t.thr.val).stat = .ready ∧ s.rst.plls.getLsbD 0 = true ∧ (s.thr t.blk.val t.thr.val).deferred = [] ∧
    fetched s t f.long = some x ∧ f.bad = false ∧ f.ill = false ∧ w.l = f.long ∧ guardOn w (s.thr t.blk.val t.thr.val) = true ∧
    (s.thr t.blk.val t.thr.val).fenced f = false ∧ (s.thr t.blk.val t.thr.val).awaits f = false ∧
    (f.brk && bit (s.thr t.blk.val t.thr.val).sts0 41) = false

/-- A thread once its instruction is complete: the program counter stands at pc, and a saved tile offset is cleared
(04_blocks_and_threads.md R114; STS0 [43] tells of one and [63:44] is the offset). -/
def Thread.passed (th : Thread) (pc : W64) : Thread :=
  { th with pc := pc, tries := 0, ftries := 0, sts0 := if bit th.sts0 43 then setBits (setBits th.sts0 43 43 0) 63 44 0 else th.sts0 }

/-- The outcome in which an executed instruction has changed its own thread alone, but for the translation logic x that its fetch
left: th is the thread's new content before the program counter moves to pc. -/
def leaves (s : State) (t : Th) (x : Xlt) (th : Thread) (pc : W64) : Host.Outcome State Fault Refusal :=
  .next (State.setThr { s with xlt := x } t.blk.val t.thr.val (th.passed pc))

/-- The thread that a thread number names. -/
def State.self (s : State) (t : Th) : Thread := s.thr t.blk.val t.thr.val

/-- Where a thread's data address leads, when it is translated, and the translation logic after that (10_translation.md R265 to
R274). -/
def mapped (s : State) (t : Th) (va : W64) (write : Bool) : Option (Target × Xlt) :=
  match s.translate { unit := t.blk.val, who := .thread t.blk.val t.thr.val, pasid := s.pasidOf t.blk.val, va := va, write := write,
                      fetch := false, tries := (s.self t).tries } with
  | .ok g s1 => some (g, s1.xlt)
  | _ => none

/-- Whether a target may take a scalar access: it is memory of this device, of the host or of another device, it
is not dead, it is no collective space of another device, and the block can
send the request that the access needs (06_memory_ordering.md R172; 07_caches_and_coherence.md R185; 13_collectives_and_hawk_store.md
R358). -/
def takes (s : State) (t : Th) (g : Target) (own : Bool) : Bool :=
  (s.deadAt g).isNone && !(s.misses t.blk.val g own && decide (s.outCount t.blk.val ≥ 64)) &&
    (match g with | .remote _ off => off / 2 ^ 44 % 4 != 3 | .bstore _ => false | _ => true)

/-- A thread past an instruction that clears IOF: a memory or tile access (05_veltur_instructions.md R152; STS0 [42]). -/
def Thread.passedIo (th : Thread) (pc : W64) : Thread := let u := th.passed pc; { u with sts0 := setBits u.sts0 42 42 0 }

/-- The access that a thread would accept next, before anything has come of it (06_memory_ordering.md R158). -/
def Thread.newAcc (th : Thread) (kind : AccKind) (va : W64) (g : Target) (size : Nat) (data : W64) : Acc :=
  { id := th.nextId, ia := th.pc, kind := kind, va := va, tgt := g, size := size, data := data, res := 0, asked := none, homed := false,
    performed := false, refused := false, left := if g.far then 1 else 0, buf := [], bad := false, pages := [], want := [], got := [] }

/-- A thread with one more outstanding access. -/
def Thread.withAcc (th : Thread) (a : Acc) : Thread := { th with accs := th.accs ++ [a], nextId := th.nextId + 1 }

/-- The outstanding accesses of a thread, numbered below its next one, have nothing to do of their own: each has taken effect, has
been asked of its home and its target lives, waits for an earlier one, or is not for a line of this device or the host. -/
def settled (s : State) (t : Th) : Prop :=
  ∀ a ∈ (s.self t).accs, a.id < (s.self t).nextId ∧
    (a.performed = true ∨ a.homed = true ∨ (a.asked.isSome = true ∧ s.deadAt a.tgt = none) ∨ (s.self t).inTurn a = false ∨
      lineOfTgt a.tgt = none)

/-- No earlier access of a thread to the sectors that a new one touches is still to take effect (06_memory_ordering.md R160). -/
def firstThere (s : State) (t : Th) (whole : Bool) (g : Target) : Prop :=
  ∀ a ∈ (s.self t).accs, a.performed = true ∨ sectorMeet (a.kind.whole || whole) a.tgt g = false

/-- Nothing of memory differs: the stacks, host memory as the device last saw it, and the blocks with their stores. -/
def sameMemory (s u : State) : Prop := u.stk = s.stk ∧ u.hpt.mem = s.hpt.mem ∧ u.blocks.blk = s.blocks.blk

/-- A device line at rest at its home r: the home lives and holds all of it in the tag e, no block cache holds it, no transaction and no
back-invalidate snoop runs there, the host holds nothing of it, and no reservation stands in any home's table
(07_caches_and_coherence.md R181, R185 to R187, R199). -/
def atRest (s : State) (r : Nat) (l : LineId) (e : RLine) : Prop :=
  l.host = false ∧ s.home l = some r ∧ s.deadDev (l.line.toNat * 256) = none ∧ s.rline r l = some e ∧ e.dirOnly = false ∧
    e.valid = 15 ∧ e.fwdr = none ∧ e.hst = 0 ∧ (∀ b, s.bline b l = none) ∧ (s.rc r).txns = [] ∧ (s.rc r).bi = [] ∧
    (∀ q, (s.rc q).resv = [])

/-- Block b has no request out and its threads have no access outstanding. -/
def quietBlock (s : State) (b : Nat) : Prop := (s.bc b).out = [] ∧ ∀ t, (s.thr b t).accs = []

/-- What the transaction of a line at its home waits for, and whether it has been served. -/
def State.waitsAt (s : State) (r : Nat) (l : LineId) : Option (Bool × List Expect) := (s.txn r l).map (fun x => (x.served, x.waits))

/-- A write of a BAR0 register of domain d at an offset is taken: it answers, no function-level reset runs, and the device is in D0
(09_host_port.md R240, R255, R256; 17_power_clocks_startup.md R463). -/
def writeTaken (s : State) (d off : Nat) : Prop := s.hpt.flr = false ∧ s.hpt.d3hot = false ∧ s.answers d off = true

/-- No collective engine has anything to do. -/
def collIdle (s : State) : Prop := s.col.news = [] ∧ s.col.own = [] ∧ ∀ r < 5, (s.ceng r).members = []

/-- The caches are empty: no line in a block or a region cache, no write-combining line, no reservation, no transaction at a home, no
access outstanding. -/
def cachesEmpty (s : State) : Prop :=
  (∀ b, (s.bc b).lines = []) ∧ (∀ r, (s.rc r).lines = [] ∧ (s.rc r).resv = [] ∧ (s.rc r).txns = [] ∧ s.wc r = []) ∧
    ∀ b t, (s.thr b t).accs = [] ∧ (s.thr b t).resv = none

/-- A device offset whose line no cache holds, at a home that lives, with no transaction and no reservation at any home. -/
def uncached (s : State) (o : Nat) : Prop :=
  o < 2 ^ 46 ∧ (s.home (lineFor false o)).isSome = true ∧ (s.place o).isSome = true ∧ s.deadDev o = none ∧
    s.deadDev (o / 256 * 256) = none ∧ (∀ b, s.bline b (lineFor false o) = none) ∧
    ∀ r, s.rline r (lineFor false o) = none ∧ (s.rc r).resv = [] ∧ (s.rc r).txns = []

/-- Queue q holds one command, in slot, of opcode op, well formed and with no status yet, that may start
(11_queues_and_copy.md R289, R290). -/
def Starts (s : State) (q slot op : Nat) (c : Cmd) : Prop :=
  (s.q q).cmds = [c] ∧ c.slot = slot ∧ c.op = op ∧ c.first = none ∧ s.mayStart q c = true ∧ s.malformed c.desc = none

/-- Where a command's semaphore lies, when its address is translated, and the translation logic after that. -/
def semPlace (s : State) (q : Nat) (c : Cmd) (write : Bool) : Option (Target × Xlt) :=
  match s.translate (queWant q c.slot (s.q q).pasid c.semAddr write c.tries) with
  | .ok g t => some (g, t.xlt)
  | _ => none

/-- Queue q with its one command replaced. -/
def State.oneCmd (s : State) (q : Nat) (c : Cmd) : State := s.setQ q { s.q q with cmds := [c] }

/-- No interface carries packets, so a queue pair keeps what it would send. -/
def netMute (s : State) : Prop := ∀ i, s.ifcServes i = false

/-- A packet belongs to its queue pair: the engine is enabled, the pair is in use with its sender as the peer, of the generation in force, and
ACTIVE or READY (12_umakin_transport.md R319, R320, R344). -/
def belongs (s : State) (p : Pkt) : Prop :=
  bit s.net.gctl 0 = true ∧ s.net.quiet = false ∧ p.mcast = none ∧ s.qpUsed p.dqpn.val = true ∧ s.peer p.dqpn.val = p.srcDev ∧
    (s.qp p.dqpn.val).state = (if p.dqpn.val < 65536 then .active else .ready) ∧ p.gen = s.genOf p.dqpn.val

/-- A packet is the next of its queue pair, which holds nothing back (12_umakin_transport.md R334), and no home has a transaction open. -/
def nextPacket (s : State) (p : Pkt) : Prop :=
  belongs s p ∧ (∀ r, (s.rc r).txns = []) ∧ p.psn = (s.qp p.dqpn.val).cum ∧ (s.qp p.dqpn.val).map = 0 ∧ (s.qp p.dqpn.val).unsent = [] ∧ (s.qp p.dqpn.val).held = [] ∧
    (s.qp p.dqpn.val).firsts = []

/-- The one frame sent from s to u, after what goes to the stacks, is an acknowledgement of a packet, with a CUM and a status
(12_umakin_transport.md R335, R336). -/
def acknowledges (s u : State) (p : Pkt) (cum : BitVec 24) (st : Byte) : Prop :=
  ∃ w a, u.sent = s.sent ++ w ++ [.umt p.ifc.val a (s.umtBytes p.ifc.val a)] ∧ (∀ m ∈ w, ∃ mp tag at' op, m = .stackReq mp tag at' op) ∧
    a.typ = 7 ∧ a.psn = cum ∧ a.path = p.path ∧ a.dst = p.srcDev ∧
    bits a.aux 31 24 = st.toNat ∧ (st ≠ 0 → bits a.aux 23 0 = p.psn.toNat)

/-- The state once a packet has been counted and is its queue pair's to perform. -/
def arrived (s : State) (p : Pkt) : State := match s.arrive p with | .take t => t | _ => s

/-- Work request w is the one that queue pair n of settings c holds, and it may start (12_umakin_transport.md R321). -/
def wrStarts (s : State) (n : Nat) (c : QpCfg) (w : Wr) (op : Nat) : Prop :=
  (s.qp n).cfg = some c ∧ (s.qp n).wrs = [w] ∧ w.op = op ∧ w.bad = false ∧ s.wrMay n w = true ∧ (s.qp n).unsent = []

/-- Two device offsets in different lines. -/
def otherLine (a b : Nat) : Prop := a / 256 ≠ b / 256

/-- Engine r holds the group of entry e, of one pod, whose node this device is, and a packet comes from another member of it
(13_collectives_and_hawk_store.md R348, R350, R359). -/
def podNode (s : State) (g : Nat) (e : BitVec 512) (r : Nat) (p : Pkt) : Prop :=
  s.groupEntry g = some e ∧ s.collEngine e = some r ∧ s.gMulti e = false ∧ s.podPos e (podOf p.srcDev) = 1 ∧ gNodeKind e ≠ 0 ∧
    s.gNode e 1 = s.xlt.devnum ∧ p.srcDev ∈ s.gMembers e ∧ p.srcDev ≠ s.xlt.devnum

/-- A packet is addressed to collective space of a kind, to group g (13_collectives_and_hawk_store.md R358). -/
def toColl (p : Pkt) (g kind : Nat) : Prop := bits p.addr 45 44 = 3 ∧ bits p.addr 43 32 = g ∧ bits p.addr 31 28 = kind

/-- The one collective that the engines run as a member is m, at engine r, for command c of its queue. -/
def oneMember (s : State) (r : Nat) (m : MemberColl) (c : Cmd) : Prop :=
  s.col.news = [] ∧ s.col.own = [] ∧ (s.ceng r).members = [m] ∧ (∀ k < 5, k ≠ r → (s.ceng k).members = []) ∧ (s.q m.q).cmds = [c] ∧
    c.slot = m.slot ∧ c.op = 3 ∧ c.stat = .running ∧ c.first = none

/-- Mailbox m has a command in progress, of opcode op with input bytes i, that may run (16_stolpel_and_events.md R425, R427, R428,
R435). -/
def inProgress (s : State) (m : Bool) (op : Nat) (i : List Byte) : Prop :=
  (s.box m).busy = true ∧ (s.box m).opcode = op ∧ s.rst.phase = .none ∧ s.boxRefusal m = none ∧ s.boxesWait = false ∧
    s.boxBehind m = false ∧ (List.range (s.box m).len).map (fun k => Tab.get 0 (s.box m).payload k) = i

/-- Mailbox m shows a command that has completed: DOORBELL is clear, RETURN and EXT tell how, LENGTH and the payload are its output, and
the completion is an arrival of its source (16_stolpel_and_events.md R425, Table 16-6). -/
def answered (t : State) (m : Bool) (ret ext : Nat) (out : List Byte) : Prop :=
  (t.box m).busy = false ∧ bit (t.box m).ctl 0 = false ∧ (t.box m).ret.toNat = ret ∧ (t.box m).ext.toNat = ext ∧
    (t.box m).len = out.length ∧ (∀ k, k < out.length → Tab.get 0 (t.box m).payload k = out.getD k 0) ∧ .event (400 + b2n m) ∈ t.sent

/-- A message of a vector goes out at once (16_stolpel_and_events.md R442). -/
def vectorOpen (s : State) (v : Nat) : Prop :=
  s.hpt.hostLost = false ∧ s.hpt.flr = false ∧ bit s.hpt.cfg.msixctl 15 = true ∧ bit s.hpt.cfg.msixctl 14 = false ∧
    (Tab.get Msix.init s.hpt.msix v).masked = false ∧ s.busMaster = true

/-- The command of mailbox m completes and nothing else of the device changes: not the other mailbox, the background command or the
firmware slot, and of the host port no more than a held message. The mailbox's message goes out where DB_INT asks for it. -/
def replies (s t : State) (m : Bool) (ret ext : Nat) (out : List Byte) : Prop :=
  answered t m ret ext out ∧ (bit (s.box m).ctl 1 = true → vectorOpen s (b2n m) → .msix (b2n m) ∈ t.sent) ∧
    ({ t with sent := s.sent, mail := s.mail, hpt := s.hpt } : State) = s ∧ ({ t.hpt with pba := s.hpt.pba } : HostPort) = s.hpt ∧
    t.box (!m) = { s.box (!m) with late := false } ∧ ({ t.mail with mb := s.mail.mb } : Mail) = s.mail

/-- The command of mailbox m fails with Invalid Input, an input offset and a reason, and nothing else of the device changes
(16_stolpel_and_events.md R429). -/
def refuses (s t : State) (m : Bool) (off ext : Nat) : Prop := replies s t m 2 ext (leBytes 4 off ++ leBytes 4 ext)

/-- Two states agree but for the mailboxes, the messages sent and the host port. -/
def sameDevice (t u : State) : Prop := ({ t with sent := u.sent, mail := u.mail, hpt := u.hpt } : State) = u

/-- A reset waits for its drain: dispatch is over, the network engine sends nothing new, every lane is disarmed
(17_power_clocks_startup.md Table 17-9). -/
def drains (t : State) (conv : Bool) : Prop :=
  t.rst.phase = .drain conv ∧ t.net.quiet = true ∧ ∀ n, n < 16 → (t.lane n).state = .disarmed

/-- Device memory and host memory stand in their canonical form. -/
def memoriesCanonical (s : State) : Prop := s.stk.mem.wf = true ∧ s.hpt.mem.wf = true

/-- The commands that may move the reset state: the resets, the rows of a start, the loss of the supply and of a PLL's lock, and the test
access port, which may hold a start (17_power_clocks_startup.md R466 to R477; 19_die_ports_and_integration.md R507). -/
def movesReset : Instr → Bool
  | .powerOnReset _ => true
  | .pd0Start _ => true
  | .coreStart => true
  | .primerCheck _ => true
  | .domainSequenceStep => true
  | .conventionalReset => true
  | .warmRstPin _ => true
  | .warmRstPinRelease => true
  | .warmResetDrainDeadline => true
  | .warmResetRequestDelay => true
  | .warmResetAbortDeadline => true
  | .pwrgdLoss => true
  | .pllLossOfLock _ => true
  | .tapReset => true
  | .bypass => true
  | .idcode => true
  | .samplePreload => true
  | .extest => true
  | .clamp => true
  | .highz => true
  | _ => false

/-- The commands at which the fuses are lost or loaded: POR_N's fall and PD0's start (17_power_clocks_startup.md R474, Table 17-4). -/
def loadsFuses : Instr → Bool
  | .powerOnReset _ => true
  | .pd0Start _ => true
  | _ => false

end Sys2Proof.Machine
end

