-- ==== Sys2Proof/Certificates/Slice0/Obligations.lean ====
section
/-! DEFINITION. The statements about the block that are to be proved: what each command does where it completes, what it leaves
as it was, and what holds of the whole machine. -/

open Sys2Proof Sys2Proof.Machine

/-! ### The step -/

/-- The step runs the command at the front of the queue on the state with the queue's rest. -/
def Obligations.StepRunsFrontCommand : Prop :=
  ∀ (c : Instr) (rest : List Instr) (s : State),
    step { s with pending := c :: rest } = exec c { s with pending := rest }

/-! ### Scalar instructions of a thread (05_veltur_instructions.md Tables 5-6 to 5-9) -/

/-- R127: what each integer instruction of format R writes to g[D], that the program counter moves past its one word, and that
nothing else changes but the fetch's translation logic. Shift counts are g[B][5:0]; a divisor of 0 gives all ones for a quotient and
the dividend for a remainder; −2^63 divided by −1 gives −2^63 and remainder 0.
R127: the integer instructions of other operand forms. ADDI adds the sign-extended 38-bit immediate of bits [63:26]; POPC
counts the ones of g[A] and CLZ its leading zeros; BFX takes X[11:6] bits from bit X[5:0] on; MOVI takes the second word and moves the
program counter by 16. -/
def Obligations.IntegerResults : Prop :=
  (∀ (s : State) (t : Th) (w : W0) (x : Xlt), Executes s t w { regs := [w.a, w.b, w.d] } x →
    let th := s.self t
    let a := th.reg w.a
    let b := th.reg w.b
    let gives : W64 → Host.Outcome State Fault Refusal := fun v => leaves s t x (th.setReg w.d v) (th.pc + 8)
    exec (.add t w) s = gives (a + b) ∧
    exec (.sub t w) s = gives (a - b) ∧
    exec (.mul t w) s = gives (a * b) ∧
    exec (.mulhs t w) s = gives ((a.signExtend 128 * b.signExtend 128).extractLsb' 64 64) ∧
    exec (.mulhu t w) s = gives ((a.setWidth 128 * b.setWidth 128).extractLsb' 64 64) ∧
    exec (.divs t w) s = gives (if b = 0 then BitVec.allOnes 64 else a.sdiv b) ∧
    exec (.divu t w) s = gives (if b = 0 then BitVec.allOnes 64 else a / b) ∧
    exec (.rems t w) s = gives (if b = 0 then a else a.srem b) ∧
    exec (.remu t w) s = gives (if b = 0 then a else a % b) ∧
    exec (.and t w) s = gives (a &&& b) ∧
    exec (.or t w) s = gives (a ||| b) ∧
    exec (.xor t w) s = gives (a ^^^ b) ∧
    exec (.shl t w) s = gives (a <<< (b.toNat % 64)) ∧
    exec (.shr t w) s = gives (a >>> (b.toNat % 64)) ∧
    exec (.sar t w) s = gives (a.sshiftRight (b.toNat % 64)) ∧
    exec (.min t w) s = gives (if a.toInt < b.toInt then a else b) ∧
    exec (.max t w) s = gives (if a.toInt < b.toInt then b else a) ∧
    exec (.minu t w) s = gives (if a.toNat < b.toNat then a else b) ∧
    exec (.maxu t w) s = gives (if a.toNat < b.toNat then b else a)) ∧
  (∀ (s : State) (t : Th) (w : W0) (imm : W64) (x : Xlt),
    let th := s.self t
    let gives : W64 → Host.Outcome State Fault Refusal := fun v => leaves s t x (th.setReg w.d v) (th.pc + 8)
    (Executes s t w { regs := [w.a, w.d] } x →
      exec (.mov t w) s = gives (th.reg w.a) ∧
      exec (.addi t w) s = gives (th.reg w.a + (w.x ++ w.c ++ w.b).signExtend 64) ∧
      exec (.popc t w) s = gives (BitVec.ofNat 64 ((List.range 64).countP (fun k => (th.reg w.a).getLsbD k))) ∧
      exec (.clz t w) s = gives (th.reg w.a).clz ∧
      exec (.bfx t w) s = gives ((th.reg w.a >>> (w.x.toNat % 64)) &&& (BitVec.allOnes 64 >>> (64 - w.x.toNat / 64 % 64)))) ∧
    (Executes s t w { regs := [w.a, w.b, w.d] } x →
      exec (.sel t w) s = gives (if th.p.getLsbD (w.c.toNat % 8) then th.reg w.a else th.reg w.b)) ∧
    (Executes s t w { regs := [w.a, w.b, w.c, w.d] } x →
      exec (.madd t w) s = gives (th.reg w.a * th.reg w.b + th.reg w.c)) ∧
    (Executes s t w { long := true, regs := [w.d] } x →
      exec (.movi t w imm) s = leaves s t x (th.setReg w.d imm) (th.pc + 16)))


/-- R127 to R129: compares and predicate instructions write the predicate that D names (its low three bits) and nothing else. The
conditions of ICMP are 0 EQ, 1 NE, 2 LT and 3 GE signed, 4 LTU and 5 GEU; PMOV moves all eight predicates to a register or from
one. -/
def Obligations.CompareAndPredicateResults : Prop :=
  ∀ (s : State) (t : Th) (w : W0) (x : Xlt),
    let th := s.self t
    let a := th.reg w.a
    let b := th.reg w.b
    let c := w.x.toNat % 8
    let pa := th.p.getLsbD (w.a.toNat % 8)
    let pb := th.p.getLsbD (w.b.toNat % 8)
    let sets : Bool → Host.Outcome State Fault Refusal := fun v => leaves s t x (th.setPred (w.d.setWidth 3) v) (th.pc + 8)
    (c < 6 → Executes s t w { regs := [w.a, w.b] } x →
      exec (.icmp t w) s = sets (if c = 0 then decide (a = b) else if c = 1 then decide (a ≠ b)
        else if c = 2 then decide (a.toInt < b.toInt) else if c = 3 then decide (b.toInt ≤ a.toInt)
        else if c = 4 then decide (a.toNat < b.toNat) else decide (b.toNat ≤ a.toNat))) ∧
    (Executes s t w {} x →
      exec (.pand t w) s = sets (pa && pb) ∧
      exec (.por t w) s = sets (pa || pb) ∧
      exec (.pxor t w) s = sets (pa ^^ pb) ∧
      exec (.pnot t w) s = sets (!pa)) ∧
    (w.x.getLsbD 0 = true → Executes s t w { regs := [w.a] } x →
      exec (.pmov t w) s = leaves s t x { th with p := a.setWidth 8 } (th.pc + 8)) ∧
    (w.x.getLsbD 0 = false → Executes s t w { regs := [w.d] } x →
      exec (.pmov t w) s = leaves s t x (th.setReg w.d (th.p.setWidth 64)) (th.pc + 8))


/-- 02_formats_and_coats.md R35, R36, R46 to R50: a value that FP32 can hold exactly rounds to its own code in every rounding mode,
with no flag: for every code that is no NaN, finishing its value gives the code back.
R128 and 02_formats_and_coats.md R43 to R53: each floating-point instruction rounds the exact result of its operands, the FP32
values in the low halves of its registers, once to FP32 by RND (X[1:0], 3 being reserved) and OVF (X[2]); it writes the code to
g[D] with the higher bits 0 and merges the flags of the result into FFLAGS. -/
def Obligations.FloatResults : Prop :=
  (∀ (c rnd : Nat) (sat : Bool), c < 2 ^ 32 → (decodeVal fp32 c).isNan = false → finish fp32 rnd sat (decodeVal fp32 c, 0) = (c, 0)) ∧
  (∀ (s : State) (t : Th) (w : W0) (x : Xlt),
    let th := s.self t
    let v : BitVec 6 → Val := fun r => decodeVal fp32 ((th.reg r).toNat % 2 ^ 32)
    let wr : Nat × BitVec 5 → Host.Outcome State Fault Refusal := fun r =>
      leaves s t x { th.setReg w.d (BitVec.ofNat 64 r.1) with fflags := th.fflags ||| r.2 } (th.pc + 8)
    let rounds : Val × BitVec 5 → Nat × BitVec 5 := finish fp32 (w.x.toNat % 4) (w.x.getLsbD 2)
    (w.x.toNat % 4 ≠ 3 →
      (Executes s t w { regs := [w.d, w.a, w.b] } x →
        exec (.fadd t w) s = wr (rounds (addV (v w.a) (v w.b))) ∧
        exec (.fsub t w) s = wr (rounds (addV (v w.a) (negV (v w.b)))) ∧
        exec (.fmul t w) s = wr (rounds (mulV (v w.a) (v w.b))) ∧
        exec (.fdiv t w) s = wr (rounds (divV (v w.a) (v w.b)))) ∧
      (Executes s t w { regs := [w.d, w.a, w.b, w.c] } x →
        exec (.ffma t w) s = wr (rounds (fmaV (v w.a) (v w.b) (v w.c)))) ∧
      (Executes s t w { regs := [w.d, w.a] } x →
        exec (.fsqrt t w) s = wr (rounds (sqrtV (v w.a))) ∧
        exec (.icvtf t w) s =
          wr (rounds (.num { neg := decide ((th.reg w.a).toInt < 0), m := (th.reg w.a).toInt.natAbs, e := 0 }, 0)))) ∧
    (Executes s t w { regs := [w.d, w.a, w.b] } x →
      exec (.fmin t w) s = wr (finish fp32 0 true (minMax false (v w.a) (v w.b), cmpFlags (v w.a) (v w.b))) ∧
      exec (.fmax t w) s = wr (finish fp32 0 true (minMax true (v w.a) (v w.b), cmpFlags (v w.a) (v w.b)))) ∧
    (Executes s t w { regs := [w.a, w.b] } x →
      exec (.fcmp t w) s = leaves s t x
        { th.setPred (w.d.setWidth 3) (fpCond (w.x.toNat % 8) (v w.a) (v w.b)) with
          fflags := th.fflags ||| cmpFlags (v w.a) (v w.b) } (th.pc + 8)) ∧
    (Executes s t w { regs := [w.d, w.a] } x →
      exec (.fabs t w) s = wr (if (v w.a).isNan then 0x7FC00000 else (th.reg w.a).toNat % 2 ^ 31, 0) ∧
      exec (.fneg t w) s = wr (if (v w.a).isNan then 0x7FC00000 else ((th.reg w.a).toNat % 2 ^ 32 + 2 ^ 31) % 2 ^ 32, 0) ∧
      exec (.fcvti t w) s = wr (toInt64 (v w.a)) ∧
      (∀ f g : Fmt, fmtOf (w.x.toNat % 16) = some f → fmtOf (w.x.toNat / 16 % 16) = some g → w.x.toNat / 256 % 4 < 2 →
        exec (.fcvt t w) s = wr (convert g (w.x.toNat / 256 % 4) (w.x.getLsbD 10) 0 (decodeVal f ((th.reg w.a).toNat % 2 ^ f.w))))))

/-- R120, R122, R130, R145: the control instructions. A branch target is the instruction's own address plus eight times the signed
38-bit immediate, or g[A]; it is taken when it is a multiple of 8. NOP only passes on; END stops the thread's issue; RDSR and
WRSR move a special register once what they wait for is over.
R120 and Table 5-3: what WRSR may change. FFLAGS takes the low five bits, STS1 and THA the whole word, STS0 its EACT, EMORE, ECODE
and CODE fields only; STS2, STS3 and CYCLES stay as they are.
R150 to R152: a control-window instruction, after FENCE.IO (IOF set), on an aligned offset that the task's window mask allows, is
done at once: CWLD reads the register into g[D], CWST stores g[B] to a register that answers; both clear IOF and set IOP. -/
def Obligations.ControlResults : Prop :=
  (∀ (s : State) (t : Th) (w : W0) (x : Xlt),
    let th := s.self t
    let rel : W64 := th.pc + 8 * (w.x ++ w.c ++ w.b).signExtend 64
    (Executes s t w {} x →
      exec (.nop t w 0x40) s = leaves s t x th (th.pc + 8) ∧
      (rel.toNat % 8 = 0 → exec (.bra t w) s = leaves s t x th rel) ∧
      (th.sts1.toNat % 8 = 0 → exec (.eret t w) s = leaves s t x { th with sts0 := setBits th.sts0 38 38 0 } th.sts1)) ∧
    ((th.reg w.a).toNat % 8 = 0 → Executes s t w { regs := [w.a] } x → exec (.br t w) s = leaves s t x th (th.reg w.a)) ∧
    (rel.toNat % 8 = 0 → Executes s t w { regs := [w.d] } x →
      exec (.call t w) s = leaves s t x (th.setReg w.d (th.pc + 8)) rel) ∧
    (Executes s t w { brk := true } x →
      exec (.endThread t w) s = .next (State.setThr { s with xlt := x } t.blk.val t.thr.val { th with stat := .ending })) ∧
    (w.x.toNat % 16 < 7 → s.srWait t (w.x.toNat % 16) true = false → Executes s t w { regs := [w.d] } x →
      exec (.rdsr t w) s = leaves s t x (th.setReg w.d
        ([th.fflags.setWidth 64, th.sts0, th.sts1, th.sts2, th.sts3, th.tha, th.cycles].getD (w.x.toNat % 16) 0)) (th.pc + 8)) ∧
    (w.x.toNat % 16 < 7 → s.srWait t (w.x.toNat % 16) false = false → Executes s t w { regs := [w.a] } x →
      exec (.wrsr t w) s = leaves s t x (th.setSpecial (w.x.toNat % 16) (th.reg w.a)) (th.pc + 8))) ∧
  (∀ (th : Thread) (v : W64),
    th.setSpecial 0 v = { th with fflags := v.setWidth 5 } ∧
    th.setSpecial 1 v = { th with sts0 := (th.sts0 &&& ~~~0x600000FFFF#64) ||| (v &&& 0x600000FFFF#64) } ∧
    th.setSpecial 2 v = { th with sts1 := v } ∧
    th.setSpecial 3 v = th ∧ th.setSpecial 4 v = th ∧
    th.setSpecial 5 v = { th with tha := v } ∧
    th.setSpecial 6 v = th) ∧
  (∀ (s : State) (t : Th) (w : W0) (x : Xlt),
    let th := s.self t
    let b := t.blk.val
    let a := (th.reg w.a + BitVec.ofNat 64 (4 * (w.x.toNat / 4))).toNat
    let n := if w.x.getLsbD 0 then 8 else 4
    let s1 : State := { s with xlt := x }
    w.x.getLsbD 1 = false → bit th.sts0 42 = true → bit th.sts0 41 = false → a % n = 0 → s.cwAllows b a = true →
    Executes s t w { regs := [w.a, w.b, w.d], mem := true, wr := true, brk := true } x →
      (∃ u, exec (.cwld t w) s = .next u ∧ (u.self t).reg w.d = (s1.regLoad a n).1 ∧ (u.self t).pc = th.pc + 8 ∧
        bit (u.self t).sts0 42 = false ∧ bit (u.self t).sts0 41 = true) ∧
      ((regsTouched a n) ≠ [] → s1.answers (regDom a) a = true →
        ∃ u v, exec (.cwst t w) s = .next u ∧ u = (s1.regStore a n (th.reg w.b)).setThr b t.thr.val v ∧
          bit v.sts0 42 = false ∧ bit v.sts0 41 = true ∧ v.pc = th.pc + 8))

/-- R130, R154: TRAP enters the thread's handler when THA is not 0 and no handler runs: STS1 takes the next instruction's address, STS2
the TRAP's own, STS3 its 16-bit code, ECODE becomes 14 and EACT 1, the program counter becomes THA, THA becomes 0, and no register
changes. The thread holds no reservation here; with one, the entry also clears it. -/
def Obligations.TrapEntersHandler : Prop :=
  ∀ (s : State) (t : Th) (w : W0) (x : Xlt),
    let th := s.self t
    Executes s t w {} x → th.tha ≠ 0 → bit th.sts0 38 = false → th.resv = none →
      exec (.trap t w) s = .next (State.setThr { s with xlt := x } t.blk.val t.thr.val
        { th with sts0 := setBits (setBits th.sts0 15 8 14) 38 38 1, sts1 := th.pc + 8, sts2 := th.pc,
                  sts3 := BitVec.ofNat 64 (w.x.toNat % 2 ^ 16), pc := th.tha, tha := 0, stat := .ready })

/-- R125, R129, R130, R154: a reserved opcode, a reserved field and a branch to a target that is no multiple of 8 have none of the
instruction's effect: they raise a precise exception, illegal instruction (1) or misaligned (5) with the address, which no
handler takes. The thread stops issuing with that exception noted, or has ended with its kernel aborted once the record is
written. -/
def Obligations.IllegalInstructionsEndTheThread : Prop :=
  ∀ (s : State) (t : Th) (w : W0) (opc : Byte) (x : Xlt),
    let th := s.self t
    let stops : Host.Outcome State Fault Refusal → Nat → W64 → Prop := fun o code v =>
      ∃ u, o = .next u ∧
        ((u.self t).stat = .ended ∨
          ((u.self t).stat = .ending ∧ (u.self t).ends = some { ecode := BitVec.ofNat 8 code, ia := th.pc, sts3 := v })) ∧
        (u.self t).g = th.g ∧ (u.self t).p = th.p ∧ (u.self t).pc = th.pc
    (opc ≠ 0x40 → Executes s t w { long := w.l } x → stops (exec (.nop t w opc) s) 1 0) ∧
    (w.x.toNat % 8 ≥ 6 → Executes s t w { regs := [w.a, w.b] } x → stops (exec (.icmp t w) s) 1 0) ∧
    (w.x.toNat % 16 ≥ 7 → Executes s t w { regs := [w.d] } x → stops (exec (.rdsr t w) s) 1 0) ∧
    (w.x.toNat % 16 ≥ 7 → Executes s t w { regs := [w.a] } x → stops (exec (.wrsr t w) s) 1 0) ∧
    ((th.reg w.a).toNat % 8 ≠ 0 → Executes s t w { regs := [w.a] } x → stops (exec (.br t w) s) 5 (th.reg w.a))

/-! ### Scalar memory instructions (05_veltur_instructions.md R142 to R144; 06_memory_ordering.md R158 to R173) -/

/-- R142, R144 in the block store: an aligned access that ends within the 2 MiB of the store, of a thread with no tile load on its
way there, is done at once. LD writes the bytes, little-endian, zero- or sign-extended; ST stores the low bytes of g[B]; AMO gives
the old value and stores the new one. Every other byte of the store, and all other memory, is as before. -/
def Obligations.BlockStoreAccesses : Prop :=
  ∀ (s : State) (t : Th) (w : W0) (x : Xlt),
    let th := s.self t
    let b := t.blk.val
    let n := 2 ^ (w.x.toNat % 4)
    let va : W64 := th.reg w.a + (BitVec.ofNat 22 (w.x.toNat / 16)).signExtend 64
    let p := th.reg w.a
    let m := if w.x.getLsbD 4 then 8 else 4
    let word : Nat → Nat → W64 := fun a k => BitVec.ofNat 64 (leVal ((s.blk b).store.read a k))
    let stores : State → Nat → Nat → W64 → Prop := fun u a k v =>
      (∀ i < k, (u.blk b).store.get (a + i) = (v >>> (8 * i)).setWidth 8) ∧
      (∀ a', (a' < a ∨ a + k ≤ a') → (u.blk b).store.get a' = (s.blk b).store.get a') ∧ u.stk = s.stk ∧ u.hpt = s.hpt
    (w.x.getLsbD 3 = true → va.toNat % n = 0 → va.toNat + n ≤ 2 ^ 21 → th.tileBusy = false →
      ((s.blk b).store.bad (va.toNat / 8) = false → Executes s t w (memForm false false [w.a, w.d]) x →
        exec (.ld t w) s = .next (State.setThr { s with xlt := x } b t.thr.val
          ((th.setReg w.d (if w.x.getLsbD 2 then w64 (sext (8 * n) (word va.toNat n).toNat) else word va.toNat n)).passedIo
            (th.pc + 8)))) ∧
      (Executes s t w (memForm false true [w.a, w.b]) x →
        ∃ u, exec (.st t w) s = .next u ∧ u.self t = th.passedIo (th.pc + 8) ∧ stores u va.toNat n (th.reg w.b))) ∧
    (w.x.getLsbD 5 = true → (w.x.toNat % 16 < 10 ∨ w.x.toNat % 32 = 10) → p.toNat % m = 0 → p.toNat + m ≤ 2 ^ 21 →
      th.tileBusy = false → (s.blk b).store.bad (p.toNat / 8) = false →
      Executes s t w (memForm false true [w.a, w.b, w.c, w.d]) x →
        let nw := amoNew (w.x.toNat % 16) (w.x.getLsbD 4) (word p.toNat m) (th.reg w.b) (th.reg w.c)
        ∃ u, exec (.amo t w) s = .next u ∧ stores u p.toNat m nw.1 ∧
          u.self t = Thread.passedIo { th.setReg w.d (word p.toNat m) with fflags := th.fflags ||| nw.2 } (th.pc + 8))

/-- R142 to R144, R158, R177, R185: a scalar access of memory is accepted when its address is aligned and translated and its target
takes it: the thread goes on past the instruction with one more outstanding access, and no register and no byte of the stacks or of
host memory has changed yet. An access of another device leaves in packets. One of this device or the host behind an earlier access
of the same sector waits. Else, where the block's cache does not hold what it needs of the line, it asks the line's home for that: a load
RdShared, or RdCurr where the block can keep no copy, a store WrLine, STC WrCond, ZLINE Zero, an atomic RdOwn or Atom as the predictor
says; a read that the block has asked for already is not asked for again. Where the block holds the sector, a load takes effect at
once, and a store does on a sector that it owns. LDR and STC are for 4 and 8 bytes on this device and the host; STC is accepted while
the thread holds a reservation in the sector, and otherwise fails at once with 1 in g[D]. -/
def Obligations.MemoryAccessesAreAccepted : Prop :=
  ∀ (s : State) (t : Th) (w : W0) (x y : Xlt) (g : Target),
    let th := s.self t
    let b := t.blk.val
    let n := 2 ^ (w.x.toNat % 4)
    let va : W64 := th.reg w.a + (BitVec.ofNat 22 (w.x.toNat / 16)).signExtend 64
    let s1 : State := { s with xlt := x }
    let leaves' : Instr → Acc → List Emit → Prop := fun c k out =>
      ∃ u, exec c s = .next u ∧ u.self t = (th.withAcc k).passedIo (th.pc + 8) ∧ u.stk = s.stk ∧ u.hpt.mem = s.hpt.mem ∧
        u.sent = s.sent ++ out
    let accepts : Instr → Acc → (LineId → Nat → BLine → Bool) → (LineId → Nat → Instr) → Prop := fun c k has q =>
      (g.far = true → ∃ u, exec c s = .next u ∧ u.self t = (th.withAcc k).passedIo (th.pc + 8) ∧ sameMemory s u) ∧
      (∀ l off, lineOfTgt g = some (l, off) → settled s t → s.hpt.hostLost = false →
        (¬ firstThere s t k.kind.whole g → leaves' c k []) ∧
        (firstThere s t k.kind.whole g → (∀ e, s.bline b l = some e → has l off e = false) → s.outCount b < 64 →
          leaves' c { k with asked := some (q l off) }
            (if shared (q l off) && (s.bc b).out.any (fun r => r.req == q l off) then [] else [.noc (q l off)])))
    let sec : Nat → BitVec 4 := fun off => 1#4 <<< (off / 64)
    let read : LineId → Nat → Instr := fun l off =>
      if s.canHold b l then .rdshared t.blk l (sec off) else .rdcurr (.block t.blk) l (sec off)
    let valid : LineId → Nat → BLine → Bool := fun _ off e => e.valid.getLsbD (off / 64)
    let owned : LineId → Nat → BLine → Bool := fun _ off e => e.excl.getLsbD (off / 64)
    let img : Nat → Line := fun off => linePut 0 off (leBytes n (th.reg w.b).toNat)
    (w.x.getLsbD 3 = false → va.toNat % n = 0 →
      (mapped s1 t va false = some (g, y) → takes s t g false = true →
        (Executes s t w (memForm false false [w.a, w.d]) x →
          let k := th.newAcc (.ld w.d (w.x.getLsbD 2)) va g n 0
          accepts (.ld t w) k valid read ∧
          (∀ l off e, lineOfTgt g = some (l, off) → settled s t → firstThere s t false g → s.hpt.hostLost = false →
            s.bline b l = some e → valid l off e = true →
            leaves' (.ld t w) { k with performed := true, res := lineVal e.data off n, bad := e.pois.getLsbD (off / 64) } [])) ∧
        (2 ≤ w.x.toNat % 4 → g.far = false → th.resv = none → Executes s t w (memForm false false [w.a, w.d]) x →
          accepts (.ldr t w) (th.newAcc (.ldr w.d (w.x.getLsbD 2)) va g n 0) valid read)) ∧
      (mapped s1 t va true = some (g, y) → takes s t g true = true →
        (Executes s t w (memForm false true [w.a, w.b]) x →
          let k := th.newAcc .st va g n (th.reg w.b)
          accepts (.st t w) k owned (fun l off => .wrline t.blk l (maskOf off n) (img off)) ∧
          (∀ l off e, lineOfTgt g = some (l, off) → settled s t → firstThere s t false g → s.hpt.hostLost = false →
            s.bline b l = some e → owned l off e = true → (∀ r, (s.rc r).resv = []) →
            leaves' (.st t w) { k with performed := true } [] ∧
            ∃ u, exec (.st t w) s = .next u ∧ (u.bline b l).map (fun z => (z.data, z.modi)) =
              some (lineMerge e.data (img off) (maskOf off n), e.modi ||| maskSecs (maskOf off n)))) ∧
        (2 ≤ w.x.toNat % 4 → g.far = false → Executes s t w (memForm false true [w.a, w.b, w.d]) x →
          (∀ r, th.resv = some r → sectorMeet false r g = true →
            accepts (.stc t w) (th.newAcc (.stc w.d) va g n (th.reg w.b)) (fun _ _ _ => false) (fun l off => .wrcond t l (maskOf off n) (img off))) ∧
          (th.resv = none → th.accs.any (fun a => (match a.kind with | .ldr _ _ => true | _ => false) && sectorMeet false a.tgt g) = false →
            ∃ u, exec (.stc t w) s = .next u ∧ u.self t = (th.setReg w.d 1).passedIo (th.pc + 8) ∧ sameMemory s u)))) ∧
    (let p := th.reg w.a
     let m := if w.x.getLsbD 4 then 8 else 4
     let op := BitVec.ofNat 4 (w.x.toNat % 16)
     w.x.getLsbD 5 = false → (w.x.toNat % 16 < 10 ∨ w.x.toNat % 32 = 10) → p.toNat % m = 0 →
      mapped s1 t p true = some (g, y) → takes s t g true = true → Executes s t w (memForm false true [w.a, w.b, w.c, w.d]) x →
        accepts (.amo t w) (th.newAcc (.amo w.d op (w.x.getLsbD 4) (th.reg w.c)) p g m (th.reg w.b))
          (fun l off e => s.goesNear b l && owned l off e) (fun l off =>
          if s.goesNear b l then .rdown t.blk l (sec off)
          else .atom t l (BitVec.ofNat 8 off) op (w.x.getLsbD 4) (th.reg w.b) (th.reg w.c))) ∧
    (let l : W64 := BitVec.ofNat 64 (va.toNat / 256 * 256)
     w.x.getLsbD 3 = false → mapped s1 t l true = some (g, y) → takes s t g true = true → g.far = false →
      Executes s t w (memForm false true [w.a]) x → accepts (.zline t w) (th.newAcc .zline l g 256 0) (fun _ _ e => e.excl == 15) (fun l' _ => .zero t.blk l'))

/-- R142, R153, R158, Table 6-1: an outstanding access of a thread whose others have nothing to do of their own ends. A load, an atomic or an STC that has taken effect on a target that
lives brings its value, sign-extended when it asked for that, into its register, and its flags merge; a poisoned or refused one leaves
its register as it was and is reported late. A store that has taken effect leaves the thread, and a refused one sets REP (STS0 [39]).
R145, R153, R155: a late report reaches a thread that runs and waits there for its next issue; a thread at END that waits for nothing
ends, in a block with no thread at a barrier. -/
def Obligations.OutstandingAccessesEnd : Prop :=
  (∀ (s : State) (t : Th) (k : Nat) (a : Acc),
    let th := s.self t
    let gone : Thread := { th with accs := th.accs.filter (fun z => z.id != k) }
    let put : Thread → Host.Outcome State Fault Refusal := fun u => .next (s.setThr t.blk.val t.thr.val u)
    th.accs.find? (fun z => z.id == k) = some a → a.performed = true → settled s t →
      (s.deadAt a.tgt = none → a.refused = false → a.bad = false →
        (∀ d sx, (a.kind = .ld d sx ∨ a.kind = .ldr d sx) → exec (.loadDataReturn t k) s = put (gone.setReg d (loadVal a.size sx a.res))) ∧
        (∀ d, a.kind = .stc d → exec (.loadDataReturn t k) s = put (gone.setReg d a.res) ∧
          exec (.storeComplete t k) s = put (gone.setReg d a.res)) ∧
        (∀ d op wide c, a.kind = .amo d op wide c → exec (.loadDataReturn t k) s =
          put { gone.setReg d a.res with fflags := th.fflags ||| (amoNew op.toNat wide a.res a.data c).2 })) ∧
      (s.deadAt a.tgt = none → a.refused = false → a.bad = true → a.tgt.far = false → th.stat = .ready → a.kind.dest.isSome = true →
        exec (.loadDataReturn t k) s = put { gone with deferred := th.deferred ++ [.poison a.ia a.va] }) ∧
      (a.refused = true → th.stat = .ready → a.kind.dest.isSome = true →
        exec (.loadDataReturn t k) s = put { gone with deferred := th.deferred ++ [.remoteError a.ia a.va] }) ∧
      ((a.kind = .st ∨ a.kind = .zline) → exec (.storeComplete t k) s =
        put (if a.refused then { gone with sts0 := setBits th.sts0 39 39 1 } else gone))) ∧
  (∀ (s : State) (t : Th) (e : Deferred),
    let th := s.self t
    (th.stat = .ready → exec (.deferredExceptionReport t e) s =
      .next (s.setThr t.blk.val t.thr.val { th with deferred := th.deferred ++ [e] })) ∧
    (th.stat = .ending → th.ends = none → th.accs = [] → th.fences = [] → th.deferred = [] →
      s.cellsBusy t.blk.val t.thr.val = false → (s.blk t.blk.val).bars = [] →
        exec (.endComplete t) s = .next (s.setThr t.blk.val t.thr.val { th with stat := .ended })))

/-- R22, R159, R160, R188: the store of a thread to device memory whose line no cache holds takes effect at its home when its request,
WRLINE, comes there, whether or not the home then keeps the line: in the coherence order exactly its bytes change, every
other byte of the line reads as before, no other line of the stacks is written, the thread's access has reached its home, and Cmp
goes back. -/
def Obligations.UncachedStoreWritesItsBytes : Prop :=
  ∀ (s : State) (t : Th) (a : Acc) (o r : Nat),
    let l := lineFor false o
    let m := maskOf (o % 256) a.size
    let d := linePut 0 (o % 256) (leBytes a.size a.data.toNat)
    let c : Instr := .wrline t.blk l m d
    (s.self t).accs = [a] → a.kind = .st → a.tgt = .dev o → a.performed = false → a.homed = false → a.refused = false → a.asked = some c →
    (∀ i, i ≠ t.thr.val → (s.thr t.blk.val i).accs = []) → (∀ b i, (s.thr b i).resv = none) → (∀ q, (s.rc q).resv = []) →
    a.size ∈ [1, 2, 4, 8] → o % a.size = 0 → o < 2 ^ 46 → s.deadDev (o / 256 * 256) = none → s.home l = some r →
    (∀ b, s.bline b l = none) → (s.rc r).lines = [] → (s.rc r).txns = [] → s.blockDust t.blk.val = false →
      ∃ u, exec c s = .next u ∧ (u.self t).accs = [{ a with homed := true }] ∧ .noc (.cmp t.blk l) ∈ u.sent ∧
        u.waitsAt r l = some (true, [.ack t.blk.val]) ∧
        (∀ k < a.size, u.cohRead false (o + k) 1 = [(a.data >>> (8 * k)).setWidth 8]) ∧
        (∀ j, j / 256 = o / 256 → (j < o ∨ o + a.size ≤ j) → u.cohRead false j 1 = s.cohRead false j 1) ∧
        (∀ j, j / 256 ≠ o / 256 → u.stk.mem.get j = s.stk.mem.get j) ∧ u.hpt = s.hpt

/-- R144, R274: PREF asks for the line it names, when the block may hold it and does not, its target lives and no request is out, and
goes on; it changes no register and no memory. One for the block store, for a sector held, or for a page without a translation only
goes on.
R168, R170, R199: the hold of a reserved line ends. At a block that holds snoops for the line, no thread of the block keeps a
reservation in it; at a home whose young reservation of a line holds no write, the reservation stays and is no longer young. -/
def Obligations.PrefetchesAndReservationHolds : Prop :=
  (∀ (s : State) (t : Th) (w : W0) (x : Xlt) (g : Target) (y : State) (l : LineId) (off : Nat),
    let th := s.self t
    let va : W64 := th.reg w.a + (BitVec.ofNat 22 (w.x.toNat / 16)).signExtend 64
    let s1 : State := { s with xlt := x }
    let want : Want := { unit := t.blk.val, who := .thread t.blk.val t.thr.val, pasid := s.pasidOf t.blk.val, va := va, write := false,
                         fetch := false, tries := 0, pri := false }
    Executes s t w { mem := true, iof := true, regs := [w.a] } x →
      (w.x.getLsbD 3 = true → exec (.pref t w) s = .next (State.setThr s1 t.blk.val t.thr.val (th.passedIo (th.pc + 8)))) ∧
      (w.x.getLsbD 3 = false → s1.translate want = .ok g y → lineOfTgt g = some (l, off) → s.deadAt g = none →
        (s.mayKeep t.blk.val l = true → s.hasB t.blk.val l (off / 64) = false → (s.bc t.blk.val).out = [] →
          ∃ u, exec (.pref t w) s = .next u ∧ u.self t = th.passedIo (th.pc + 8) ∧ sameMemory s u ∧
            u.sent = s.sent ++ [.noc (.rdshared t.blk l (1#4 <<< (off / 64)))]) ∧
        ((s.mayKeep t.blk.val l = false ∨ s.hasB t.blk.val l (off / 64) = true ∨ 64 ≤ s.outCount t.blk.val) →
          exec (.pref t w) s = .next (State.setThr y t.blk.val t.thr.val (th.passedIo (th.pc + 8))))) ∧
      (w.x.getLsbD 3 = false → (∀ c v, s1.translate want = .fault c v →
        exec (.pref t w) s = .next (State.setThr v t.blk.val t.thr.val (th.passedIo (th.pc + 8)))))) ∧
  ((∀ (s : State) (b : Fin 100) (l : LineId), (s.bc b.val).held.any (fun h => h.1 == lkey l) = true →
    ∃ u, exec (.reservationHoldExpiry b l) s = .next u ∧ u.reserved b.val l = false) ∧
  (∀ (s : State) (r : Fin 5) (l : LineId) (h : HomeResv),
    (s.rc r.val).resv.find? (fun h => h.young && resvHit l 15 h.sector) = some h → h.held = [] → (s.rc r.val).txns = [] →
    ∃ u, exec (.homeReservationHoldExpiry r l) s = .next u ∧ { h with young := false } ∈ (u.rc r.val).resv ∧ h ∉ (u.rc r.val).resv))


/-! ### Fences, barriers, semaphores, late reports (05_veltur_instructions.md R145 to R149, R153; 06_memory_ordering.md R161 to R166) -/

/-- R146, R148, R152, R162, R168: a fence instruction starts a fence of its scope and kind over the thread's outstanding accesses that
the scope covers, and the thread goes on; FENCE.IO (scope 3) is a full fence, sets IOF (STS0 [42]) and clears IOP ([41]). SEMSIG starts
the release fence that its atomic on the translated semaphore waits for. Both end the thread's reservation. -/
def Obligations.FencesStart : Prop :=
  ∀ (s : State) (t : Th) (w : W0) (x y : Xlt) (g : Target),
    let th := s.self t
    let sc := w.x.toNat % 4
    let kd := if sc = 3 then 0 else w.x.toNat / 4 % 4
    let starts : Instr → Fence → Prop := fun c f =>
      ∃ u, exec c s = .next u ∧ (u.self t).fences = th.fences ++ [f] ∧ (u.self t).resv = none ∧ (u.self t).pc = th.pc + 8 ∧
        (u.self t).g = th.g ∧ (u.self t).accs.map (fun a => a.id) = th.accs.map (fun a => a.id)
    (kd < 3 → Executes s t w { mem := true, brk := decide (sc ≠ 3) } x →
      starts (.fence t w) { ia := th.pc, scope := BitVec.ofNat 2 sc, kind := BitVec.ofNat 2 kd, covers := th.coverIds sc kd, sem := none } ∧
      (sc = 3 → ∃ u, exec (.fence t w) s = .next u ∧ bit (u.self t).sts0 42 = true ∧ bit (u.self t).sts0 41 = false)) ∧
    (let p := th.reg w.a
     let ss := w.x.toNat / 2 % 4
     (ss = 1 ∨ ss = 2) → p.toNat % 8 = 0 → mapped { s with xlt := x } t p true = some (g, y) →
      (∀ d o, g = .remote d o → o / 2 ^ 44 % 4 ≠ 3) → Executes s t w { regs := [w.a, w.b], mem := true, wr := true, brk := true } x →
        starts (.semsig t w) { ia := th.pc, scope := BitVec.ofNat 2 ss, kind := 2, covers := th.coverIds ss 2,
                               sem := some { va := p, tgt := g, isMax := w.x.getLsbD 0, value := th.reg w.b } })

/-- R146, R163, Table 5-16: the oldest fence of a thread whose accesses have nothing to do of their own completes when nothing that it waits for is outstanding and, at SYS and IO scope,
none of the thread's bytes is buffered. At block scope it only ends; at a wider scope CODE (STS0 [7:0]) becomes 1 after a
discarded store (DTP [40]), 2 after a refused one (REP [39]) and 0 otherwise, and both bits clear.
R146, R165, R174: a fence that is not done when its time is over ends all the same: at a scope wider than the block CODE becomes 3
unless a discarded or refused store gives 1 or 2, the accesses stay outstanding, and a record of class 3 is offered to the snag queue. -/
def Obligations.FencesEnd : Prop :=
  (∀ (s : State) (t : Th) (f : Fence) (rest : List Fence),
    let th := s.self t
    th.fences = f :: rest → f.sem = none → settled s t → (∀ a ∈ th.accs, a.id ∉ f.covers) →
    (f.scope.toNat ≥ 2 → s.bufferedBy t.blk.val t.thr.val = false ∧ ∀ c, s.storesWaiting c = 0) →
      exec (.fenceComplete t) s = .next (s.setThr t.blk.val t.thr.val
        (if f.scope = 0 then { th with fences := rest }
         else { th with
           fences := rest, recorded := [],
           sts0 := setBits (setBits (setBits th.sts0 7 0 (if bit th.sts0 40 then 1 else if bit th.sts0 39 then 2 else 0)) 40 40 0) 39 39 0 }))) ∧
  (∀ (s : State) (t : Th) (f : Fence) (rest : List Fence),
    let th := s.self t
    th.fences = f :: rest → f.sem = none → (∀ a ∈ th.accs, a.kind.isSig = false) →
    s.fenceDone t.blk.val t.thr.val f = false →
      ∃ u, exec (.fenceTimeoutExpiry t) s = .next u ∧ (u.self t).fences = rest ∧ (u.self t).accs = th.accs ∧
        bits (u.self t).sts0 7 0 =
          (if f.scope = 0 then bits th.sts0 7 0 else if bit th.sts0 40 then 1 else if bit th.sts0 39 then 2 else 3) ∧
        (∃ r, u.flt.last.head? = some r ∧ bits r 3 0 = 3))


/-- R147: a thread that arrives at a barrier waits there while its generation is not complete. The generation is complete when as many
threads have arrived as the first of them asked for, or as have not ended; then every one of them goes on past its BAR and the
barrier is empty again. No other barrier of the block has a thread waiting here. -/
def Obligations.BarriersGatherThreads : Prop :=
  ∀ (s : State) (t : Th) (w : W0) (x : Xlt),
    let th := s.self t
    let b := t.blk.val
    let n := w.x.toNat % 16
    let c := if w.x.getLsbD 4 then (match (s.blk b).task with | some k => k.threads | none => 1) else (th.reg w.a).toNat
    let old := Tab.get Barrier.empty (s.blk b).bars n
    let need := Nat.min (if old.waiting = [] then c else old.count) (s.unended b)
    let here := old.waiting ++ [t.thr.val]
    Executes s t w { regs := [w.a], brk := true } x → th.resv = none → (w.x.getLsbD 4 = true ∨ (1 ≤ c ∧ c ≤ 128)) →
    (∀ a ∈ th.accs, a.covered 0 = true → s.accDone b t.thr.val 0 a = true) →
    (∀ m, m ≠ n → (Tab.get Barrier.empty (s.blk b).bars m).waiting = []) → here.Nodup →
      (here.length < need → ∃ u, exec (.bar t w) s = .next u ∧
        u.self t = { th with stat := .barrier (BitVec.ofNat 4 n) } ∧
        (Tab.get Barrier.empty (u.blk b).bars n).waiting = here) ∧
      (need ≤ here.length → ∃ u, exec (.bar t w) s = .next u ∧ Tab.get Barrier.empty (u.blk b).bars n = Barrier.empty ∧
        ∀ k ∈ here, (u.thr b k).stat = .ready ∧ (u.thr b k).pc = (s.thr b k).pc + 8)

/-- R149: SEMWAIT on a semaphore in device or host memory asks its home for its line when another agent must first answer there, and
waits. Where the line is at rest and its unpoisoned value meets its condition (0 greater or equal, 1 equal, 2 not
equal, unsigned) writes the value to g[D] and CODE 0, starts an acquire fence and goes on; otherwise the thread waits there with the
value last read. A semaphore of another device is asked for, and the thread waits. When its time is over a waiting thread goes
on with the value last read and CODE 3. The thread holds no reservation and has no byte buffered here. -/
def Obligations.SemaphoreWaits : Prop :=
  ∀ (s : State) (t : Th) (w : W0) (x y : Xlt) (host : Bool) (o : Nat) (dev : W16),
    let th := s.self t
    let p := th.reg w.a
    let l := lineFor host o
    let v : W64 := lineVal (s.lineNow l).1 (o % 256) 8
    let c := w.x.toNat % 4
    let sc := w.x.toNat / 4 % 4
    let meets : Bool := if c = 0 then decide ((th.reg w.b).toNat ≤ v.toNat) else if c = 1 then decide (v = th.reg w.b)
      else decide (v ≠ th.reg w.b)
    let near : Target := if host then .host o else .dev o
    (c < 3 → (sc = 1 ∨ sc = 2) → th.sem = none → th.resv = none → s.bufferedBy t.blk.val t.thr.val = false → (∀ k, s.storesWaiting k = 0) →
      p.toNat % 8 = 0 → Executes s t w { regs := [w.a, w.b, w.c, w.d], mem := true, brk := true } x →
      (mapped { s with xlt := x } t p false = some (near, y) → s.deadAt near = none → ∀ r, s.home l = some r →
        let q : Instr := .rdcurr (.block t.blk) l (1#4 <<< (o % 256 / 64))
        (s.lineReady r l (1#4 <<< (o % 256 / 64)) false q = false → ∃ u, exec (.semwait t w) s = .next u ∧
          (u.self t).stat = .semwait ∧ (u.self t).pc = th.pc ∧ (u.self t).sem.map (fun z => (z.tgt, z.asked)) = some (near, true) ∧
          u.sent = s.sent ++ [.noc q]) ∧
        (s.lineReady r l (1#4 <<< (o % 256 / 64)) false q = true → (s.lineNow l).2.getLsbD (o % 256 / 64) = false →
        ∃ u, exec (.semwait t w) s = .next u ∧
          (meets = true → (u.self t).stat = .ready ∧ (u.self t).reg w.d = v ∧ bits (u.self t).sts0 7 0 = 0 ∧
            (u.self t).pc = th.pc + 8 ∧ (u.self t).sem = none ∧
            (u.self t).fences.map (fun f => (f.scope.toNat, f.kind)) = th.fences.map (fun f => (f.scope.toNat, f.kind)) ++ [(sc, 1)]) ∧
          (meets = false → (u.self t).stat = .semwait ∧ (u.self t).pc = th.pc ∧ (u.self t).g = th.g ∧
            (u.self t).sem.map (fun z => (z.last, z.value)) = some (v, th.reg w.b)))) ∧
      (mapped { s with xlt := x } t p false = some (.remote dev o, y) → s.deadAt (.remote dev o) = none → o / 2 ^ 44 % 4 ≠ 3 →
        ∃ u, exec (.semwait t w) s = .next u ∧ (u.self t).stat = .semwait ∧ (u.self t).pc = th.pc ∧
          (u.self t).sem.map (fun z => (z.tgt, z.asked)) = some (.remote dev o, true))) ∧
    (∀ z : SemWait, th.sem = some z → th.stat = .semwait →
      exec (.semwaitTimeout t) s = .next (s.setThr t.blk.val t.thr.val
        (Thread.passed { th.setReg z.d z.last with sts0 := setBits th.sts0 7 0 3, sem := none, stat := .ready } (z.ia + 8))))

/-! ### Tiles and cells (05_veltur_instructions.md R132 to R141; 04_blocks_and_threads.md R96 to R114) -/

/-- R132, R138 to R141: an instruction for a cell is legal by its fields, names rows inside the store or buffer and a logical cell below
the block's count that has not failed; it joins the end of the queue of the physical cell that stands for it, and the thread
goes on at once; nothing else changes. CWAIT goes on once no cell instruction of the thread is queued.
R55, R65, R66: while ACLK runs, the oldest instruction of a cell that waits for no tile load or store before it completes: its results stand in the
cell, it leaves the queue, and its flags merge into its thread's FFLAGS. A TSEED leaves its seed and every lane generator at the
seed's start. No tile store of the block waits for a cell here.
R132: the tile descriptor instructions. TDSET writes 64-bit word X[2:0] of descriptor D[3:0], TDGET reads one of A[3:0], and TDADD
adds g[A] to BASE (word 0) and g[B] to SBASE (word 1) of D[3:0], each modulo 2^64. -/
def Obligations.CellInstructionsRun : Prop :=
  (∀ (s : State) (t : Th) (w : W0) (ext : W64) (x : Xlt),
    let th := s.self t
    let b := t.blk.val
    let cellOk : Nat → Prop := fun c => c < (s.blk b).cellsN ∧ (s.blk b).failed c = false
    let queued : Nat → CellOp → Nat → Host.Outcome State Fault Refusal := fun c op len =>
      .next ((State.setBlk { s with xlt := x } b
        ((s.blk b).enqueue { t := t, ia := th.pc, logical := BitVec.ofNat 4 c, op := op })).setThr b t.thr.val
          (th.passed (th.pc + BitVec.ofNat 64 len)))
    let vecOk : VOp → Prop := fun v =>
      (v.reads ext ++ v.writes ext).all (fun p => !(locBad p.1) && !(pastEnd p)) = true ∧ bits ext 63 61 = 0 ∧ vRnd ext ≠ 3 ∧
        (v = .cvt → vFmt ext ≤ 9)
    (∀ n, pairLimit (mAf ext) (mBf ext) = some n → mK ext ≤ n → bits ext 63 62 = 0 → bits ext 58 57 ≠ 0 → bits ext 60 59 ≠ 3 →
      (∀ p ∈ mReads ext, p.row + p.rows ≤ 512) → cellOk (bits ext 3 0) → Executes s t w { long := true } x →
        exec (.tmma t w ext) s = queued (bits ext 3 0) (.tmma ext) 16) ∧
    (bits w.x 25 18 = 0 → bits w.x 14 13 ≠ 0 → bits w.x 16 15 ≠ 3 → bits w.x 12 4 + 5 ≤ 512 → cellOk (bits w.x 3 0) →
      Executes s t w {} x → exec (.tattn t w) s = queued (bits w.x 3 0) (.tattn w.x) 8) ∧
    (cellOk (bits w.x 3 0) → Executes s t w { regs := [w.a] } x →
      exec (.tseed t w) s = queued (bits w.x 3 0) (.tseed ((th.reg w.a).setWidth 32)) 8) ∧
    (s.cellsBusy b t.thr.val = false → Executes s t w {} x → exec (.cwait t w) s = leaves s t x th (th.pc + 8)) ∧
    (cellOk (bits ext 3 0) → Executes s t w { long := true } x →
      let vq : VOp → Host.Outcome State Fault Refusal := fun v => queued (bits ext 3 0) (.vec v ext) 16
      (vecOk .add → exec (.vadd t w ext) s = vq .add) ∧ (vecOk .sub → exec (.vsub t w ext) s = vq .sub) ∧
      (vecOk .mul → exec (.vmul t w ext) s = vq .mul) ∧ (vecOk .fma → exec (.vfma t w ext) s = vq .fma) ∧
      (vecOk .min → exec (.vmin t w ext) s = vq .min) ∧ (vecOk .max → exec (.vmax t w ext) s = vq .max) ∧
      (vecOk .cmp → exec (.vcmp t w ext) s = vq .cmp) ∧ (vecOk .abs → exec (.vabs t w ext) s = vq .abs) ∧
      (vecOk .neg → exec (.vneg t w ext) s = vq .neg) ∧ (vecOk .scale → exec (.vscale t w ext) s = vq .scale) ∧
      (vecOk .div → exec (.vdiv t w ext) s = vq .div) ∧ (vecOk .sqrt → exec (.vsqrt t w ext) s = vq .sqrt) ∧
      (vecOk .rcp → exec (.vrcp t w ext) s = vq .rcp) ∧ (vecOk .rsq → exec (.vrsq t w ext) s = vq .rsq) ∧
      (vecOk .exp2 → exec (.vexp2 t w ext) s = vq .exp2) ∧ (vecOk .exp → exec (.vexp t w ext) s = vq .exp) ∧
      (vecOk .rmax → exec (.vrmax t w ext) s = vq .rmax) ∧ (vecOk .rsum → exec (.vrsum t w ext) s = vq .rsum) ∧
      (vecOk .cvt → exec (.vcvt t w ext) s = vq .cvt) ∧ (vecOk .mov → exec (.vmov t w ext) s = vq .mov))) ∧
  (∀ (s : State) (b : Fin 100) (p : Fin 17) (e : CellEntry),
    let c := (s.blk b.val).cell p.val
    c.oldest = some e → c.blocked e = false → s.blockDust b.val = false → s.storesWaiting b.val = 0 → s.rst.plls.getLsbD 0 = true →
      ∃ u, exec (.cellInstructionComplete b p) s = .next u ∧
        ((u.blk b.val).cell p.val).queue = c.queue.erase e ∧
        ((u.blk b.val).cell p.val).rows = (c.run e.op).cell.rows ∧
        (u.thr b.val e.t.thr.val).fflags = (s.thr b.val e.t.thr.val).fflags ||| (c.run e.op).flags ∧
        (∀ seed, e.op = .tseed seed → ((u.blk b.val).cell p.val).seed = seed ∧ ((u.blk b.val).cell p.val).gens = [] ∧
          ((u.blk b.val).cell p.val).rows = c.rows)) ∧
  (∀ (s : State) (t : Th) (w : W0) (x : Xlt),
    let th := s.self t
    let k := w.x.toNat % 8
    let dn : BitVec 4 := w.d.setWidth 4
    let d := th.desc dn
    let word : BitVec 512 → Nat → W64 := fun v i => v.extractLsb' (64 * i) 64
    (Executes s t w { regs := [w.a] } x → ∃ e : BitVec 512, exec (.tdset t w) s = leaves s t x (th.setDesc dn e) (th.pc + 8) ∧
      ∀ i < 8, word e i = if i = k then th.reg w.a else word d i) ∧
    (Executes s t w { regs := [w.d] } x →
      exec (.tdget t w) s = leaves s t x (th.setReg w.d (word (th.desc (w.a.setWidth 4)) k)) (th.pc + 8)) ∧
    (Executes s t w { regs := [w.a, w.b] } x → ∃ e : BitVec 512, exec (.tdadd t w) s = leaves s t x (th.setDesc dn e) (th.pc + 8) ∧
      ∀ i < 8, word e i = if i = 0 then word d 0 + th.reg w.a else if i = 1 then word d 1 + th.reg w.b else word d i))

/-- R110 to R114, R135 to R137: TLD and TST of a well-formed tile, with rows inside their store and cells that have not failed, are
accepted when the tile's pages translate and no byte of it is dead, and the loader has room: the thread goes on past both words with one more
outstanding access that names the tile and where its pages lie. TLD asks the homes for the current data of the lines that it
touches; TST keeps from which byte on it must still move. TPF of a block-store tile only goes on.
R107: a malformed descriptor of a TLD, TST or TPF is a descriptor fault (3) with the descriptor's base, which no handler takes. -/
def Obligations.TileAccessesAreAccepted : Prop :=
  ∀ (s : State) (t : Th) (w : W0) (ext : W64) (x : Xlt) (pages : List (Nat × Target)) (s2 : State),
    let th := s.self t
    let b := t.blk.val
    let n := t.thr.val
    let d := th.desc (w.d.setWidth 4)
    let boff := th.reg w.a + BitVec.ofNat 64 (bits ext 56 36)
    let soff := th.reg w.b
    let s1 : State := { s with xlt := x }
    let accepted : State → (AccKind → Prop) → Prop := fun u k =>
      (u.self t).pc = th.pc + 16 ∧ (u.self t).g = th.g ∧ ∃ a ∈ (u.self t).accs, a.id = th.nextId ∧ k a.kind ∧ a.pages = pages
    let faults : Instr → Prop := fun c =>
      ∃ u, exec c s = .next u ∧ (u.self t).g = th.g ∧ (u.self t).pc = th.pc ∧ ((u.self t).stat = .ended ∨
        ((u.self t).stat = .ending ∧ (u.self t).ends = some { ecode := 3, ia := th.pc, sts3 := dBase d }))
    let spot : Option (Nat × Nat) := if tKind ext = 2 then some (boff.toNat, soff.toNat) else none
    let tld : Prop := Executes s t w { long := true, regs := [w.a, w.b], mem := true, brk := true, iof := true } x
    let tst : Prop := Executes s t w { long := true, regs := [w.a, w.b], mem := true, wr := true, brk := true, iof := true } x
    let tpf : Prop := Executes s t w { long := true, mem := true, iof := true } x
    let walked : Bool → Nat → Prop := fun store first =>
      if dSpace d = 2 then pages = [] else
        (touches d).all (fun y => !(s1.tileRefused (s.pasidOf b) y.addr)) = true ∧
        tileWalk (s1.tileWant b n th store) (touchFrom d first (dBytes d - first)) [] s1 = .all pages s2
    (tBad false ext = false → descBad d false spot = true → tld → faults (.tld t w ext)) ∧
    (tBad true ext = false → descBad d true spot = true → tst → faults (.tst t w ext)) ∧
    (ext = 0 → descBad d false none = true → tpf → faults (.tpf t w ext)) ∧
    ((∀ a ∈ th.accs, a.id < th.nextId) → ((tKind ext = 2 ∨ dSpace d = 2) → th.tileBusy = false) → s.tileHeld b < 32 →
      (tBad false ext = false → descBad d false spot = false →
        (tKind ext ≠ 2 → tCells false ext ≠ []) → (∀ c ∈ tCells false ext, c < (s.blk b).cellsN ∧ (s.blk b).failed c = false) →
        tRowsBad ext (dCellBytes d) (dScales d) = false → walked false 0 →
        (∀ y ∈ touches d, s.deadAt (pageTarget d pages y.addr) = none) → tld →
          ∃ u, exec (.tld t w ext) s = .next u ∧ accepted u (fun k => k = .tld ext boff soff d) ∧ u.stk.mem = s.stk.mem ∧ u.hpt = s.hpt ∧
            ∀ z ∈ tileLines ((touches d).map (fun y => pageTarget d pages y.addr)),
              .noc (.rdcurr (.block t.blk) z.1 z.2) ∈ u.sent) ∧
      (tBad true ext = false → descBad d true spot = false →
        (∀ c ∈ tCells true ext, c < (s.blk b).cellsN ∧ (s.blk b).failed c = false) →
        tRowsBad ext (dBytes d) (dScales d) = false → walked true th.toff → tst →
          ∃ u, exec (.tst t w ext) s = .next u ∧
            accepted u (fun k => ∃ p, th.toff ≤ p ∧ k = .tst ext d p (dBytes d))) ∧
      (ext = 0 → descBad d false none = false → dSpace d = 2 → tpf →
          exec (.tpf t w ext) s = .next (State.setThr s1 b n (th.passedIo (th.pc + 16)))))

/-- R137, R178, R274: TPF of a well-formed tile whose translated bytes lie in one line of this device's memory that its home may hold
and does not: the line has a tag in that region cache, and its sectors are asked of the stack; the thread goes on past both
words, and its registers stay.
R65, R108, R110, R136: a tile load whose reads have all returned, behind no earlier instruction of its cells that uses its rows, ends:
its thread no longer holds it, and, unless a cell has failed or a byte is dead or refused, its bytes stand in the block store or in
each cell that it names: here those of an unscaled tile that needs no conversion. -/
def Obligations.TilePrefetchesAndLoads : Prop :=
  (∀ (s : State) (t : Th) (w : W0) (x : Xlt) (pages : List (Nat × Target)) (s2 : State) (l : LineId) (secs : BitVec 4) (r : Nat) (p : Place),
    let th := s.self t
    let d := th.desc (w.d.setWidth 4)
    let s1 : State := { s with xlt := x }
    let firsts : List W64 := (((touches d).map (fun y => y.addr.toNat / 4096)).eraseDups).map (fun k =>
      (((touches d).find? (fun y => y.addr.toNat / 4096 == k)).map (fun y => y.addr)).getD 0)
    let there := (touches d).filter (fun y => pages.any (fun q => q.1 == y.addr.toNat / 4096))
    descBad d false none = false → dSpace d ≠ 2 → (touches d).any (fun y => s1.tileRefused (s.pasidOf t.blk.val) y.addr) = false →
    prefWalk { s1.tileWant t.blk.val t.thr.val th false with pri := false } firsts [] s1 = (some pages, s2) →
    tileLines (there.map (fun y => pageTarget d pages y.addr)) = [(l, secs)] → l.host = false → secs ≠ 0 →
    s.home l = some r → s.place (l.line.toNat * 256) = some p → s.deadDev (l.line.toNat * 256) = none → (s.rc r).lines = [] →
    (s.rc r).txns = [] → (s.rc r).allocates (rset l) = true → (s.mport p.port).reqs = [] →
    Executes s t w { long := true, mem := true, iof := true } x →
      ∃ u, exec (.tpf t w 0) s = .next u ∧ u.self t = th.passedIo (th.pc + 16) ∧ sameMemory s { u with stk := s.stk } ∧
        u.stk.mem = s.stk.mem ∧ (∃ e, u.rline r l = some e ∧ e.dirOnly = false) ∧
        u.waitsAt r l = some (false, [.stack p.port (s.lg (p.port / 2)).serial]) ∧
        ∃ at' op, u.sent = s.sent ++ [.stackReq p.port 0 at' op]) ∧
  (∀ (s : State) (t : Th) (k : Nat) (a : Acc) (e boff soff : W64) (d : BitVec 512),
    let b := t.blk.val
    let data := (touches d).map (fun y => (s.tileIn b a (pageTarget d a.pages y.addr)).1)
    let cs := tCells false e
    (s.self t).accs.find? (fun z => z.id == k) = some a → a.kind = .tld e boff soff d → a.left = 0 → a.want = [] →
    a.refused = false → a.bad = false → (∀ c ∈ cs, ((s.blk b).cell ((s.blk b).phys c)).markFree t.thr.val k = true ∧ (s.blk b).failed c = false) →
    (∀ y ∈ touches d, s.deadAt (pageTarget d a.pages y.addr) = none) → s.storesWaiting b = 0 →
      ∃ u, exec (.tileLoadComplete t k) s = .next u ∧ (∀ z ∈ (u.self t).accs, z.id ≠ k) ∧ u.stk = s.stk ∧ u.hpt = s.hpt ∧
        (dSp d = false → dMfmt d = dCfmt d →
          (tKind e = 2 → ∀ i < data.length, (u.blk b).store.get (boff.toNat + i) = data.getD i 0) ∧
          (tKind e ≠ 2 → ∀ c ∈ cs, ((u.blk b).cell ((s.blk b).phys c)).bytes (tRow e) data.length = data)))


/-! ### Tasks and kernels (04_blocks_and_threads.md R94 to R103, R115, R116) -/

/-- R100, R101, R457: the front-end places a kernel's next task on an eligible block of which no eligible block of the same region has a
lower number: the block then holds the task of the next linear index, x fastest, the kernel counts it, and the region is
remembered. A block that is on runs at once.
R94, R102, Table 4-3: a placed task starts: each of its threads is ready at the program's address with every register 0 but g0, the
argument block's address, g1 the task's coordinates, g2 and g3 its place; the other threads are off; and the block store is all
zeros when the task's PASID is not the last one's. -/
def Obligations.TasksArePlacedAndStart : Prop :=
  (∀ (s : State) (q : Fin 1024) (slot : W16) (k : Kernel) (b : Nat),
    s.kernel q.val slot.toNat = some k → k.aborted = false → k.next < k.total → s.modeHolds k = false → s.dispatches = true →
    s.pickBlock k = some b →
      s.eligible k (s.kernelMode k) b = true ∧
      (∀ c, regionOf c = regionOf b → c < b → s.eligible k (s.kernelMode k) c = false) ∧
      ∃ u, exec (.taskPlace q slot) s = .next u ∧ (u.kernel q.val slot.toNat).map (fun y => y.next) = some (k.next + 1) ∧
        u.blocks.prevRegion = regionOf b ∧ ((s.blk b).state = .idle → (u.blk b).state = .running) ∧
        (u.blk b).task.map (fun y => (y.x.toNat, y.y.toNat, y.z.toNat, y.started)) =
          some (k.next % k.gx % 2 ^ 16, k.next / k.gx % k.gy % 2 ^ 16, k.next / (k.gx * k.gy) % 2 ^ 16, false)) ∧
  (∀ (s : State) (b : Fin 100) (k : Task),
    (s.blk b.val).task = some k → k.started = false → (s.blk b.val).state = .running → k.threads ≤ 128 →
      ∃ u, exec (.taskStart b) s = .next u ∧ (u.blk b.val).task = some { k with started := true } ∧
        (∀ i < k.threads, let th := u.thr b.val i
          th.stat = .ready ∧ th.pc = k.prog ∧ th.p = 0 ∧ th.reg 0 = k.args ∧
          th.reg 1 = BitVec.ofNat 64 (k.z.toNat * 2 ^ 32 + k.y.toNat * 2 ^ 16 + k.x.toNat) ∧
          bits (th.reg 2) 7 0 = i ∧ bits (th.reg 3) 15 8 = b.val ∧ ∀ n : BitVec 6, 4 ≤ n.toNat → th.reg n = 0) ∧
        (∀ i, k.threads ≤ i → i < 128 → u.thr b.val i = Thread.init) ∧
        (k.clear = true → ∀ a, (u.blk b.val).store.get a = 0))


/-- R103, R115, R116, Table 4-6: a task whose threads have all ended leaves its block, which is idle again, or in SKIM when a lane has
reserved it; an abort of its kernel stops every thread of the block; an aborted block leaves its task once its cells are empty and its
stores have drained; and a kernel's time limit aborts it with status 6 and sends the abort to each block that runs it. -/
def Obligations.TasksEndAndAbort : Prop :=
  ∀ (s : State) (b : Fin 100) (q : Fin 1024) (slot : W16) (k : Task) (y : Kernel),
    let left : State → Prop := fun u =>
      (u.blk b.val).task = none ∧ (u.blk b.val).state = (if (s.blk b.val).reserved.isSome then .skim else .idle) ∧
        ∀ i < 128, u.thr b.val i = Thread.init
    ((s.blk b.val).task = some k → k.started = true → (s.blk b.val).state = .running → s.allEnded b.val k = true →
      ∃ u, exec (.taskEnd b) s = .next u ∧ left u) ∧
    ((s.blk b.val).task = some k → s.kernel k.q k.slot = some y → y.aborted = true → (s.blk b.val).state = .running →
      ∃ u, exec (.kernelAbort b) s = .next u ∧ (u.blk b.val).state = .aborting ∧
        ∀ i < 128, (u.thr b.val i).stat = .ended ∨ (u.thr b.val i).stat = .off) ∧
    ((s.blk b.val).task = some k → (s.blk b.val).state = .aborting → (∀ p < 17, ((s.blk b.val).cell p).queue = []) →
      s.stillDrains b.val = false → (∀ c, s.storesWaiting c = 0) → (∀ i : Fin 128, settled s ⟨b, i⟩) → ∃ u, exec (.kernelAbortDone b) s = .next u ∧ left u) ∧
    (s.kernel q.val slot.toNat = some y → y.tlimit ≠ 0 → y.aborted = false →
      ∃ u, exec (.klaunchTlimitExpiry q slot) s = .next u ∧
        (u.kernel q.val slot.toNat).map (fun z => (z.aborted, z.status)) = some (true, some (y.status.getD 6)) ∧
        ∀ c ∈ y.blocks, .noc (.kernelAbort (Fin.ofNat 100 c)) ∈ u.sent)

/-! ### Caches and coherence (07_caches_and_coherence.md; 01_architecture.md R22, R23, R27) -/

/-- R23, R187, R188, R198, R199, Table 7-5: a request for a device line that rests at its home is served at once. A read sends the
data and blocks the line until the block's CmpAck, with the reader in the presence bits (RdOwn: as owner); a non-caching read only sends
it. A write, a zero or an atomic changes the line's value as asked, but for an atomic on a poisoned sector, and answers Cmp; a
write-combining drain changes it and the line is free again. A conditional store of a block that the directory still names writes while its thread holds a reservation in
what it writes and else answers CmpFail. With another block in the presence bits, or an owner, the home first asks it: SnpInv for a write, Recall to S for a
read, SnpCur for a non-caching read. -/
def Obligations.HomesServeRequests : Prop :=
  ∀ (s : State) (b c : Fin 100) (t : Th) (r : Nat) (l : LineId) (e : RLine) (secs : BitVec 4) (m : LineMask) (d : Line),
    atRest s r l e → t.blk = b → quietBlock s b.val → s.blockDust b.val = false →
    let served : State → List Expect → Emit → Prop := fun u w out =>
      u.waitsAt r l = some (true, w) ∧ u.sent = s.sent ++ [out] ∧ u.hpt = s.hpt
    let now := (s.lineNow l).1
    let free : Prop := e.own = none ∧ ∀ k < 100, k ≠ b.val → e.pres.getLsbD k = false
    let asks : Instr → Expect → Instr → Prop := fun q w out =>
      ∃ u, exec q s = .next u ∧ u.waitsAt r l = some (false, [w]) ∧ u.sent = s.sent ++ [.noc out] ∧ u.lineNow l = s.lineNow l
    (e.own = none →
      (∃ u, exec (.rdshared b l secs) s = .next u ∧ served u [.ack b.val] (.noc (.data b l)) ∧ u.lineNow l = s.lineNow l ∧
        (u.rline r l).map (fun x => (x.own, x.pres)) = some (none, e.pres ||| BitVec.ofNat 400 (2 ^ b.val))) ∧
      (∃ u, exec (.rdcurr (.block b) l secs) s = .next u ∧ u.txn r l = none ∧ u.sent = s.sent ++ [.noc (.data b l)] ∧
        u.rline r l = some e)) ∧
    (free →
      (∃ u, exec (.rdown b l secs) s = .next u ∧ served u [.ack b.val] (.noc (.data b l)) ∧ u.lineNow l = s.lineNow l ∧
        (u.rline r l).map (fun x => (x.own, x.pres)) = some (some b.val, BitVec.ofNat 400 (2 ^ b.val))) ∧
      (∃ u, exec (.wrline b l m d) s = .next u ∧ served u [.ack b.val] (.noc (.cmp b l)) ∧ (u.lineNow l).1 = lineMerge now d m) ∧
      (∃ u, exec (.zero b l) s = .next u ∧ served u [.ack b.val] (.noc (.cmp b l)) ∧ (u.lineNow l).1 = 0) ∧
      (∀ (off : Byte) (op : BitVec 4) (wide : Bool) (x k : W64), off.toNat % (if wide then 8 else 4) = 0 →
        let n := if wide then 8 else 4
        let old := BitVec.ofNat 64 (leVal ((List.range n).map (fun i => lineByte now (off.toNat + i))))
        ∃ u, exec (.atom t l off op wide x k) s = .next u ∧ served u [.ack b.val] (.noc (.cmp b l)) ∧
          (u.lineNow l).1 = if (s.lineNow l).2.getLsbD (off.toNat / 64) then now
            else lineMerge now (linePut 0 off.toNat (leBytes n (amoNew op.toNat wide old x k).1.toNat)) (maskOf off.toNat n)) ∧
      (e.pres = BitVec.ofNat 400 (2 ^ b.val) → (s.bc b.val).held = [] →
        (∀ g, (s.self t).resv = some g → resvHit l (maskSecs m) g = true → ∃ u, exec (.wrcond t l m d) s = .next u ∧ served u [.ack b.val] (.noc (.cmp b l)) ∧
          (u.lineNow l).1 = lineMerge now d m) ∧
        ((s.self t).resv = none → ∃ u, exec (.wrcond t l m d) s = .next u ∧ u.txn r l = none ∧
          u.sent = s.sent ++ [.noc (.cmpfail t l)] ∧ u.lineNow l = s.lineNow l))) ∧
    (e.own = none → e.pres = 0 → ∀ f : Fin 5, s.wc f.val = [] →
      ∃ u, exec (.wrpart f l m d) s = .next u ∧ u.txn r l = none ∧ u.sent = s.sent ∧ (u.lineNow l).1 = lineMerge now d m) ∧
    (c ≠ b → e.own = none → e.pres = BitVec.ofNat 400 (2 ^ c.val) →
      asks (.rdown b l secs) (.inv c.val) (.snpinv c l) ∧ asks (.wrline b l m d) (.inv c.val) (.snpinv c l) ∧
      asks (.zero b l) (.inv c.val) (.snpinv c l)) ∧
    (c ≠ b → e.own = some c.val →
      asks (.rdshared b l secs) (.recall c.val) (.recall c l true) ∧ asks (.rdcurr (.block b) l secs) (.cur c.val) (.snpcur c l))

/-- R170, R182, R189, R191, R204: a snoop at a block. One that holds the line answers: SnpInv gives the copy up, Recall sends the data and
gives the copy up or keeps it clean and shared, SnpFwd sends the data to the reader and ends F, SnpCur sends the data and changes
nothing; the line's value in the coherence order stays, and what the block wrote goes on to the stack only where the home holds no
data of the line. A block without a copy answers RspMiss, or sends a write-back still in its
buffer; one with a reservation in the line holds the snoop; a dead block's port gives an unwritten copy up. -/
def Obligations.BlocksAnswerSnoops : Prop :=
  ∀ (s : State) (b dst : Fin 100) (l : LineId) (toS : Bool) (x : BLine),
    (s.blockDust b.val = false → s.reserved b.val l = false → s.bline b.val l = some x →
      (s.home l ≠ none → (l.host = false → s.deadDev (l.line.toNat * 256) = none) → (∀ c, c ≠ b.val → s.bline c l = none) →
        let out : State → Emit → Prop := fun u m => ∃ w, u.sent = s.sent ++ w ++ [m] ∧
          (x.modi = 0 ∨ (∃ r e, s.home l = some r ∧ s.rline r l = some e ∧ e.dirOnly = false) → w = [])
        (∃ u, exec (.snpinv b l) s = .next u ∧ out u (.noc (.invack b l)) ∧ u.bline b.val l = none ∧ u.lineNow l = s.lineNow l) ∧
        (∃ u, exec (.recall b l toS) s = .next u ∧ out u (.noc (.recalldata b l)) ∧ u.lineNow l = s.lineNow l ∧
          u.bline b.val l = (if toS then some { x with excl := 0, modi := 0 } else none))) ∧
      exec (.snpfwd b l dst) s = .next ((s.setBline b.val l (some { x with fwd := false })).emit (.noc (.fwddata dst l))) ∧
      exec (.snpcur b l) s = .next (s.emit (.noc (.recalldata b l)))) ∧
    (s.blockDust b.val = false → s.reserved b.val l = false → s.bline b.val l = none →
      exec (.snpinv b l) s = .next (s.emit (.noc (.rspmiss b l))) ∧
      exec (.snpfwd b l dst) s = .next (s.emit (.noc (.rspmiss b l))) ∧
      exec (.snpcur b l) s = .next (s.emit (.noc (.rspmiss b l))) ∧
      exec (.recall b l toS) s = .next (s.emit (.noc
        (if (s.bc b.val).wb.any (fun y => y.1 == lkey l) then .recalldata b l else .rspmiss b l)))) ∧
    (s.blockDust b.val = false → s.reserved b.val l = true →
      exec (.snpinv b l) s = .next (s.setBc b.val { s.bc b.val with held := (s.bc b.val).held ++ [(lkey l, .snpinv b l)] })) ∧
    (s.blockDust b.val = true → exec (.snpinv b l) s = .next (s.emit (.noc (.invack b l))) ∧
      (s.bline b.val l = some x → exec (.recall b l toS) s =
        .next (s.emit (.noc (if x.modi = 0 then .rspmiss b l else .rsppoison b l)))))

/-- R182, R187 to R189, R196, R204: a response that the line's transaction waits for, while it waits for more, is taken off its list, and
nothing else changes but what the response says (BIRsp sets the host's hold, RspPoison poisons and counts the line); the last one, a
CmpAck, frees the line. WbLine takes the writer out of the directory and answers WbAck, which frees the buffer entry. -/
def Obligations.HomesTakeResponses : Prop :=
  ∀ (s : State) (b : Fin 100) (l : LineId) (r : Nat) (x : Txn) (rest : List Expect),
    let n := b.val
    let one : State := s.setTxn r l { x with waits := rest }
    s.home l = some r →
    (s.txn r l = some x → rest ≠ [] →
      (x.waits = .inv n :: rest → exec (.invack b l) s = .next one ∧
        (.fwd n ∉ rest → (∀ e, s.rline r l = some e → e.own ≠ some n) → exec (.rspmiss b l) s = .next one)) ∧
      (x.waits = .recall n :: rest → exec (.recalldata b l) s = .next one) ∧
      (x.waits = .cur n :: rest → .recall n ∉ rest → exec (.recalldata b l) s = .next one) ∧
      (∀ st : BiState, x.waits = .host :: rest → (s.rc r).bi = [lkey l] → (s.rc r).late = [] → rest ≠ [.slot] →
        (∀ y ∈ (s.rc r).txns, y.waits ≠ [.slot]) → ∀ e, s.rline r l = some e →
        ∃ u, exec (.birsp l st) s = .next u ∧ (u.rc r).bi = [] ∧ u.waitsAt r l = some (x.served, rest) ∧
          u.rline r l = some { e with hst := match st with | .i => 0 | .s => 1 }) ∧
      (∀ e y, x.waits = .recall n :: rest → s.blockDust n = true → s.bline n l = some y → y.modi ≠ 0 → l.host = false →
        s.rline r l = some e → e.dirOnly = false →
        ∃ u, exec (.rsppoison b l) s = .next u ∧ u.bline n l = none ∧ (u.rc r).poisoned = satAdd (s.rc r).poisoned 1 ∧
          u.waitsAt r l = some (x.served, rest) ∧ (u.rline r l).map (fun z => (z.valid, z.dirty, z.pois)) = some (15, 15, 15))) ∧
    ((s.rc r).txns = [x] → x.line = lkey l → x.waits = [.ack n] → x.asked = true → x.served = true → x.queued = [] →
      ∃ u, exec (.cmpack b l) s = .next u ∧ (u.rc r).txns = [] ∧ u.sent = s.sent ∧ u.stk = s.stk ∧ u.coh.bc = s.coh.bc) ∧
    (∀ y e, (s.bc n).wb = [(lkey l, y)] →
      (s.rline r l = some e → e.own = some n → ∃ u, exec (.wbline b l) s = .next u ∧ u.sent = s.sent ++ [.noc (.wback b l)] ∧
        (u.rline r l).map (fun z => z.own) = some none) ∧
      exec (.wback b l) s = .next (s.setBc n { s.bc n with wb := [] }))

/-- R143, R177, R180, R183, R187, R190, R193: what a home sends reaches the block that asked, where the tag of the home records the block.
Data installs the sectors asked for, here in an empty cache: shared and clean after RdShared, exclusive after RdOwn; the thread's
load of it takes effect with the line's bytes, or its near atomic on the owned sector, the request is over and CmpAck goes
back. FwdData does the same in state F. Cmp ends a write's request: the access that reached the home has taken effect, a clean copy of
the block takes the home's bytes, and CmpAck goes back. CmpFail ends a conditional store, whose STC then gives 1. -/
def Obligations.BlocksTakeAnswers : Prop :=
  ∀ (s : State) (t : Th) (l : LineId) (r : Nat) (x : Txn) (rest : List BReq) (a : Acc) (o f : Nat) (m : LineMask) (d : Line)
    (off : Byte) (aop : BitVec 4) (awide : Bool) (av ak : W64),
    let b := t.blk
    let c := s.bc b.val
    let k := o % 256 / 64
    let secs : BitVec 4 := 1#4 <<< k
    let rq : Instr → BReq := fun q => { line := lkey l, req := q }
    let now := s.lineNow l
    l = lineFor false o → o < 2 ^ 46 → s.home l = some r → s.deadDev o = none → (∀ i, i ≠ t.thr.val → (s.thr b.val i).accs = []) →
    (s.self t).accs = [a] → a.performed = false → a.tgt = .dev o →
    (s.txn r l = some x → c.lines = [] → c.ways = 0 → c.retired = [] → s.canHold b.val l = true → (∀ q, s.bline q l = none) → o % a.size = 0 → a.homed = false →
      let done' : State → Prop := fun u => (u.bc b.val).out = rest ∧ u.sent = s.sent ++ [.noc (.cmpack b l)]
      let loads : State → Prop := fun u =>
        (u.self t).accs = [{ a with performed := true, bad := now.2.getLsbD k, res := lineVal now.1 (o % 256) a.size }]
      (x.served = true → x.waits = [.ack b.val] → (∀ e, s.rline r l = some e → e.dirOnly = false ∧ e.pres.getLsbD b.val = true) →
        (s.rline r l).isSome = true →
        (x.req = .msg (.rdshared b l secs) → a.kind = .ld 3 false → a.size ∈ [1, 2, 4, 8] → a.asked = some (.rdshared b l secs) →
          c.out = rq (.rdshared b l secs) :: rest → ∃ u, exec (.data b l) s = .next u ∧ done' u ∧ loads u ∧
            (u.bline b.val l).map (fun y => (y.valid, y.excl, y.modi, y.fwd, y.data)) = some (secs, 0, 0, false, now.1)) ∧
        (∀ wide v, x.req = .msg (.rdown b l secs) → a.kind = .amo 3 aop wide v → a.size = (if wide then 8 else 4) →
          a.asked = some (.rdown b l secs) → now.2.getLsbD k = false → (∀ q, (s.rc q).resv = []) → c.out = rq (.rdown b l secs) :: rest →
          let n := amoLine now.1 (o % 256) aop.toNat wide a.data v
          ∃ u, exec (.data b l) s = .next u ∧ done' u ∧ (u.self t).accs = [{ a with performed := true, res := n.1 }] ∧
            (u.bline b.val l).map (fun y => (y.valid, y.excl, y.modi, y.data, y.atoms)) =
              some (secs, secs, maskSecs n.2.1, lineMerge now.1 n.2.2 n.2.1, 1))) ∧
      (x.waits = [.fwd f] → x.asked = true → x.served = false → x.queued = [] → x.req = .msg (.rdshared b l secs) →
        (∃ e, s.rline r l = some e ∧ e.dirOnly = true) → a.kind = .ld 3 false → a.size ∈ [1, 2, 4, 8] →
        a.asked = some (.rdshared b l secs) → c.out = rq (.rdshared b l secs) :: rest → ∃ u, exec (.fwddata b l) s = .next u ∧ done' u ∧
          loads u ∧ (u.bline b.val l).map (fun y => (y.valid, y.excl, y.modi, y.fwd, y.data)) = some (secs, 0, 0, true, now.1))) ∧
    (s.txn r l = some x → x.served = true → x.waits = [.ack b.val] → a.homed = true →
      ∀ q, q ∈ [Instr.wrline b l m d, .zero b l, .wrcond t l m d, .atom t l off aop awide av ak] → x.req = .msg q → a.asked = some q →
        c.out = rq q :: rest →
        ∃ u, exec (.cmp b l) s = .next u ∧ (u.bc b.val).out = rest ∧ u.sent = s.sent ++ [.noc (.cmpack b l)] ∧
          (u.self t).accs = [{ a with performed := true }] ∧
          (u.bline b.val l).map (fun y => y.data) = (s.bline b.val l).map (fun y => lineMerge y.data now.1 (secMask (y.valid &&& ~~~y.modi)))) ∧
    (c.out = rq (.wrcond t l m d) :: rest → (s.self t).resv = none → a.kind = .stc 3 → a.asked = some (.wrcond t l m d) → a.homed = false →
      s.awaitsAck l b.val (.wrcond t l m d) = false →
      ∃ u, exec (.cmpfail t l) s = .next u ∧ (u.self t).accs = [{ a with performed := true, res := 1 }] ∧
        u.lineNow l = s.lineNow l)

/-- R196, R197, R206; 09_host_port.md R242, R243: the host's accesses of device memory, through a decoder, at a line that rests at its
home: a read returns its sector with its poison and records the host's hold (0 none, 1 shared, 2 any, for which the blocks must hold
nothing); a write changes the masked bytes and answers. An access that the device does not serve reads as poisoned zeros or is dropped, and
still answers. A back-invalidate snoop that goes unanswered for 10 ms ends: the hold is over, and the line is poisoned when the
host may have written it.
R189, R194, R195: the host's messages about its own memory. A snoop of a sector that no block holds is answered from the region cache: a
dirty sector goes back with its data, a clean one as a hit, any other as a miss; SnpInv takes the sector out of the cache, SnpData
leaves it clean and shared, SnpCur changes no state of it. GO brings a read's sector to the home that waits for it. The host's pull takes
an evicted sector's data from the eviction buffer, and a pull-drop releases it. -/
def Obligations.HostReachesAndCaches : Prop :=
  (∀ (s : State) (hpa mask : W64) (data : BitVec 512) (k : HostMeta) (o r : Nat) (e : RLine),
    let l := lineFor false o
    (s.hostTarget hpa = some o → o < 2 ^ 46 → atRest s r l e → e.own = none → e.pres = 0 →
      let sec := hpa.toNat % 256 / 64
      (∃ u, exec (.hostMemrd hpa k) s = .next u ∧ u.txn r l = none ∧
        u.sent = s.sent ++ [.memData hpa (((s.lineNow l).1 >>> (512 * sec)).setWidth 512) ((s.lineNow l).2.getLsbD sec)] ∧
        u.lineNow l = s.lineNow l ∧
        (u.rline r l).map (fun z => z.hst) = some (match k with | .invalid => 0 | .shared => 1 | .any => 2)) ∧
      (s.flt.readonly = false → ∃ u, exec (.hostMemwr hpa mask data k) s = .next u ∧ u.sent = s.sent ++ [.memCmp hpa] ∧
        (u.lineNow l).1 = lineMerge (s.lineNow l).1 (data.setWidth 2048 <<< (512 * sec)) (mask.setWidth 256 <<< (64 * sec)))) ∧
    (s.hostTarget hpa = none →
      exec (.hostMemrd hpa k) s = .next (s.emit (.memData hpa 0 true)) ∧ exec (.hostMemwr hpa mask data k) s = .next (s.emit (.memCmp hpa))) ∧
    (s.home l = some r → (s.rc r).bi = [lkey l] → (s.rc r).late = [] → s.rline r l = some e → e.dirOnly = false → (s.rc r).txns = [] →
      ∃ u, exec (.biSnoopTimeout l) s = .next u ∧ (u.rc r).bi = [] ∧ bit u.hpt.rasUnc 0 = true ∧
        (u.rline r l).map (fun z => (z.hst, z.pois)) = some (0, if e.hst = 2 then 15 else e.pois) ∧
        (u.rc r).poisoned = if e.hst = 2 then satAdd (s.rc r).poisoned 1 else (s.rc r).poisoned)) ∧
  (∀ (s : State) (hpa : W64) (r : Nat) (e : RLine) (data : BitVec 512) (x : Txn) (rest : List Expect),
    let h := hpa.toNat
    let l := lineFor true h
    let k := h % 256 / 64
    let sec : BitVec 4 := 1#4 <<< k
    let now : BitVec 512 := ((s.lineNow l).1 >>> (512 * k)).setWidth 512
    s.home l = some r → (∀ q, (s.rc q).evict = []) →
    (s.txn r l = none → (s.rc r).hsnp = [] → s.rline r l = some e → e.dirOnly = false → e.pres = 0 → e.own = none →
      (∀ b, s.bline b l = none) → (∀ q, (s.rc q).resv = []) →
      let dirty := e.dirty.getLsbD k
      let has := e.valid.getLsbD k
      (∃ u, exec (.hostSnpinv hpa) s = .next u ∧
        u.sent = s.sent ++ [.d2h (if dirty then .rspIFwdM else if has then .rspIHitSE else .rspIHitI) h 0 (if dirty then now else 0)] ∧
        (u.rline r l).map (fun z => z.valid) = some (e.valid &&& ~~~sec)) ∧
      (∃ u, exec (.hostSnpdata hpa) s = .next u ∧
        u.sent = s.sent ++ [.d2h (if dirty then .rspSFwdM else if has then .rspSHitSE else .rspIHitI) h 0 (if dirty then now else 0)] ∧
        (u.rline r l).map (fun z => (z.valid, z.dirty, z.excl)) = some (e.valid, e.dirty &&& ~~~sec, e.excl &&& ~~~sec)) ∧
      (∃ u, exec (.hostSnpcur hpa) s = .next u ∧ u.rline r l = some e ∧
        u.sent = s.sent ++ [.d2h (if dirty then .rspVFwdV else if has then .rspVHitV else .rspIHitI) h 0 (if dirty then now else 0)])) ∧
    (s.hpt.hostLost = false → s.txn r l = some x → x.waits = .go k :: rest → rest ≠ [] → x.req = .msg (.rdshared 0 l sec) →
      x.served = false →
      s.rline r l = some e → e.dirOnly = false →
      ∃ u, exec (.hostGo hpa .s data) s = .next u ∧ u.waitsAt r l = some (x.served, rest) ∧
        (u.rline r l).map (fun z => (z.valid, z.dirty, z.excl)) = some (e.valid ||| sec, e.dirty, e.excl) ∧
        (u.rline r l).map (fun z => z.data.extractLsb' (512 * k) 512) = some data) ∧
    (let held : State := s.setRc r { s.rc r with evict := [(h / 64 * 64, data)] }
     (∃ u, exec (.goWritepull hpa) held = .next u ∧ (u.rc r).evict = [] ∧ u.sent = s.sent ++ [.d2h .pull h (BitVec.allOnes 64) data]) ∧
     (∃ u, exec (.goWritepulldrop hpa) held = .next u ∧ (u.rc r).evict = [] ∧ u.sent = s.sent)))


/-- 01_architecture.md R27, 07_caches_and_coherence.md R206, 12_umakin_transport.md R331: another device's access is performed at its
home: a read returns the bytes in the coherence order, a write stores them, an atomic stores its new value and returns the old one. Unpopulated offsets are
refused with 2, dead or poisoned ones with 3. -/
def Obligations.RemoteAccessesAtTheirHome : Prop :=
  ∀ (s : State) (dev : W16) (off : W64) (n r : Nat) (bs : List Byte) (op : BitVec 4) (wide : Bool) (a c : W64),
    let o := off.toNat
    let m := if wide then 8 else 4
    (s.place o = none →
      exec (.remoteRead dev off n) s = .next (s.emit (.remoteNo dev 2)) ∧ exec (.remoteWrite dev off bs) s = .next (s.emit (.remoteNo dev 2)) ∧
      exec (.remoteAtomic dev off op wide a c) s = .next (s.emit (.remoteNo dev 2))) ∧
    (o < 2 ^ 46 → s.home (lineFor false o) = some r → (s.place o).isSome = true → s.deadDev o = none → (∀ b, s.bline b (lineFor false o) = none) →
      s.deadDev (o / 256 * 256) = none → s.rline r (lineFor false o) = none → s.txn r (lineFor false o) = none →
      (∀ q, (s.rc q).resv = []) →
      (1 ≤ n → o % 256 + n ≤ 256 → (s.place (o + (n - 1))).isSome = true → exec (.remoteRead dev off n) s =
        .next (s.emit (if s.cohBad false o n then .remoteNo dev 3 else .remoteData dev (s.cohRead false o n) false))) ∧
      (bs ≠ [] → o % 256 + bs.length ≤ 256 → (s.place (o + (bs.length - 1))).isSome = true →
        ∃ u w, exec (.remoteWrite dev off bs) s = .next u ∧ u.sent = s.sent ++ w ++ [.remoteOk dev] ∧
        u.cohRead false o bs.length = bs ∧ ∀ j, j / 256 = o / 256 → (j < o ∨ o + bs.length ≤ j) →
          u.cohRead false j 1 = s.cohRead false j 1) ∧
      (o % m = 0 → s.cohBad false o m = false →
        let old : W64 := BitVec.ofNat 64 (leVal (s.cohRead false o m))
        ∃ u w, exec (.remoteAtomic dev off op wide a c) s = .next u ∧ u.sent = s.sent ++ w ++ [.remoteOld dev old] ∧
          leVal (u.cohRead false o m) = (amoNew op.toNat wide old a c).1.toNat % 2 ^ (8 * m)))

/-- R194, R199 to R201, R204, Table 7-8; 06_memory_ordering.md R166: the cache controls. CCH_CTL takes a new value (fields [11:8], [1:0])
and walks when a mode changed, or waits for the walk that runs; CCH_WAYDIS disables ways, whose lines leave; CCH_FLUSH writes the
dirty sectors back, and with INV the line goes too; the end of a walk lets a latched value take effect. A dead block's written
line is poisoned and counted, as is a line that a dead host may have written. A write-combining line that drains to a line at rest is
merged there and leaves the buffer. -/
def Obligations.CacheControlsAndDrains : Prop :=
  ∀ (s : State) (r : Fin 5) (b : Fin 100) (v : W32) (l : LineId) (e : RLine) (k : Nat) (x : WLine),
    let n := r.val
    let c := s.rc n
    let dom := 10 + 9 * n
    let win := 0x1000000 + n * 0x400000
    let alone : Prop := c.lines = [(lkey l, some e)] ∧ l.host = false ∧ e.host = false ∧ e.dirOnly = false ∧ e.own = none ∧ e.pres = 0 ∧ c.txns = [] ∧ (∀ q, s.bline q l = none) ∧
      (∀ q, (s.rc q).resv = []) ∧ s.home l = some n ∧ s.deadDev (l.line.toNat * 256) = none
    (writeTaken s dom (win + 0x100000) →
      (c.walk = true → exec (.cchCtlWrite r v) s = .next (s.setRc n { c with latched := some v })) ∧
      (c.walk = false → cachesEmpty s → ∃ u, exec (.cchCtlWrite r v) s = .next u ∧ (u.rc n).ctl = v &&& 0xF03 ∧
        (u.rc n).walk = (bit v 0 != bit c.ctl 0 || bit v 1 != bit c.ctl 1 || decide (bits v 11 8 < bits c.ctl 11 8)) ∧
        u.stk.mem = s.stk.mem ∧ u.sent = s.sent)) ∧
    (writeTaken s dom (win + 0x100018) →
      (c.lines = [] → exec (.cchWaydisWrite r v) s = .next (s.setRc n { c with
        waydis := v &&& 0xFFFFFF, walk := c.walk || (v &&& 0xFFFFFF &&& ~~~c.waydis) != 0 })) ∧
      (alone → e.dirty = 0 → e.hst = 0 → (v &&& 0xFFFFFF &&& ~~~c.waydis).getLsbD e.way = true →
        ∃ u, exec (.cchWaydisWrite r v) s = .next u ∧ u.rline n l = none ∧ u.stk.mem = s.stk.mem)) ∧
    (writeTaken s dom (win + 0x100010) → alone → e.dirty ≠ 0 → e.hst = 0 →
      (∃ u, exec (.cchFlush r) s = .next u ∧ u.rline n l = some { e with dirty := 0 } ∧ (u.rc n).walk = true ∧
        u.stk.mem = s.stk.mem.putLine l.line.toNat (secMask e.dirty) e.data e.pois) ∧
      (∃ u, exec (.cchFlushInvalidate r) s = .next u ∧ u.rline n l = none ∧ (u.rc n).walk = true ∧
        u.stk.mem = s.stk.mem.putLine l.line.toNat (secMask e.dirty) e.data e.pois)) ∧
    (c.walk = true → (c.latched = none → exec (.cacheWalkEnd r) s = .next (s.setRc n { c with walk := false })) ∧
      (c.latched = some v → cachesEmpty s → ∃ u, exec (.cacheWalkEnd r) s = .next u ∧ (u.rc n).ctl = v &&& 0xF03 ∧ (u.rc n).latched = none)) ∧
    (s.blockDust b.val = true → c.lines = [(lkey l, some e)] → l.host = false → e.dirOnly = false →
      ∀ y, s.bline b.val l = some y → y.modi ≠ 0 →
        ∃ u, exec (.reclamationWalk r (.block b)) s = .next u ∧ u.bline b.val l = none ∧ (u.rc n).poisoned = satAdd c.poisoned 1 ∧
          (u.rline n l).map (fun z => (z.pois, z.dirty)) = some (15, 15)) ∧
    (c.hostDead = true → c.lines = [(lkey l, some e)] → l.host = false → e.host = false → e.dirOnly = false → e.hst = 2 →
      ∃ u, exec (.reclamationWalk r .host) s = .next u ∧ (u.rc n).poisoned = satAdd c.poisoned 1 ∧ (u.rc n).evict = [] ∧
        (u.rc n).hlost = satAdd c.hlost c.evict.length ∧ (u.rline n l).map (fun z => (z.hst, z.pois)) = some (0, 15)) ∧
    (∀ q, atRest s q l e → e.own = none → e.pres = 0 → s.wc n = [x] → x.out = false → x.tgt = .dev (l.line.toNat * 256) → k = 0 →
      (∀ c, s.storesWaiting c = 0) →
      ∃ u, exec (.writeCombineDrain r k) s = .next u ∧ u.wc n = [] ∧ (u.lineNow l).1 = lineMerge (s.lineNow l).1 x.data x.mask)

/-! ### Memory stacks (08_memory_stacks.md) -/

/-- R212 to R217, Tables 8-2, 8-9: the answers of the base dies. RDAT ends the wait for the stack and brings poison, of which the newly
poisoned sectors are counted; WACK and MRSP free their tags, which the oldest request without one takes; ALERT counts errors,
and a lost relay or a fatal stack kills its port (cause 4 of the far one, 2). A module that fails leaves the group, and a request on
it goes out again on another; without a module both ports die (5). A request unanswered once is sent again after a retraining,
twice kills its port (1), or both ports when the near base die is silent (3). -/
def Obligations.StackAnswers : Prop :=
  ∀ (s : State) (mp : Fin 20) (tag : BitVec 10) (q : StackReq) (bad secs : BitVec 4) (line : Nat) (value : W64) (count : W32) (g m : Fin 10),
    let n := mp.val
    let p := s.mport n
    let near := n / 2 * 2
    let l : LineId := { host := false, line := BitVec.ofNat 56 line }
    let dies : State → Nat → Nat → Prop := fun u k cause =>
      (u.mport k).state = 3 ∧ (u.mport k).cause = BitVec.ofNat 4 cause ∧ (u.mport k).reqs = [] ∧ (u.mport k).ready = []
    (p.reqs = [q] → q.tag = tag.toNat →
      (p.ready = [] → q.op.reads = some (line, secs) → line < 2 ^ 56 → ∀ r x rest, s.home l = some r → s.txn r l = some x →
        x.waits = .stack n q.id :: rest → rest ≠ [] →
        ∃ u, exec (.rdat mp tag bad) s = .next u ∧ u.waitsAt r l = some (x.served, rest) ∧ (u.mport n).reqs = [] ∧
          u.stk.mem.lineBad line = s.stk.mem.lineBad line ||| (bad &&& secs) ∧
          (u.mport n).uncorr = satAdd p.uncorr (popc (bad &&& secs &&& ~~~(s.stk.mem.lineBad line)))) ∧
      (∀ mask pois data, q.op = .wr line mask pois data →
        (p.ready = [] → ∃ u, exec (.wack mp tag) s = .next u ∧ u.mport n = { p with reqs := [] } ∧ u.sent = s.sent ∧ u.stk.mem = s.stk.mem) ∧
        (∀ k op rest, p.ready = (k, op) :: rest → ∃ u at', exec (.wack mp tag) s = .next u ∧ (u.mport n).ready = rest ∧
          (u.mport n).reqs.map (fun z => (z.id, z.tag, z.op)) = [(k, 0, op)] ∧ u.sent = s.sent ++ [.stackReq n 0 at' op])) ∧
      (∀ reg wr v, q.op = .mnt reg wr v → p.ready = [] →
        (∃ u, exec (.mrsp mp tag value true) s = .next u ∧ u.mport n = { p with reqs := [], lastMnt := value } ∧ u.sent = s.sent) ∧
        (∃ u, exec (.mrsp mp tag value false) s = .next u ∧ u.mport n = { p with reqs := [] } ∧ u.sent = s.sent)) ∧
      (q.reissued = false →
        ∃ u at', exec (.memRspTimeoutExpiry mp tag) s = .next u ∧ u.sent = s.sent ++ [.stackReq n q.tag at' q.op] ∧
          (u.lg (n / 2)).retrains = satAdd (s.lg (n / 2)).retrains 1 ∧ (u.mport n).reqs.map (fun z => (z.tag, z.reissued)) = [(q.tag, true)]) ∧
      (q.reissued = true → p.state = 2 → cachesEmpty s →
        (s.baseSilent n q = false → ∃ u, exec (.memRspTimeoutExpiry mp tag) s = .next u ∧ dies u n 1) ∧
        (s.baseSilent n q = true → (s.mport near).state = 2 → (s.mport (near + 1)).state = 2 →
          ∃ u, exec (.memRspTimeoutExpiry mp tag) s = .next u ∧ dies u near 3 ∧ dies u (near + 1) 3))) ∧
    (p.state = 2 →
      exec (.alert mp .corrected count) s = .next ((s.setMport n { p with corr := satAdd p.corr count.toNat }).report 3 n 0 (count.setWidth 64)) ∧
      exec (.alert mp .uncorrectable count) s = .next ((s.setMport n { p with uncorr := satAdd p.uncorr count.toNat }).report 3 n 1 (count.setWidth 64)) ∧
      (cachesEmpty s → (s.map (n / 4)).lostLines = 0 →
        (∃ u, exec (.alert mp .stackFatal count) s = .next u ∧ dies u n 2 ∧
          u.sent = s.sent ++ [.fault { g := 3, u := BitVec.ofNat 16 n, k := 3 } 2 s.flt.oclk (BitVec.ofNat 64 (2 * 2 ^ 32))]) ∧
        ((s.mport (near + 1)).state = 2 → ∃ u, exec (.alert mp .relayLost count) s = .next u ∧ dies u (near + 1) 4))) ∧
    (let x := s.lg g.val
     let left := x.modules &&& ~~~(1#10 <<< m.val)
     s.domOn (11 + 9 * (g.val / 2) + g.val % 2) = true → x.modules.getLsbD m.val = true →
      (left ≠ 0 → (s.mport (2 * g.val + 1)).reqs = [] → (s.mport (2 * g.val)).reqs = [q] → q.modl = m.val →
        ∃ u at', exec (.ucieModuleFailure g m) s = .next u ∧ (u.lg g.val).modules = left ∧
          (u.lg g.val).retry = satAdd x.retry (s.freeVal.toNat % 2 ^ 32) ∧
          u.sent = s.sent ++ [.fault { g := 3, u := BitVec.ofNat 16 (20 + g.val), k := 2 } 2 s.flt.oclk (BitVec.ofNat 64 m.val),
                              .stackReq (2 * g.val) q.tag at' q.op]) ∧
      (left = 0 → cachesEmpty s → (s.mport (2 * g.val)).state = 2 → (s.mport (2 * g.val + 1)).state = 2 →
        ∃ u, exec (.ucieModuleFailure g m) s = .next u ∧ dies u (2 * g.val) 5 ∧ dies u (2 * g.val + 1) 5))

/-- R218 to R221, R225, R227; 09_host_port.md R243: while a group trains, modules that do not train leave service, and a step that runs
over its time excludes its ports (state 4, cause 7). When training ends, every port still in training is in service. While device
memory is active the map stays; at a start each region's map
is the ascending list of its ports in service unless it is under a dust sheet, spread mode holds when it was asked for and no
region is without a port, and device memory is active with the populated size. -/
def Obligations.TrainingBuildsTheMap : Prop :=
  ∀ (s : State) (g : Fin 10) (failed : BitVec 10) (far : Bool),
    let n := g.val
    let near := s.mport (2 * n)
    let far' := s.mport (2 * n + 1)
    let out : Port → Port := fun p => { p with state := 4, cause := 7 }
    ((s.lg n).training = true →
      ((s.lg n).modules &&& ~~~failed ≠ 0 →
        exec (.trainingStepTimeout g (.modules failed)) s = .next (s.setLg n { s.lg n with modules := (s.lg n).modules &&& ~~~failed })) ∧
      (near.state = 1 → far'.state = 1 →
        exec (.trainingStepTimeout g .baseDie) s = .next ((s.setMport (2 * n) (out near)).setMport (2 * n + 1) (out far')) ∧
        exec (.trainingStepTimeout g .relay) s = .next (s.setMport (2 * n + 1) (out far')) ∧
        exec (.trainingStepTimeout g (.dram far)) s =
          .next (if far then s.setMport (2 * n + 1) (out far') else s.setMport (2 * n) (out near)))) ∧
    (s.hpt.memActive = true → s.rst.phase = .none →
      ∃ u, exec .memoryMapBuild s = .next u ∧ u.stk.mem = s.stk.mem ∧ u.hpt = s.hpt ∧ (∀ r < 5, u.map r = s.map r) ∧
        (∀ k < 10, (u.lg k).training = false) ∧ ∀ p < 20, (u.mport p).state = if (s.mport p).state = 1 then 2 else (s.mport p).state) ∧
    (s.hpt.memActive = false → (s.rst.phase = .none ∨ s.rst.phase = .start) →
      let up : Nat → Bool := fun p => decide ((s.mport p).state = 1 ∨ (s.mport p).state = 2)
      let ports : Nat → List Nat := fun r => if s.regionDust r then [] else (List.range 4).filter (fun j => up (4 * r + j))
      ∃ u, exec .memoryMapBuild s = .next u ∧ u.hpt.memActive = true ∧ u.hpt.infoValid = true ∧
        (∀ p < 20, (u.mport p).state = if (s.mport p).state = 1 then 2 else (s.mport p).state) ∧
        (∀ k < 10, (u.lg k).training = false) ∧
        (∀ r < 5, (u.map r).ports = ports r ∧ (u.map r).spread = (s.pwr.askSpread && (List.range 5).all (fun k => decide (ports k ≠ [])))) ∧
        u.hpt.range1 = BitVec.ofNat 64 (((List.range 5).map (fun r => (ports r).length * (48 * 2 ^ 30))).sum))

/-! ### The host port (09_host_port.md) -/

/-- R230, R231, R251, R252, R258 to R262, Table 9-11: the host link. Training records rate, widths and format, and withholds CXL below 32
GT/s or x8; a recovery is counted; L0p goes back to the trained width when a direction is busy and halves it, down to x4, when both are
idle; L1 is requested when nothing is outstanding. Loss of the link, or a hot reset, begins HOST_LOST: every region walks for the dead
host, event 408 arrives, and the host port is at its defaults. Its clear, with the link up, ends it, and host memory is unknown.
R232, R234 to R236, R242, R245, R247, R250, R254, R256, R257, Tables 9-4, 9-9, 9-10; 17_power_clocks_startup.md R463: configuration. The space
answers with the device's ID and serial number, takes BAR0's address, or has the host retry; a decoder commits within its limits, and
errs without BI Enable, whose loss makes committed ones stale; the cache walk empties host sectors, and clearing Cache_Enable ends
host translations too. A read of the device ends with its data, or without it. An FLR resets the front-end, translation
and events, and keeps device memory; D3hot and D0 change the power state only, but for compute domains that may be gated. -/
def Obligations.HostLinkAndConfiguration : Prop :=
  (∀ (s : State) (rate : BitVec 3) (width : BitVec 5) (flit : BitVec 2) (up down : Byte) (waited : Bool),
    let l := s.hpt.link
    let trained := bits l 13 9
    let now := bits l 18 14
    (s.domOn 2 = true → s.rst.perstHigh = true →
      ∃ u, exec (.hostLinkTrainingComplete rate width flit) s = .next u ∧ u.hpt.linkUp = true ∧
        bits u.hpt.link 18 14 = width.toNat ∧ bits u.hpt.link 13 9 = width.toNat ∧ bits u.hpt.link 8 6 = rate.toNat ∧
        bits u.hpt.link 5 4 = flit.toNat ∧ bit u.hpt.link 0 = (bit l 0 || decide (rate.toNat < 4) || decide (width.toNat < 8))) ∧
    (s.hpt.linkUp = true →
      (∃ u, exec .linkRecovery s = .next u ∧ bits u.hpt.link 31 24 = Nat.min 255 (bits l 31 24 + 1) ∧ bits u.hpt.link 23 0 = bits l 23 0) ∧
      (bit s.hpt.cfg.dev3ctl 3 = true → bit s.hpt.lpm 2 = true → 2 ≤ bits l 5 4 →
        (waited = true ∨ up.toNat > 50 ∨ down.toNat > 50 → ∃ u, exec (.l0pWindowExpiry up down waited) s = .next u ∧
          bits u.hpt.link 18 14 = trained ∧ u.sent = s.sent ++ (if trained = now then [] else [.l0p trained])) ∧
        (waited = false → up.toNat < Nat.min 50 (bits s.hpt.lpm 15 8) → down.toNat < Nat.min 50 (bits s.hpt.lpm 15 8) → 8 ≤ now →
          ∃ u, exec (.l0pWindowExpiry up down waited) s = .next u ∧ bits u.hpt.link 18 14 = now / 2 ∧ u.sent = s.sent ++ [.l0p (now / 2)])) ∧
      (bit s.hpt.cfg.linkctl 1 = true → bit s.hpt.lpm 1 = true → s.hostIdle = true → exec (.l1IdleExpiry true) s = .next (s.emit .l1))) ∧
    (s.hpt.hostLost = false → s.hpt.reads = [] → s.xlt.ats = [] → s.xlt.pri = [] → s.que.que = [] → collIdle s →
      (∀ r, (s.rc r).txns = []) → (∀ b t, (s.thr b t).accs = []) →
      let lost : State → Prop := fun u =>
        u.hpt.hostLost = true ∧ u.hpt.linkUp = false ∧ u.hpt.cfg.command = 0x400 ∧ u.hpt.hdm = [] ∧ u.hpt.biEnable = false ∧
          (∀ r < 5, (u.rc r).hostDead = true) ∧ .event 408 ∈ u.sent ∧ (∀ r < 5, s.regionDust r = false → .host ∈ (u.rc r).reclaims) ∧
          u.stk = s.stk ∧ u.hpt.mem = s.hpt.mem
      (s.hpt.linkUp = true → ∃ u, exec .linkDown s = .next u ∧ lost u) ∧
      (s.domOn 2 = true → s.rst.perstHigh = true → ∃ u, exec .hotReset s = .next u ∧ lost u)) ∧
    (writeTaken s 2 0x8000 → s.hpt.linkUp = true → s.hpt.hostLost = true → s.evt.pending = 0 →
      (∀ r < 5, (s.rc r).reclaims = []) →
      ∃ u, exec .hostLostClear s = .next u ∧ u.hpt.hostLost = false ∧ (∀ r < 5, (u.rc r).hostDead = false) ∧
        u.hpt.mem = { era := s.hpt.mem.era + 1, cells := [], pois := [] } ∧ u.sent = s.sent)) ∧
  (∀ (s : State) (d : W32) (n : Fin 4) (base size skip : W64) (ways : BitVec 4) (gran : W16) (r : Nat) (l : LineId) (e : RLine)
    (tag : BitVec 14) (rd : IoRead) (bs : List Byte) (p : Piece) (k q slot off at' : Nat),
    (s.cfgServes = true →
      exec (.configRequest false 0 4 d) s = .next (s.emit (.cfgDone 0x9620D2A9)) ∧
      exec (.configRequest false 0x158 4 d) s = .next (s.emit (.cfgDone (s.idn.fuses.dsn.extractLsb' 32 32))) ∧
      (∃ u, exec (.configRequest true 0x14 4 d) s = .next u ∧ u.hpt.cfg.bar0 = d ++ s.hpt.cfg.bar0.setWidth 32) ∧
      (s.hpt.d3hot = false → cachesEmpty s → ∃ u, exec .d3hotEntry s = .next u ∧ u.hpt.d3hot = true ∧ bits u.hpt.cfg.pmcsr 1 0 = 3 ∧
        u.stk = s.stk ∧ ∀ i < 50, s.gateable i = true → (u.dom i).state = .gated) ∧
      (s.hpt.d3hot = true → exec .d0Entry s = .next { s with hpt := { s.hpt with
        d3hot := false, cfg := { s.hpt.cfg with pmcsr := setBits s.hpt.cfg.pmcsr 1 0 0 } } }) ∧
      ((∀ x ∈ s.que.que, (s.q x.1).cmds = []) → s.xlt.pri = [] → exec .initiateFlr s = .next { s with hpt := { s.hpt with flr := true } }) ∧
      (r < 5 → l.host = true → e.host = true → (s.rc r).lines = [(lkey l, some e)] → (∀ m, m ≠ r → (s.rc m).lines = []) → s.regionDust r = false →
        (∀ b, s.bline b l = none) → (∀ m, (s.rc m).resv = []) → (s.rc r).txns = [] → e.own = none → e.pres = 0 →
        (∃ u, exec .cacheWritebackInvalidate s = .next u ∧ u.hpt.cacheInvalid = true ∧ u.rline r l = none ∧
          ∀ i < 4, e.dirty.getLsbD i = true → ∃ data, .d2h .dirtyEvict (l.line.toNat * 256 + 64 * i) 0 data ∈ u.sent) ∧
        (s.cacheEnable = true → ∃ u, exec .cacheEnableClear s = .next u ∧ u.cacheEnable = false ∧ u.rline r l = none ∧
          ∀ m ∈ u.xlt.tlb, ∀ x ∈ m.2, ∀ h, x.tgt ≠ .host h))) ∧
    (s.domOn 2 = true → s.hpt.linkUp = true → (s.hpt.cfg.ready = false ∨ s.hpt.flr = true) →
      exec (.configRequest false 0 4 d) s = .next (s.emit .cfgRetry)) ∧
    (writeTaken s 2 (0x1310 + 32 * n.val) →
      (s.hpt.biEnable = true → hdmLegal base size ways gran = true → (∀ i, i ≠ n.val → (s.hdm i).committed = false) →
        (∀ i < n.val, (s.hdm i).committed = false) → skip.toNat + size.toNat / ways.toNat ≤ s.popEnd →
        ∃ u, exec (.hdmDecoderCommit n base size ways gran skip) s = .next u ∧
          u.hdm n.val = { base := base, size := size, ways := ways, gran := gran, skip := skip, committed := true, err := false,
                          stale := false, dpa := skip.toNat }) ∧
      (s.hpt.biEnable = false → ∃ u, exec (.hdmDecoderCommit n base size ways gran skip) s = .next u ∧
        (u.hdm n.val).committed = false ∧ (u.hdm n.val).err = true)) ∧
    (writeTaken s 2 0x1404 → s.hpt.biEnable = true → ∃ u, exec .biEnableClear s = .next u ∧ u.hpt.biEnable = false ∧
      ∀ i < 4, (u.hdm i).stale = ((s.hdm i).committed || (s.hdm i).stale)) ∧
    (s.hpt.reads = [rd] → rd.tag = tag.toNat → rd.why = .copy k q slot off at' → (s.eng k).pieces = [p] → p.q = q → p.slot = slot → p.off = off →
      (bs.length = rd.len → ∃ u x, exec (.cxlIoCompletion tag true bs) s = .next u ∧ u.hpt.reads = [] ∧ (u.eng k).pieces = [x] ∧
        x.left = p.left - 1 ∧ x.bad = p.bad ∧ ∀ i < bs.length, Tab.get 0 x.buf (at' + i) = bs.getD i 0) ∧
      (bit s.hpt.cfg.devctl2 4 = false → p.bad = none → ∃ u x, exec (.completionTimeout tag) s = .next u ∧ u.hpt.reads = [] ∧
        bit u.hpt.cfg.aerUnc 14 = true ∧ (u.eng k).pieces = [x] ∧ x.bad.map (fun z => z.1) = some 9)) ∧
    (s.hpt.flr = true → s.que.que = [] → s.xlt.pri = [] → s.xlt.ats = [] → (∀ m, s.wc m = [] ∧ (s.rc m).txns = []) →
      ∃ u, exec .flrComplete s = .next u ∧ u.hpt.flr = false ∧ u.hpt.reads = [] ∧ u.evt = Events.init ∧ u.xlt = { Xlt.init with devnum := s.xlt.devnum } ∧
        u.hpt.cfg.command = 0x400 ∧ u.hpt.cfg.cxlctl = s.hpt.cfg.cxlctl ∧ u.idn.spdm = .none ∧
        u.flt.last.head?.map (fun x => (bits x 3 0, bits x 223 192)) = some (8, 5)))


/-! ### Translation (10_translation.md) -/

/-- R268 to R270, R273, R280 to R282, Tables 10-4, 10-8; R279: the host's translation enters the unit that asked, and the thread that
waited looks up again; an error, no permission, or a refused or unanswered page request tells it why (9, 1, 3, 4). A failed
page request stops the interface; an unanswered one keeps its index. An invalidation takes the matching entries out and completes once no
access uses them; the driver's takes only mirror-derived entries, and is refused while one runs. XLT_GCTL takes a
value while no queue runs, when the aperture ends within 2^47. -/
def Obligations.TranslationCommands : Prop :=
  ∀ (s : State) (pasid : BitVec 20) (va hpa start len v : W64) (w glob : Bool) (idx : Fin 512) (r : AtsReq) (p : PageReq) (b t : Nat),
    let waits : Prop := (s.thr b t).stat = .pageWait
    let no : W64 → Nat → AtsNo := fun page cause => { who := .thread b t, pasid := pasid, page := page, cause := BitVec.ofNat 4 cause }
    let told : State → W64 → Nat → Prop := fun u page cause =>
      (u.thr b t).stat = .ready ∧ u.xlt.refusedPages = s.xlt.refusedPages ++ [no page cause]
    let gone : State → (Tlb → Bool) → Prop := fun u f => ∀ m ∈ u.xlt.tlb ++ u.xlt.micro, ∀ x ∈ m.2, f x = false
    (s.xlt.ats = [r] → r.pasid = pasid → r.page = pageOf va → r.waiters = [.thread b t] → waits → collIdle s → s.hpt.hostLost = false →
      (r.stale = false → s.cacheEnable = true → s.ownHdm (hpa.toNat / 4096 * 4096 + va.toNat % 4096) = false →
        ∃ u, exec (.atsTranslationCompletion pasid va true false true w 12 hpa) s = .next u ∧ u.xlt.ats = [] ∧ (u.thr b t).stat = .ready ∧
          ∃ x, x ∈ Tab.get [] u.xlt.tlb (512 * r.unit + tlbSet (pageOf va) 12) ∧ x.hits pasid va = true ∧ x.w = w ∧
            x.target va = .host (hpa.toNat / 4096 * 4096 + va.toNat % 4096)) ∧
      (r.stale = false → ∃ u, exec (.atsTranslationCompletion pasid va false false true w 12 hpa) s = .next u ∧ told u r.page 9) ∧
      (r.stale = false → ∃ u, exec (.atsTranslationCompletion pasid va true true true w 12 hpa) s = .next u ∧ told u r.page 1) ∧
      (r.stale = true → ∃ u, exec (.atsTranslationCompletion pasid va true false true w 12 hpa) s = .next u ∧
        (u.thr b t).stat = .ready ∧ u.xlt.tlb = s.xlt.tlb)) ∧
    (s.xlt.pri = [p] → p.idx = idx.val → p.pasid = pasid → p.waiters = [.thread b t] → waits → collIdle s →
      (∃ u, exec (.pageRequestResponse idx .success) s = .next u ∧ u.xlt.pri = [] ∧ (u.thr b t).stat = .ready ∧
        u.xlt.refusedPages = s.xlt.refusedPages) ∧
      (∃ u, exec (.pageRequestResponse idx .invalid) s = .next u ∧ u.xlt.pri = [] ∧ told u p.page 3 ∧ u.hpt = s.hpt) ∧
      (∃ u, exec (.pageRequestResponse idx .failure) s = .next u ∧ u.xlt.pri = [] ∧ told u p.page 3 ∧
        u.hpt.cfg.pristatus = s.hpt.cfg.pristatus ||| 0x101) ∧
      (s.xlt.burnt = [] → ∃ u, exec (.priTimeout idx) s = .next u ∧ u.xlt.pri = [] ∧ told u p.page 4 ∧ u.xlt.burnt = [idx.val])) ∧
    (s.xlt.invs = [] → ∃ u i, exec (.atsInvalidateRequest pasid glob start len) s = .next u ∧ u.xlt.invs = [i] ∧
      gone u (fun x => (glob || decide (x.pasid = pasid)) && x.meets start.toNat len.toNat)) ∧
    (∀ i rest, s.hpt.flr = false → s.xlt.invs = i :: rest → (∀ x ∈ i.uses, s.useOver x = true) →
      exec (.invalidationComplete true) s = .next (State.emit { s with xlt := { s.xlt with invs := rest } } .invDone)) ∧
    (∀ us, s.xlt.mirrorInv = some us → (∀ x ∈ us, s.useOver x = true) →
      exec (.invalidationComplete false) s = .next { s with xlt := { s.xlt with mirrorInv := none } }) ∧
    (writeTaken s 3 0x310028 →
      (s.xlt.mirrorInv = none →
        (∃ u, exec (.xltInvRange pasid) s = .next u ∧ u.xlt.mirrorInv.isSome = true ∧ u.xlt.ctx = s.xlt.ctx ∧
          gone u (fun x => x.mirror && decide (x.pasid = pasid) &&
            x.meets (bits s.xlt.invAddr 47 21 * 2 ^ 21) ((bits s.xlt.invAddr 20 0 + 1) * 2 ^ 21))) ∧
        (∃ u, exec (.xltInvPasid pasid) s = .next u ∧ gone u (fun x => x.mirror && decide (x.pasid = pasid)) ∧
          ∀ c ∈ u.xlt.ctx, c.2.1 ≠ pasid) ∧
        (∃ u, exec (.xltInvAll pasid) s = .next u ∧ gone u (fun x => x.mirror) ∧ u.xlt.ctx = [])) ∧
      (s.xlt.mirrorInv.isSome = true → exec (.xltInvAll pasid) s = .next { s with xlt := { s.xlt with refusals := s.xlt.refusals ||| 2 } })) ∧
    (writeTaken s 3 0x310000 → s.anyRuns = false →
      (bits v 49 32 * 2 ^ 30 + 960 * 2 ^ 30 ≤ 2 ^ 47 →
        exec (.xltGctlWrite v) s = .next { s with xlt := { s.xlt with gctl := v &&& 0x0003FFFF0FFFFF01 } }) ∧
      (bits v 49 32 * 2 ^ 30 + 960 * 2 ^ 30 > 2 ^ 47 →
        exec (.xltGctlWrite v) s = .next { s with xlt := { s.xlt with refusals := s.xlt.refusals ||| 1 } }))

/-! ### Work queues and copies (11_queues_and_copy.md) -/

/-- R286 to R288, R293, R294, R302, Tables 11-5, 11-8: a doorbell gives a queue its producer index, or stops it with DB_ERR when the index lies
beyond the ring. A fetch takes a descriptor of the queue's phase from device memory and moves on, the phase turning at the ring's
end; from host memory it sends a read; a slot of the old phase is read again, and the last re-read stops the queue as STALE. ENABLE,
QUIESCE, ABORT and RESET move the state, or set CMD_REFUSED; a drained queue is QUIESCED, or runs when ENABLE was latched. -/
def Obligations.QueuesFetchAndObey : Prop :=
  ∀ (s : State) (q : Fin 1024) (pi : W32) (v : Nat) (c : Cmd),
    let n := q.val
    let x := s.q n
    let gives : Queue → Host.Outcome State Fault Refusal := fun y => .next (s.setQ n y)
    let d : BitVec 512 := BitVec.ofNat 512 v
    let last := decide (x.rereads + 1 ≥ staleReads s.que.staleWait.toNat)
    let stale : Queue := if last then { x with rereads := 0, state := .stopped, bits := setBit x.bits 0 true }
      else { x with rereads := x.rereads + 1 }
    (s.hpt.flr = false → s.domOn 2 = true →
      (pi.toNat % 2 ^ 16 < x.size → exec (.queDoorbell q pi) s = gives { x with pi := pi.setWidth 16 }) ∧
      (x.size ≤ pi.toNat % 2 ^ 16 →
        exec (.queDoorbell q pi) s = gives { x with state := .stopped, bits := setBit x.bits 3 true })) ∧
    (s.fetches n = true → x.ringHost = false → s.tableRead (x.slotAddr x.ci.toNat) 64 = some v →
      (bit d 7 = x.phase → x.rereads = 0 → ∃ u c, exec (.descriptorFetch q) s = .next u ∧ c.desc = d ∧ c.slot = x.ci.toNat ∧ c.stat = .waiting ∧
        u = s.setQ n { x with ci := if x.ci.toNat + 1 = x.size then 0 else x.ci + 1,
                              phase := if x.ci.toNat + 1 = x.size then !x.phase else x.phase, cmds := x.cmds ++ [c] }) ∧
      (bit d 7 ≠ x.phase →
        (x.rereads = 0 → exec (.descriptorFetch q) s = gives stale) ∧ (x.rereads ≠ 0 → exec (.staleReread q) s = gives stale))) ∧
    (s.fetches n = true → x.ringHost = true → x.rereads = 0 → s.hpt.hostLost = false → s.busMaster = true → s.hpt.reads = [] →
      s.hpt.nextTag < 2 ^ 10 → ∃ u ro, exec (.descriptorFetch q) s = .next u ∧ u.sent = s.sent ++ [.mrd s.hpt.nextTag (x.slotAddr x.ci.toNat) 64 ro] ∧
        u.hpt.reads.map (fun y => (y.tag, y.len, y.why)) = [(s.hpt.nextTag, 64, .descriptor n)] ∧ u.q n = x) ∧
    (writeTaken s 2 (0x201018 + 64 * n) →
      (s.mail.fw = .running → (x.state = .disabled ∨ x.state = .quiesced) → exec (.queCtlEnable q) s = gives { x with state := .running }) ∧
      (s.mail.fw = .running → x.state = .quiescing → exec (.queCtlEnable q) s = gives { x with bits := setBit x.bits 4 true }) ∧
      (s.mail.fw = .running → x.state = .stopped → bit x.bits 1 = false →
        ∃ u, exec (.queCtlEnable q) s = .next u ∧ (u.q n).state = .running ∧ bit (u.q n).bits 0 = false ∧ bit (u.q n).bits 2 = false ∧
          bit (u.q n).bits 3 = false) ∧
      (s.mail.fw ≠ .running → exec (.queCtlEnable q) s = gives { x with bits := setBit x.bits 5 true }) ∧
      (x.state = .running → exec (.queCtlQuiesce q) s = gives { x with state := .quiescing }) ∧
      (x.state ≠ .running → exec (.queCtlQuiesce q) s = gives { x with bits := setBit x.bits 5 true }) ∧
      (x.state = .running → x.cmds = [c] → c.stat = .running → c.op = 5 → c.first = none →
        exec (.queCtlAbort q) s = gives { x with state := .quiescing, cmds := [{ c with stat := .done 10 0 }] }) ∧
      ((x.state = .disabled ∨ x.state = .quiesced ∨ x.state = .stopped) → x.cmds = [] → ∃ u, exec (.queCtlReset q) s = .next u ∧
        u.q n = { x with ci := 0, pi := 0, phase := true, bits := 0, rereads := 0, state := .disabled }) ∧
      (x.state = .running → exec (.queCtlReset q) s = gives { x with bits := setBit x.bits 5 true })) ∧
    (x.state = .quiescing → (∀ c ∈ x.cmds, c.stat = .waiting) → exec (.quiesceDrainComplete q) s =
      gives (if bit x.bits 4 then { x with state := .running, bits := setBit x.bits 4 false } else { x with state := .quiesced }))

/-- R289 to R292, R296, R297, R299, Tables 11-2, 11-3; 04_blocks_and_threads.md R100: the commands that the front-end runs itself, each alone in its
queue. NOP ends with OK; KLAUNCH launches the kernel that its descriptor gives; on a line at rest at its home SIGNAL adds its
value to the semaphore or leaves the greater of the two, and WAIT ends when the semaphore meets its condition and else runs on; a WAIT on
a line that no cache holds waits for the stack; its timeout ends it with TIMEOUT and the value last read; FLUSH writes a dirty line in
its range back. A SIGNAL completes once its answer has come and a FLUSH once its write-backs stand. A command that has ended writes its
16-byte record to the completion ring and leaves the queue, which stops with ERROR unless the status is OK or ABORTED. -/
def Obligations.QueueCommandsRun : Prop :=
  ∀ (s : State) (q : Fin 1024) (slot : W16) (c : Cmd) (o r : Nat) (y : Xlt) (e : RLine) (st : Byte) (info : W64),
    let n := q.val
    let x := s.q n
    let old : W64 := BitVec.ofNat 64 (leVal (s.cohRead false o 8))
    let cond := bits c.desc 257 256
    let meets := if cond = 0 then decide (c.semValue.toNat ≤ old.toNat) else if cond = 1 then decide (old = c.semValue) else decide (old ≠ c.semValue)
    let ran := (s.served n).runCmd n slot.toNat
    let there : State → Bool → Prop := fun z w => semPlace z n c w = some (.dev o, y) ∧ o < 2 ^ 46 ∧ o % 8 = 0 ∧ s.cohBad false o 8 = false ∧
      s.deadDev o = none
    let sem : State → Bool → Prop := fun z w => there z w ∧ atRest s r (lineFor false o) e ∧ e.own = none ∧ e.pres = 0
    let looks : Instr → Prop := fun w => ∃ u, exec w s = .next u ∧ u.stk.mem = s.stk.mem ∧
      (u.q n).cmds.map (fun k => (k.stat, k.val, k.read)) = [(if meets then .done 0 0 else .running, old, true)]
    (Starts s n slot.toNat 0 c → exec (.nopCommand q slot) s = .next ((s.served n).oneCmd n { c with stat := .done 0 0 })) ∧
    (Starts s n slot.toNat 1 c → (∀ k ∈ s.blocks.kernels, ¬(k.q = n ∧ k.slot = slot.toNat)) →
      ∃ u k, exec (.klaunch q slot) s = .next u ∧ u.blocks.kernels = s.blocks.kernels ++ [k] ∧ (u.q n).cmds = [{ c with stat := .running }] ∧
        k.q = n ∧ k.slot = slot.toNat ∧ k.prog.toNat = bits c.desc 191 128 ∧ k.args.toNat = bits c.desc 255 192 ∧ k.gx = bits c.desc 271 256 + 1 ∧
        k.gy = bits c.desc 287 272 + 1 ∧ k.gz = bits c.desc 303 288 + 1 ∧ k.threads = bits c.desc 310 304 + 1 ∧ k.pasid = x.pasid ∧
        k.next = 0 ∧ k.blocks = []) ∧
    (Starts s n slot.toNat 4 c → sem ran true → ∃ u, exec (.signal q slot) s = .next u ∧
      (u.q n).cmds = [{ c with stat := .running, left := 0, asked := true, val := old }] ∧
      BitVec.ofNat 64 (leVal (u.cohRead false o 8)) =
        (if bit c.desc 256 then (if c.semValue.toNat ≤ old.toNat then old else c.semValue) else old + c.semValue)) ∧
    (Starts s n slot.toNat 5 c → (sem ran false → looks (.wait q slot)) ∧
      (there ran false → uncached s o → ∃ u, exec (.wait q slot) s = .next u ∧
        (u.q n).cmds.map (fun k => (k.stat, k.left, k.asked)) = [(.running, 1, true)])) ∧
    (x.cmds = [c] → c.slot = slot.toNat → c.op = 5 → c.stat = .running → c.first = none → s.hpt.flr = false →
      (c.asked = false → sem s false → looks (.waitReread q slot)) ∧
      (c.asked = true → c.left = 0 → exec (.waitReread q slot) s = .next (s.oneCmd n { c with
        read := true, asked := false, stat := if semMeets cond c.val c.semValue then .done 0 0 else .running }))) ∧
    (x.cmds = [c] → c.slot = slot.toNat → c.op = 5 → c.stat = .running → c.first = none → bits c.desc 319 288 ≠ 0 →
      (c.read = true → exec (.waitTimeout q slot) s = .next (s.oneCmd n { c with stat := .done 6 c.val })) ∧
      (c.read = false → exec (.waitTimeout q slot) s =
        .next (State.took (s.oneCmd n { c with stat := .done 6 s.freeVal }) 1))) ∧
    (Starts s n slot.toNat 6 c →
      (bits c.desc 135 128 = 0 → exec (.flush q slot) s = .next ((s.served n).oneCmd n { c with stat := .running })) ∧
      (bits c.desc 135 128 = 1 → c.inRange (o / 256) = true → o < 2 ^ 46 → r < 5 → (s.rc r).lines = [(lkey (lineFor false o), some e)] →
        (∀ k, k ≠ r → (s.rc k).lines = []) → e.dirOnly = false → e.own = none → e.dirty ≠ 0 → s.home (lineFor false o) = some r →
        s.deadDev (o / 256 * 256) = none →
          ∃ u, exec (.flush q slot) s = .next u ∧ (u.q n).cmds = [{ c with stat := .running }] ∧
            u.rline r (lineFor false o) = some { e with dirty := 0 } ∧
            u.stk.mem = s.stk.mem.putLine (o / 256) (secMask e.dirty) e.data e.pois)) ∧
    (x.cmds = [c] → c.slot = slot.toNat → c.stat = .running → c.first = none → s.hpt.flr = false →
      (c.op = 4 ∧ c.asked = true ∧ c.left = 0 ∨ c.op = 6 ∧ s.flushDone c = true) → x.cplHost = false → bit c.desc 10 = false →
      bit c.desc 9 = false → ∃ u, exec (.commandCompletion q slot) s = .next u ∧ (u.q n) = { x with cmds := [] }) ∧
    (x.cmds = [c] → c.slot = slot.toNat → c.op = 4 → c.stat = .running → c.asked = true → 0 < c.left →
      exec (.commandCompletion q slot) s = .next s) ∧
    (x.cmds = [c] → c.slot = slot.toNat → c.op ≠ 1 → c.stat = .done st info → c.recorded = false → s.hpt.flr = false → x.cplHost = false →
      bit c.desc 10 = false → uncached s (x.cplAddr c.slot) → x.cplAddr c.slot % 256 + 16 ≤ 256 → bit c.desc 9 = false →
        (st = 0 → ∃ u, exec (.commandCompletion q slot) s = .next u ∧ (u.q n) = { x with cmds := [] } ∧
          (∀ m ∈ u.sent, m ∈ s.sent ∨ ∃ mp tag at' op, m = .stackReq mp tag at' op) ∧
          u.cohRead false (x.cplAddr c.slot) 16 = leBytes 4 (bits c.desc 63 32) ++ leBytes 1 (bits c.desc 7 0) ++ leBytes 1 0 ++
            leBytes 2 c.slot ++ leBytes 8 info.toNat) ∧
        (st ≠ 0 → ∃ u, exec (.commandCompletion q slot) s = .next u ∧ (u.q n).cmds = [] ∧
          (u.q n).state = (if st = 10 then x.state else .stopped) ∧ bit (u.q n).bits 2 = (bit x.bits 2 || decide (st ≠ 10)) ∧
          u.flt.last.head?.map (fun z => bits z 3 0) = some 12))

/-- R300, R301, R303 to R305, R198, Table 11-2: MODESET registers its change while none runs, and else waits; a block in scope that no kernel
holds applies the mode and acknowledges; the commit puts the mode in force and ends the command; a block that stays silent is
placed under a dust sheet, and its region's spine weight is one less, 1 at the least (01_architecture.md R18). COPY and ZERO_RANGE hand a
piece to the first of their engines, and the oldest piece of an engine goes on: its source in host memory is asked for, zeros and
data that are here stand at a device destination, and the command counts the piece off. -/
def Obligations.ModesetsAndCopies : Prop :=
  ∀ (s : State) (q : Fin 1024) (slot : W16) (c : Cmd) (b : Fin 100) (m : ModeSet) (e : Fin 16) (es : List Nat) (p : Piece) (o : Nat) (t : State)
    (x : Queue),
    let n := q.val
    let near : Target → Bool := fun g => match g with | .dev _ => true | _ => false
    (Starts s n slot.toNat 8 c →
      (s.que.modeset = none → ∃ u k, exec (.modeset q slot) s = .next u ∧ u.que.modeset = some k ∧ k.q = n ∧ k.slot = slot.toNat ∧
        k.mode.toNat = bits c.desc 135 128 ∧ k.scope.toNat = bits c.desc 164 160 ∧ k.acked = [] ∧ k.lost = [] ∧ u.pwr.transition = true ∧
        u.pwr.scope = k.scope ∧ (u.q n).cmds = [{ c with stat := .running }])) ∧
    ((s.q n).cmds = [c] → c.slot = slot.toNat → c.op = 8 → s.que.modeset.isSome = true → exec (.modeset q slot) s = .next s) ∧
    (s.que.modeset = some m → s.owesAck m b.val = true →
      (s.outOfService b.val = false → s.heldBy (regionOf b.val) = false → (s.blk b.val).task = none →
        ∃ u, exec (.modesetAcknowledge b) s = .next u ∧ (u.blk b.val).mode = m.mode ∧ u.que.modeset = some { m with acked := m.acked ++ [b.val] }) ∧
      (s.outOfService b.val = true →
        exec (.modesetAcknowledge b) s = .next { s with que := { s.que with modeset := some { m with acked := m.acked ++ [b.val] } } }) ∧
      (s.outOfService b.val = false → s.heldBy (regionOf b.val) = false → cachesEmpty s → (s.blk b.val).task = none →
        (s.blk b.val).reserved = none → ∃ u, exec (.modesetAckTimeout b) s = .next u ∧ u.blockDust b.val = true ∧ (u.blk b.val).state = .dustsheet ∧
          ∀ r < 5, u.spineWeight r = if r = regionOf b.val ∧ 2 ≤ s.spineWeight r then s.spineWeight r - 1 else s.spineWeight r)) ∧
    (s.que.modeset = some m → s.allAcked m = true → m.lost = [] → (s.q m.q).cmds = [c] → c.slot = m.slot → c.first = none →
      ∃ u, exec .modesetCommit s = .next u ∧ u.que.modeset = none ∧ u.pwr.transition = false ∧ (u.q m.q).cmds = [{ c with stat := .done 0 0 }] ∧
        (∀ r < 5, u.modeOf r = if m.scope.getLsbD r then m.mode else s.modeOf r) ∧
        ∀ k < 100, (s.blk k).reserved = none → m.scope.getLsbD (regionOf k) = true → (u.blk k).mode = m.mode) ∧
    (∀ op, (op = 2 ∨ op = 9) → Starts s n slot.toNat op c → c.val = 0 → c.left = 0 → c.near = none → ∀ g,
      ((s.served n).runCmd n slot.toNat).translate (queWant n c.slot (s.q n).pasid c.dst true c.tries) = .ok g t →
      s.engSet (near g) = e.val :: es → (∀ k, (s.eng k).pieces = []) → 0 < c.total → (c.piece n (s.q n).pasid 0).len = c.total →
        ∃ u, exec (if op = 2 then .copy q slot else .zeroRange q slot) s = .next u ∧ (u.eng e.val).pieces = [c.piece n (s.q n).pasid 0] ∧
          (u.q n).cmds = [{ c with stat := .running, near := some (near g), tries := 0, val := BitVec.ofNat 64 c.total, left := 1 }]) ∧
    (s.engServes e.val = true → (s.eng e.val).pieces = [p] → p.left = 0 → p.bad = none → s.que.que = [(p.q, x)] → x.cmds = [c] → c.slot = p.slot →
      (p.stage = 0 → p.zero = false → rangeTargets (pieceWant e.val p false) (pagesOf p.src p.srcLen) [] s = .all [(0, p.srcLen, .host o)] t →
        s.hpt.hostLost = false → s.busMaster = true → s.hpt.flr = false → s.hpt.reads = [] → s.hpt.nextTag < 2 ^ 10 →
        s.readParts o p.srcLen = [(o, p.srcLen, 0)] →
          ∃ u ro, exec (.copyPieceComplete e) s = .next u ∧ u.sent = s.sent ++ [.mrd s.hpt.nextTag o p.srcLen ro] ∧
            (u.eng e.val).pieces = [{ p with stage := 1, tries := 0, left := 1 }]) ∧
      ((p.stage = 1 ∨ p.stage = 0 ∧ p.zero = true) → p.cvt = none → rangeTargets (pieceWant e.val p true) [(p.dst, 0, p.len)] [] s = .all [(0, p.len, .dev o)] t →
        uncached s o → (∀ r, (s.rc r).lines = []) → 1 ≤ p.len → o % 256 + p.len ≤ 256 → c.total ≤ c.val.toNat → c.first = none →
        (p.zero = false → p.spoilt = [] ∧ ∀ k < p.len, c.writes (c.srcAt p.off + BitVec.ofNat 64 k) = false) →
          ∃ u, exec (.copyPieceComplete e) s = .next u ∧ (u.eng e.val).pieces = [] ∧ (u.eng e.val).bytes = satAdd (s.eng e.val).bytes p.len ∧
            (u.q p.q).cmds.map (fun k => (k.slot, k.left, k.first)) = [(c.slot, c.left - 1, none)] ∧
            ∀ k < p.len, u.cohRead false (o + k) 1 = [if p.zero then 0 else Tab.get 0 p.buf k]))

/-! ### The network (12_umakin_transport.md) -/

/-- R327, R330, R331, R334 to R337, R344, Tables 12-4, 12-5, 12-8: arriving packets. The next packet of a queue pair is performed, counted in CUM and
acknowledged: a WRITE stands at its home or is refused with the status of the checks; a READ_REQ sends its data back, an ATOMIC is
performed and sends the old value back; READ_RESP and ATOMIC_RESP bring a waiting semaphore its value, or the refusal; a SEND fills
its message's buffer and a NOTIFY of an explicit pair writes its record. A duplicate is acknowledged and not performed; with EN 0 every packet is
dropped. UMT_ACK ends what it covers, refuses what it names, and has a packet lost on a path sent again. -/
def Obligations.NetReceive : Prop :=
  ∀ (s : State) (p : Pkt) (o k : Nat) (slot : Nat) (w : WaitResp) (c : Cmd) (f : QpCfg) (m : RecvMsg) (x y : Sent) (t : State),
    let n := p.dqpn.val
    let q := s.qp n
    let st : Byte := BitVec.ofNat 8 (bits p.aux 31 24)
    let size := if bit p.aux 4 then 8 else 4
    let old : W64 := BitVec.ofNat 64 (leVal (s.cohRead false o size))
    let psn32 : W32 := BitVec.ofNat 32 p.psn.toNat
    let rows : List Instr := [.umtWrite p, .umtReadReq p, .umtReadResp p, .umtSend p, .umtAtomic p, .umtAtomicResp p, .umtNotify p]
    let runs : Instr → (State → Prop) → Prop := fun i f =>
      ∃ u, exec i s = .next u ∧ (u.qp n).cum = p.psn + 1 ∧ acknowledges s u p (p.psn + 1) 0 ∧ f u
    (nextPacket s p → collIdle s → netMute s → p.ackReq = true → q.cfg = none → p.addr.toNat = o → isCollAddr p.addr = false →
      (s.peerCheck p.srcDev o p.payload.length 1 = 0 → uncached s o → 1 ≤ p.payload.length → o % 256 + p.payload.length ≤ 256 →
        runs (.umtWrite p) (fun u => u.cohRead false o p.payload.length = p.payload)) ∧
      (s.peerCheck p.srcDev o p.payload.length 1 ≠ 0 → ∃ u, exec (.umtWrite p) s = .next u ∧ u.stk.mem = s.stk.mem ∧
        acknowledges s u p (p.psn + 1) (s.peerCheck p.srcDev o p.payload.length 1)) ∧
      (s.peerCheck p.srcDev o p.aux.toNat 2 = 0 → 1 ≤ p.aux.toNat → p.aux.toNat ≤ 4096 → s.cohBad false o p.aux.toNat = false →
        s.linesReady (.umtReadReq p) (secsOf false o p.aux.toNat) false = true →
        runs (.umtReadReq p) (fun u => (u.qp n).unsent.map (fun z => z.pkt) = [mkPkt 2 0 psn32 (s.cohRead false o p.aux.toNat)])) ∧
      (s.peerCheck p.srcDev o size 0 = 0 → o % size = 0 → s.cohBad false o size = false → uncached s o → runs (.umtAtomic p) (fun u =>
        (u.qp n).unsent.map (fun z => z.pkt) = [mkPkt 5 0 psn32 (leBytes 8 old.toNat)] ∧
          u.cohRead false o size = leBytes size (amoNew (bits p.aux 3 0) (bit p.aux 4) old (BitVec.ofNat 64 (leVal (p.payload.take 8)))
            (BitVec.ofNat 64 (leVal (p.payload.drop 8)))).1.toNat)) ∧
      runs (.umtNotify p) (fun u => u.stk.mem = s.stk.mem ∧ u.que = s.que) ∧
      (q.waits = [w] → w.psn.toNat = bits p.aux 23 0 → w.own = .sem k slot → (s.q k).cmds = [c] → c.slot = slot → c.first = none →
        (w.len ≠ 0 → st = 0 → w.len ≤ w.got + p.payload.length → runs (.umtReadResp p) (fun u => (u.qp n).waits = [] ∧
          u.q k = { s.q k with cmds := [{ c with left := 0, val := BitVec.ofNat 64 (leVal p.payload) }] })) ∧
        (w.len ≠ 0 → st ≠ 0 → runs (.umtReadResp p) (fun u => (u.qp n).waits = [] ∧
          u.q k = { s.q k with cmds := [{ c with left := 0, first := some (2, w.addr) }] })) ∧
        (w.len = 0 → st = 0 → runs (.umtAtomicResp p) (fun u => (u.qp n).waits = [] ∧
          u.q k = { s.q k with cmds := [{ c with left := 0, val := BitVec.ofNat 64 (leVal p.payload) }] })))) ∧
    (nextPacket s p → collIdle s → p.ackReq = true → q.cfg = some f → 65536 ≤ n →
      let a := f.rcpl.toNat + 16 * q.rcplIdx.toNat
      let head : Byte → W32 → W32 → List Byte := fun kind tag len =>
        leBytes 4 tag.toNat ++ leBytes 1 (kind.toNat + 128 * b2n q.rphase) ++ leBytes 2 f.peer.toNat ++ leBytes 1 0 ++ leBytes 4 len.toNat
      (uncached s a → a % 256 + 16 ≤ 256 → ∃ u, exec (.umtNotify p) s = .next u ∧ (u.qp n).cum = p.psn + 1 ∧ (u.qp n).held = [] ∧
        u.cohRead false a 16 = head 3 0 0 ++ leBytes 4 p.aux.toNat) ∧
      (q.msgs = [m] → m.num.toNat = bits p.addr 63 32 → m.got = [] → m.total = 0 → bits p.addr 31 0 = 0 → 1 ≤ p.payload.length →
        State.translate (arrived s p) { wrWant n 65536 f.pasid m.tries with va := m.buf + 0, write := true } = .ok (.dev o) t →
        t = { arrived s p with xlt := t.xlt } → uncached s o → o % 256 + p.payload.length ≤ 256 → m.buf.toNat % 256 + p.payload.length ≤ 256 →
        ((arrived s p).deadAt (.dev o)).isNone = true →
          (p.payload.length < m.len.toNat → ∃ u, exec (.umtSend p) s = .next u ∧ (u.qp n).cum = p.psn + 1 ∧
            u.cohRead false o p.payload.length = p.payload ∧ (u.qp n).msgs = [{ m with got := [0], total := p.payload.length, tries := 0 }]) ∧
          (m.len.toNat ≤ p.payload.length → uncached s a → a % 256 + 16 ≤ 256 → otherLine a o → ∃ u, exec (.umtSend p) s = .next u ∧
            (u.qp n).cum = p.psn + 1 ∧ u.cohRead false o p.payload.length = p.payload ∧ (u.qp n).msgs = [] ∧
            u.cohRead false a 12 = head 1 m.tag m.len))) ∧
    (∀ i ∈ rows, belongs s p → collIdle s → netMute s → (∀ r, (s.rc r).txns = []) → psnBefore p.psn q.cum = true →
      ∃ u, exec i s = .next u ∧ acknowledges s u p q.cum 0 ∧ (u.qp n).cum = q.cum ∧ u.stk = s.stk ∧ u.que = s.que ∧ u.blocks = s.blocks) ∧
    (∀ i ∈ .umtAck p :: rows, bit s.net.gctl 0 = false → (∀ r, (s.rc r).txns = []) → ∃ u, exec i s = .next u ∧ (u.ifc p.ifc.val).drop = satAdd (s.ifc p.ifc.val).drop 1 ∧
      u.sent = s.sent ∧ u.stk = s.stk ∧ u.que = s.que ∧ u.blocks = s.blocks ∧ u.net.qp = s.net.qp) ∧
    (belongs s p → collIdle s → q.unsent = [] →
      (q.sent = [x] → x.own = .reply → ackCovers p.psn (ackMap p.payload) x.pkt.psn = true →
        ∃ u, exec (.umtAck p) s = .next u ∧ (u.qp n).sent = [] ∧ (u.qp n).expiries = 0) ∧
      (q.sent = [x] → x.own = .sem k slot → (s.q k).cmds = [c] → c.slot = slot → c.first = none → st ≠ 0 → x.pkt.psn.toNat = bits p.aux 23 0 →
        ∃ u, exec (.umtAck p) s = .next u ∧ (u.qp n).sent = [] ∧
          u.q k = { s.q k with cmds := [{ c with left := 0, first := some (2, x.pkt.addr) }] }) ∧
      (q.sent = [x, y] → x.own = .reply → y.own = .reply → st = 0 → x.pkt.path = y.pkt.path → x.order < y.order →
        ackCovers p.psn (ackMap p.payload) x.pkt.psn = false → ackCovers p.psn (ackMap p.payload) y.pkt.psn = true →
        (∃ j < s.pathsOf n, s.pathUp n j = true) → ∃ u i z, exec (.umtAck p) s = .next u ∧ u.sent = s.sent ++ [.umt i z (s.umtBytes i z)] ∧ z.retx = true ∧
          z.psn = x.pkt.psn ∧ z.addr = x.pkt.addr ∧ z.payload = x.pkt.payload ∧ (u.qp n).sent.map (fun v => v.pkt) = [z]))

/-- R318, R320 to R323, R327, R328, R333, R335, R337, R339, R340, R342, R343, Table 12-7: work requests and timers. A work request that may start sends its
packets: a WRITE its local bytes in parts that cross no 4 KiB of the target, with the immediate on the last under NOTIFY, a SEND the bytes by
their place in a new message, a READ, an ATOMIC and a NOTIFY one packet; a packet leaves with the next PSN on a path that serves.
The doorbells take descriptors of the ring's phase and move indices. The timers acknowledge, retransmit or give the peer up, send a refused
SEND again, and end a penalty or a pace. -/
def Obligations.NetSends : Prop :=
  ∀ (s : State) (qp : Fin 262144) (slot pi : W16) (c : QpCfg) (w : Wr) (bs : List Byte) (t : State) (a : AckFor) (x : Sent) (path : BitVec 6)
    (v : Nat),
    let n := qp.val
    let q := s.qp n
    let d := w.desc
    let imm : W32 := BitVec.ofNat 32 (bits d 255 224)
    let roff := bits d 191 128
    let len := bits d 223 192
    let local' : Prop := State.virtRead (wrWant n w.slot c.pasid w.tries) (pagesOf (BitVec.ofNat 64 (bits d 127 64)) len) [] s = .ok bs t ∧
      t = { s with xlt := t.xlt }
    let queued : Instr → (List TxPkt → Prop) → Prop := fun i f => ∃ u, exec i s = .next u ∧ u.sent = s.sent ∧
      f ((u.qp n).unsent.map (fun z => z.pkt)) ∧ (∀ z ∈ (u.qp n).unsent, z.own = .wr w.slot) ∧ ∃ y, (u.qp n).wrs = [y] ∧ y.slot = w.slot ∧
        y.started = true ∧ y.left = (u.qp n).unsent.length
    let parts : List TxPkt → BitVec 4 → Prop := fun l typ => (l.map (fun z => z.payload)).flatten = bs ∧
      ∀ z ∈ l, z.typ = typ ∧ 1 ≤ z.payload.length ∧ bits z.addr 31 0 % 4096 + z.payload.length ≤ 4096
    (netMute s → collIdle s → w.slot = slot.toNat →
      (wrStarts s n c w 1 → 1 ≤ len → local' → queued (.wrWrite qp slot) (fun l => parts l 0 ∧ l.head?.map (fun z => z.addr.toNat) = some roff)) ∧
      (wrStarts s n c w 2 →
        (1 ≤ len → local' → queued (.wrWriteNotify qp slot) (fun l => parts l 0 ∧
          l.getLast?.map (fun z => (z.notify, z.aux, z.isLast)) = some (true, imm, true))) ∧
        (len = 0 → queued (.wrWriteNotify qp slot) (fun l => l = [mkPkt 6 0 imm []]))) ∧
      (wrStarts s n c w 3 → 1 ≤ len → queued (.wrRead qp slot) (fun l => l = [mkPkt 1 (BitVec.ofNat 64 roff) (BitVec.ofNat 32 len) []])) ∧
      (wrStarts s n c w 4 → 1 ≤ len → local' → queued (.wrSend qp slot) (fun l => parts l 3 ∧
        ∀ z ∈ l, z.aux.toNat = len ∧ bits z.addr 63 32 = q.msgNum.toNat)) ∧
      (wrStarts s n c w 5 → queued (.wrAtomic qp slot) (fun l => l = [mkPkt 4 (BitVec.ofNat 64 roff)
        (BitVec.ofNat 32 (16 * b2n (bit d 260) + bits d 259 256)) (leBytes 8 (bits d 383 320) ++ leBytes 8 (bits d 447 384))])) ∧
      (wrStarts s n c w 6 → queued (.wrNotify qp slot) (fun l => l = [mkPkt 6 0 imm []]))) ∧
    (wrStarts s n c w 6 → w.slot = slot.toNat → collIdle s → q.sent = [] → q.waits = [] → q.penal = [] → 1 ≤ s.pathsOf n → s.pathUp n 0 = true →
      ∃ u y, exec (.wrNotify qp slot) s = .next u ∧ u.sent = s.sent ++ [.umt (s.pathIfc n 0) y (s.umtBytes (s.pathIfc n 0) y)] ∧ y.typ = 6 ∧ y.psn = q.snext ∧ y.aux = imm ∧
        y.dst = c.peer ∧ y.dqpn = c.rqpn.toNat ∧ y.sqpn = n ∧ y.gen = s.genOf n ∧ y.ackReq = true ∧ (u.qp n).snext = q.snext + 1 ∧
        (u.qp n).sent.map (fun z => z.pkt) = [y]) ∧
    (writeTaken s 13 0x400030 → q.cfg = some c →
      (pi.toNat < 2 ^ c.slog2 → q.state = .ready → q.wrs = [] → q.sci ≠ pi → (q.sci + 1 = pi ∧ q.sci.toNat + 1 ≠ 2 ^ c.slog2) →
        s.tableRead (c.sring.toNat + 64 * q.sci.toNat) 64 = some v →
          (bit (BitVec.ofNat 512 v) 7 = q.sphase → ∃ u y, y.desc = BitVec.ofNat 512 v ∧ y.slot = q.sci.toNat ∧ y.started = false ∧
            (y.bad = false → exec (.sendRingDoorbell qp pi) s = .next u ∧ (u.qp n).wrs = [y] ∧ (u.qp n).sci = pi ∧ (u.qp n).spi = pi)) ∧
          (bit (BitVec.ofNat 512 v) 7 ≠ q.sphase → exec (.sendRingDoorbell qp pi) s = .next (s.setQp n { q with spi := pi }))) ∧
      (2 ^ c.slog2 ≤ pi.toNat → q.state = .ready → q.wrs = [] → exec (.sendRingDoorbell qp pi) s = .next (s.setQp n { q with state := .error })) ∧
      (pi.toNat < 2 ^ c.rlog2 → exec (.receiveRingDoorbell qp pi) s = .next (s.setQp n { q with rpi := pi }))) ∧
    (s.qpUsed n = true → ∃ l, exec (.qpContextFill qp) s = .next { s with net := { s.net with cached := l } } ∧ l.head? = some n ∧
      l.length ≤ 16384 ∧ (∀ k ∈ l, k = n ∨ k ∈ s.net.cached)) ∧
    (q.ackFor = some a → bit s.net.gctl 0 = true → ∃ u y, exec (.ackDelayExpiry qp) s = .next u ∧ 
      u.sent = s.sent ++ [.umt a.ifc y (s.umtBytes a.ifc y)] ∧ y.typ = 7 ∧
      y.psn = q.cum ∧ y.aux = 0 ∧ y.path = a.path ∧ y.dst = s.peer n ∧ (u.qp n).ackFor = none) ∧
    (bit s.net.gctl 0 = true → q.sent = [x] → x.own = .reply → q.unsent = [] → q.waits = [] → q.wrs = [] → collIdle s →
      (q.expiries + 1 < 8 → (∃ j < s.pathsOf n, s.pathUp n j = true) → ∃ u i y, exec (.retransmitTimerExpiry qp) s = .next u ∧
        u.sent = s.sent ++ [.umt i y (s.umtBytes i y)] ∧ y.psn = x.pkt.psn ∧ y.addr = x.pkt.addr ∧ y.payload = x.pkt.payload ∧ y.retx = true ∧
        (u.qp n).cwnd = 512 ∧ (u.qp n).expiries = q.expiries + 1) ∧
      (8 ≤ q.expiries + 1 → ∃ u, exec (.retransmitTimerExpiry qp) s = .next u ∧ (u.qp n).sent = [] ∧
        (u.qp n).state = (if n < 65536 then .dead else .error) ∧ (n < 65536 → .event 411 ∈ u.sent))) ∧
    (q.cfg = some c → q.wrs = [w] → w.again = true → w.left = 0 → 1 ≤ len → local' → netMute s → q.unsent = [] →
      queued (.rnrRetryTimer qp) (fun l => parts l 3 ∧ ∀ z ∈ l, z.aux.toNat = len ∧ bits z.addr 63 32 = w.num.toNat)) ∧
    (q.unsent = [] → exec (.pathPenaltyExpiry qp path) s = .next (s.setQp n { q with penal := q.penal.filter (fun k => k != path.toNat) }) ∧
      exec (.pacingTimer qp) s = .next (s.setQp n { q with paced := false }))

/-- R308, R326, R333, R344 to R346, Tables 12-11, 15-9; 16_stolpel_and_events.md R440: what changes the network engine. NET_IQP_RESET returns an implicit pair to IDLE with
its generation raised, and what it waited for ends as at a dead peer. A write of NET_GCTL changes UDP_PORT, GEN0 and IMASK only while EN is
0, and no reserved DPRIO; at EN's rise the implicit pairs take GEN0. A write of a port's MODE takes its interfaces down. A
window's registers take their legal bits, with WIN_BUSY until the placements before have drained. Interfaces that go down or come up tell so. -/
def Obligations.NetControls : Prop :=
  ∀ (s : State) (dev : W16) (v : W64) (port : Fin 10) (mode : BitVec 2) (wn : Byte) (base len : W64) (src : W32) (ifc : Fin 20) (w : WaitResp)
    (k slot : Nat) (c : Cmd),
    let q := s.qp dev.toNat
    let g := s.net.gctl
    let idle : Qp := { Qp.init with gen := q.gen + 1 }
    (writeTaken s 13 0x400038 → collIdle s → q.sent = [] → q.unsent = [] →
      (q.waits = [] → q.wrs = [] → exec (.netIqpReset dev) s = .next (s.setQp dev.toNat idle)) ∧
      (q.state = .active → q.waits = [w] → w.own = .sem k slot → (s.q k).cmds = [c] → c.slot = slot → c.first = none →
        ∃ u, exec (.netIqpReset dev) s = .next u ∧ u.qp dev.toNat = idle ∧
          u.q k = { s.q k with cmds := [{ c with left := 0, first := some (1, w.addr) }] })) ∧
    (writeTaken s 13 0x400000 → ∃ u, exec (.netGctlWrite v) s = .next u ∧
      bits u.net.gctl 63 48 = bits (if bit g 0 then g else v) 63 48 ∧ bits u.net.gctl 47 40 = bits (if bit g 0 then g else v) 47 40 ∧
      bits u.net.gctl 39 35 = bits g 39 35 ∧ bits u.net.gctl 34 32 = bits (if 6 ≤ bits v 34 32 then g else v) 34 32 ∧
      bits u.net.gctl 31 12 = bits (if bit g 0 then g else v) 31 12 ∧ bits u.net.gctl 11 6 = bits v 11 6 ∧ bits u.net.gctl 5 1 = bits g 5 1 ∧
      bit u.net.gctl 0 = bit v 0 ∧ (bit g 0 = false → bit v 0 = true → ∀ n < 65536, (u.genOf n).toNat = bits v 47 40) ∧
      (bit g 0 = true ∨ bit v 0 = false → u.net.gen0 = s.net.gen0 ∧ u.net.qp = s.net.qp ∧ u.sent = s.sent)) ∧
    (writeTaken s (13 + 9 * (port.val / 2)) (0x410000 + 0x1000 * port.val) → ∃ u, exec (.portModeWrite port mode) s = .next u ∧
      (u.nport port.val).mode = mode ∧ (u.nport port.val).narrowed = (s.nport port.val).narrowed ∧ (u.ifc (2 * port.val)).up = false ∧
      (u.ifc (2 * port.val + 1)).up = false ∧ ∀ j, j ≠ 2 * port.val → j ≠ 2 * port.val + 1 → u.ifc j = s.ifc j) ∧
    (writeTaken s 13 (0x401000 + 0x20 * wn.toNat) → ∃ u, exec (.windowWrite wn base len src) s = .next u ∧
      (let x := Tab.get Win.init u.net.win wn.toNat
       x.base = base &&& 0xF0003FFFFFFFF000 ∧ x.len = len &&& 0x00003FFFFFFFF000 ∧ x.src = src) ∧
      (∀ j, j ≠ wn.toNat → Tab.get Win.init u.net.win j = Tab.get Win.init s.net.win j) ∧
      (Tab.get Win.init u.net.win wn.toNat ≠ Tab.get Win.init s.net.win wn.toNat → u.net.winBusy = true)) ∧
    ((∀ m, (s.box m).busy = false) → exec .windowDrainComplete s = .next { s with net := { s.net with winBusy := false } }) ∧
    ((s.ifc ifc.val).up = true → ∃ u, exec (.interfaceDown ifc) s = .next u ∧ u.ifc ifc.val = { s.ifc ifc.val with up := false } ∧
      u.sent = s.sent ++ [.event 412, .fault { g := 7, u := BitVec.ofNat 16 ifc.val, k := 1 } 2 s.flt.oclk 0]) ∧
    (s.ifcPresent ifc.val = true → s.domOn (13 + 9 * (ifc.val / 4)) = true → s.regionDust (ifc.val / 4) = false →
      s.dusted (.netPort (Fin.ofNat 10 (ifc.val / 2))) = false → (s.ifc ifc.val).up = false → (∀ z ∈ s.net.qp, z.2.unsent = []) →
      ((s.modl (ifc.val / 2)).inserted = true → (s.modl (ifc.val / 2)).id ≠ none) →
        ∃ u, exec (.interfaceUp ifc) s = .next u ∧ u.ifc ifc.val = { s.ifc ifc.val with up := true } ∧ .event 412 ∈ u.sent ∧
          (bits (u.flt.last.headD 0) 3 0, bits (u.flt.last.headD 0) 223 192) = (9, 2))

/-! ### Collectives (13_collectives_and_hawk_store.md) -/

/-- R349, R350, R354, R355, R358, R360 to R366: a COLL whose group no engine serves is refused, one of no elements completes, and one of a group
with nodes takes the next SEQ and claims. A node grants slots or answers BUSY; it adds each contribution in FP32 in the order of
arrival and sends the sum, rounded once, when every child's has come; DONE frees a slot, the last one the collective. A RESULT
stands in RBUF and its last chunk completes the COLL. Data of an endpoint algorithm stands in the staging area. A collective without
progress ends with TIMEOUT at a member, and with a record at a node; a result that does not come is fetched. -/
def Obligations.Collectives : Prop :=
  ∀ (s : State) (q : Fin 1024) (slot : W16) (c : Cmd) (e : BitVec 512) (r : Fin 5) (p : Pkt) (nd : NodeColl) (x : Slot) (m : MemberColl) (a : List Byte)
    (c0 : Nat) (d : BitVec 512) (o : Nat) (t : State) (group : BitVec 12) (chunk : Nat),
    let n := q.val
    let g := dfield c.desc 40 2
    let pn := p.dqpn.val
    let pg := bits p.addr 43 32
    let mod := bits p.addr 27 16
    let at' := bits p.addr 15 0
    let seq : W16 := BitVec.ofNat 16 (bits p.aux 31 16)
    let child := bits p.aux 15 0
    let psn32 : W32 := BitVec.ofNat 32 p.psn.toNat
    let w1 := leVal (p.payload.take 8)
    let w2 := leVal (p.payload.drop 8)
    let hears : Prop := nextPacket s p ∧ netMute s ∧ p.ackReq = true ∧ (s.qp pn).cfg = none
    let node : Nat → Prop := fun kind => hears ∧ collIdle s ∧ toColl p pg kind ∧ podNode s pg e r.val p
    let runs : Instr → (State → Prop) → Prop := fun i f =>
      ∃ u, exec i s = .next u ∧ (u.qp pn).cum = p.psn + 1 ∧ acknowledges s u p (p.psn + 1) 0 ∧ f u
    let replies : State → Nat → Prop := fun u v => (u.qp pn).unsent.map (fun z => z.pkt) = [mkPkt 5 0 psn32 (leBytes 8 v)]
    let mine : Nat → W16 → Prop := fun role sq => (s.ceng r.val).nodes = [nd] ∧ nd.group = pg ∧ nd.seq = sq ∧ nd.role = role ∧ nd.failed = false ∧
      nd.timedOut = false
    (Starts s n slot.toNat 3 c → s.groupEntry g = some e →
      (s.collEngine e = none → exec (.coll q slot) s = .next ((s.served n).oneCmd n { c with stat := .done 11 0 })) ∧
      (s.collEngine e = some r.val → cCount c.desc = 0 → ∃ u, exec (.coll q slot) s = .next u ∧ (u.q n).cmds = [{ c with stat := .done 0 0 }] ∧
        Tab.get 0 u.col.seq g = Tab.get 0 s.col.seq g + 1) ∧
      (s.collEngine e = some r.val → cCount c.desc ≠ 0 → gNodeKind e ≠ 0 → cOp c.desc ≠ 5 → collIdle s → (∀ k, (s.ceng k).nodes = []) → netMute s →
        let dev := s.gNode e (s.podPos e (podOf s.xlt.devnum))
        let sq := Tab.get 0 s.col.seq g
        dev ≠ s.xlt.devnum → (s.qp dev.toNat).unsent = [] → ∃ u k, exec (.coll q slot) s = .next u ∧ (u.ceng r.val).members = [k] ∧ k.q = n ∧
          k.slot = slot.toNat ∧ k.group = g ∧ k.seq = sq ∧ k.way = .claiming ∧ k.got = [] ∧ Tab.get 0 u.col.seq g = sq + 1 ∧
          (u.q n).cmds = [{ c with stat := .running }] ∧ (u.qp dev.toNat).unsent.map (fun z => z.pkt) =
            [mkPkt 4 (BitVec.ofNat 64 (3 * 2 ^ 44 + g * 2 ^ 32)) 16 (leBytes 8 (sq.toNat * 2 ^ 48 + gSelf e * 2 ^ 32 + (cDigest c.desc).toNat) ++
              leBytes 8 ((gEpoch e).toNat % 65536 * 2 ^ 48 + Nat.min (cChunks c.desc (groupN e)) 15))])) ∧
    (node 0 → (s.ceng r.val).nodes = [] → w2 < 2 ^ 64 → w2 / 2 ^ 48 = (gEpoch e).toNat % 65536 → w2 % 16 ≠ 0 → w1 < 2 ^ 64 →
      (bit (s.ceng r.val).ctl 0 = true → runs (.claim p) (fun u => replies u 0 ∧ ∃ k, (u.ceng r.val).nodes = [k] ∧ k.group = pg ∧ k.role = 1 ∧
        k.seq.toNat = w1 / 2 ^ 48 ∧ k.digest.toNat = w1 % 2 ^ 32 ∧ k.granted = true ∧ k.claimed = [w1 / 2 ^ 32 % 65536] ∧ k.waiting = [] ∧
        k.slots = Nat.min (w2 % 16) (if bits (s.ceng r.val).ctl 7 4 = 0 then 1 else bits (s.ceng r.val).ctl 7 4))) ∧
      (bit (s.ceng r.val).ctl 0 = false → runs (.claim p) (fun u => replies u 1 ∧ (u.ceng r.val).busy = satAdd (s.ceng r.val).busy 1))) ∧
    (node 1 → mine 1 seq →
      (1 ≤ nd.slots → (s.ceng r.val).slots = [] → chunkFrom nd.chunksDone mod ≤ nd.chunksDone + nd.slots → nd.desc = none →
        (∃ k ∈ s.kids e 1, k ≠ child) → runs (.contrib p) (fun u => ∃ y, (u.ceng r.val).slots = [y] ∧ y.group = pg ∧ y.seq = seq ∧ y.role = 1 ∧
          y.chunk = chunkFrom nd.chunksDone mod ∧ y.result = false ∧
          y.parts = [{ child := child, at' := at', bytes := p.payload, last := p.isLast }])) ∧
      (1 ≤ nd.slots → (s.ceng r.val).slots = [x] → x.group = pg → x.seq = seq → x.role = 1 → x.chunk % 4096 = mod → x.up = false → x.result = false →
        (∃ l, x.parts = [{ child := c0, at' := 0, bytes := a, last := l }]) → c0 ≠ child → at' = 0 → c0 ∈ s.kids e 1 → child ∈ s.kids e 1 →
        (∀ k ∈ s.kids e 1, (k = c0 ∨ k = child) ∧ s.gMember e k ≠ s.xlt.devnum) → gMcast e = false → nd.desc = some d → cOp d = 0 → cWf d ≤ 4 →
          let el := cElems d (groupN e) x.chunk
          let w := fmtW (cWf d) / 8
          let term : List Byte → Nat → Nat := fun bs i => widen32 (cWf d) (leVal ((bs.drop (i * w)).take w))
          1 ≤ el → a.length = el * w → p.payload.length = el * w → runs (.contrib p) (fun u => ∃ y, (u.ceng r.val).slots = [y] ∧ y.result = true ∧
            (List.range (el * w)).map (fun k => Tab.get 0 y.bytes k) =
              pack (fmtW (cWf d)) ((List.range el).map (fun i => resultCode d (redStep (cRed d) (term a i) (term p.payload i)))) ∧
            ∀ k ∈ s.kids e 1, ∃ z ∈ (u.qp (s.gMember e k).toNat).unsent, z.own = .coll pg seq.toNat (collWhat 2 1 x.chunk) ∧ z.pkt.typ = 0 ∧
              bits z.pkt.addr 31 28 = 2))) ∧
    (node 3 → (s.ceng r.val).slots = [x] → x.group = pg → x.seq.toNat = w1 / 2 ^ 48 → x.role = 1 → x.chunk % 4096 = mod → x.result = true →
      w1 < 2 ^ 64 →
      (x.owed = [w1 / 2 ^ 32 % 65536] → mine 1 x.seq → nd.desc = some d → cChunks d (groupN e) ≤ nd.chunksDone + 1 →
        runs (.done p) (fun u => replies u 0 ∧ (u.ceng r.val).slots = [] ∧ (u.ceng r.val).nodes = [])) ∧
      (x.owed = [w1 / 2 ^ 32 % 65536, c0] → runs (.done p) (fun u => replies u 0 ∧ (u.ceng r.val).slots = [{ x with owed := [c0] }]))) ∧
    (hears → collIdle s → toColl p pg 4 → s.groupEntry pg = some e → s.collEngine e = some r.val → p.srcDev ∈ s.gMembers e →
      (s.ceng r.val).stages = [] → (seq - Tab.get 0 s.col.seq pg).toNat < 32768 → 1 ≤ p.payload.length →
      bits p.addr 27 0 + p.payload.length ≤ bits e 287 256 * 4096 → o = bits e 255 192 + bits p.addr 27 0 → uncached s o →
      o % 256 + p.payload.length ≤ 256 → runs (.stage p) (fun u => u.cohRead false o p.payload.length = p.payload ∧ ∃ z,
        (u.ceng r.val).stages = [z] ∧ z.group = pg ∧ z.seq = seq ∧ z.dev = p.srcDev ∧ z.step.toNat = bits p.aux 15 0 ∧
        z.have' = p.payload.length)) ∧
    (hears → toColl p pg 2 → s.groupEntry pg = some e → s.collEngine e = some r.val → s.gMulti e = false → p.srcDev ∈ s.gMembers e → gMcast e = false →
      oneMember s r.val m c → m.group = pg → m.seq = seq → m.way = .tree → m.got = [] → m.parts = [] → m.sent = 1 → m.poisonAt = none →
      cOp c.desc = 0 → cChunks c.desc (groupN e) = 1 → resultBytes c.desc (groupN e) 0 = p.payload.length → mod = 0 → at' = 0 →
      cOverlap c.desc (groupN e) = false → 1 ≤ p.payload.length → (cRbuf c.desc).toNat % 256 + p.payload.length ≤ 256 →
      State.translate (arrived s p) { collWant m.q m.slot (s.q m.q).pasid c.tries with va := cRbuf c.desc, write := true } = .ok (.dev o) t →
      t = { arrived s p with xlt := t.xlt } → uncached s o → o % 256 + p.payload.length ≤ 256 → runs (.result p) (fun u =>
        u.cohRead false o p.payload.length = p.payload ∧ (u.ceng r.val).members = [] ∧ (u.q m.q).cmds = [{ c with stat := .done 0 0 }])) ∧
    (oneMember s r.val m c → m.group = group.toNat → (s.ceng r.val).nodes = [] → ∃ u, exec (.collectiveTimeout r group m.seq) s = .next u ∧
      (u.ceng r.val).members = [] ∧ (u.q m.q).cmds = [{ c with stat := .done 6 0 }]) ∧
    ((s.ceng r.val).members = [] → s.groupEntry group.toNat = some e → (s.ceng r.val).nodes = [nd] → nd.group = group.toNat → nd.timedOut = false →
      nd.failed = false → ∃ u, exec (.collectiveTimeout r group nd.seq) s = .next u ∧ (u.ceng r.val).nodes.map (fun k => (k.slots, k.timedOut)) =
        [(0, true)] ∧ (bits (u.flt.last.headD 0) 3 0, bits (u.flt.last.headD 0) 223 192) = (10, 1)) ∧
    (oneMember s r.val m c → m.group = group.toNat → s.groupEntry group.toNat = some e → gMcast e = true → m.way = .tree → chunk < m.sent →
      chunk ∉ m.got → m.got.length < cChunks c.desc (groupN e) → cChunks c.desc (groupN e) ≤ m.sent → netMute s →
        let dev := s.gNode e (s.podPos e (podOf s.xlt.devnum))
        dev ≠ s.xlt.devnum → (s.qp dev.toNat).unsent = [] → ∃ u, exec (.resultRepairTimer r group m.seq chunk) s = .next u ∧
          (u.qp dev.toNat).unsent.map (fun z => z.pkt) = [mkPkt 1 (BitVec.ofNat 64 (3 * 2 ^ 44 + group.toNat * 2 ^ 32 + 2 * 2 ^ 28 +
            chunk % 4096 * 65536)) (BitVec.ofNat 32 (resultBytes c.desc (groupN e) chunk)) []])

/-! ### Skim lanes and received frames (14_skim_lanes.md; 12_umakin_transport.md) -/

/-- R370 to R372, R377, R381, R392, R393: arming. A SKIM_ARM whose lane or configuration is refused completes with REFUSED and a record; else the
lane is ARMING, its blocks reserved, the idle ones SKIM. Once its blocks hold their images the lane is ARMED and the command ends
with OK; a replace takes the lane through REPLACING back to ARMED. A disarm stops matching, and when the lane's frames are gone its blocks are idle,
their stores zeroed, and the lane is DISARMED with its counts kept. A reloaded block takes frames again, and a capture takes both
counts. -/
def Obligations.SkimArming : Prop :=
  ∀ (s : State) (q : Fin 1024) (slot : W16) (c : Cmd) (l : Tab Byte) (lane : Fin 16) (b : Fin 100) (cq off : Nat),
    let n := q.val
    let ln := dfield c.desc 16 2
    let x := s.lane ln
    let y := s.lane lane.val
    let named := (lAllBlocks l).map (fun z => z.2)
    let refused : Instr → Prop := fun i => ∃ u, exec i s = .next u ∧ (u.q n).cmds = [{ c with stat := .done 11 0 }] ∧
      bits (u.flt.last.headD 0) 3 0 = 11 ∧ u.skm = s.skm ∧ u.blocks.blk = s.blocks.blk
    let goes : Instr → LaneState → (State → Prop) → Prop := fun i st f => ∃ u, exec i s = .next u ∧ (u.q n).cmds = [{ c with stat := .running }] ∧
      (u.lane ln).state = st ∧ (u.lane ln).arm = some (n, slot.toNat) ∧ (∀ k, k ≠ ln → u.lane k = s.lane k) ∧ f u
    let ends : Instr → LaneState → (State → Prop) → Prop := fun i st f => ∃ u, exec i s = .next u ∧ (u.lane lane.val).state = st ∧
      (u.q cq).cmds = [{ c with stat := .done 0 0 }] ∧ f u
    (Starts s n slot.toNat 10 c →
      (dfield c.desc 18 1 = 0 →
        (s.skimServes = false ∨ x.state ≠ .disarmed ∨ s.readLcb (dfield c.desc 24 8) = none → refused (.skimArm q slot)) ∧
        (s.skimServes = true → x.state = .disarmed → s.readLcb (dfield c.desc 24 8) = some l →
          (lowestBad (s.blockChecks l ++ s.lcbChecks l 0) = some off → refused (.skimArm q slot)) ∧
          (lowestBad (s.blockChecks l ++ s.lcbChecks l 0) = none → goes (.skimArm q slot) .arming (fun u => (u.lane ln).newLcb = l ∧
            ∀ k ∈ named, (u.blk k).reserved = some ln ∧ ((s.blk k).state = .idle → (u.blk k).state = .skim ∧ (u.blk k).store = Memory.empty))))) ∧
      (dfield c.desc 18 1 = 1 →
        (x.state = .disarmed → exec (.skimDisarm q slot) s = .next ((s.served n).oneCmd n { c with stat := .done 0 0 })) ∧
        ((x.state = .armed ∨ x.state = .failed) → goes (.skimDisarm q slot) .disarming (fun u => u.blocks = s.blocks)) ∧
        ((x.state = .arming ∨ x.state = .replacing ∨ x.state = .disarming) → refused (.skimDisarm q slot))) ∧
      (dfield c.desc 18 1 = 2 →
        (x.state ≠ .armed → x.state ≠ .failed → refused (.skimReplace q slot)) ∧
        (s.skimServes = true → (x.state = .armed ∨ x.state = .failed) → s.readLcb (dfield c.desc 24 8) = some l →
          (lowestBad (replaceChecks x.lcb l ++ s.lcbChecks l 2) = some off → refused (.skimReplace q slot)) ∧
          (lowestBad (replaceChecks x.lcb l ++ s.lcbChecks l 2) = none → goes (.skimReplace q slot) .replacing (fun u => (u.lane ln).newLcb = l ∧
            (u.lane ln).side.toNat = lSide l ∧ (u.lane ln).lcb = x.lcb))))) ∧
    (y.arm = some (cq, c.slot) → (s.q cq).cmds = [c] → c.first = none →
      (y.state = .arming → y.newLcb = l → lAllBlocks l = [(false, b.val)] → (s.blk b.val).reserved = some lane.val → (s.blk b.val).state = .skim →
        (s.blk b.val).task = none → lPair l = 0 → lcbN l 40 4 ≤ 2 ^ 21 → ends (.skimImageLoadComplete lane) .armed (fun u =>
          (u.lane lane.val).lcb = l ∧ (u.lane lane.val).frames = [] ∧ (u.lane lane.val).seq = 0 ∧ (u.lane lane.val).inSvc = [(false, b.val)] ∧
          (u.lane lane.val).dl = BitVec.ofNat 16 (lDeadline l) ∧ (u.lane lane.val).arm = none ∧
          (u.blk b.val).store.read 0 (lcbN l 40 4) = s.cohRead false (lcbN l 32 8) (lcbN l 40 4))) ∧
      (y.state = .replacing → y.side = 0 → y.newLcb = l → y.inSvc = [(false, b.val)] → y.pair = 0 → y.frames = [] →
        ends (.skimImageLoadComplete lane) .armed (fun u => (u.lane lane.val).lcb = l ∧ (u.lane lane.val).qlcb = l ∧
          (u.lane lane.val).arm = none)) ∧
      (y.state = .disarming → y.frames = [] → ends (.skimDisarmComplete lane) .disarmed (fun u =>
        (u.lane lane.val) = { Lane.init with cMatch := y.cMatch, cReply := y.cReply, cNoanswer := y.cNoanswer, cLate := y.cLate,
                                             cMismatch := y.cMismatch, cSingle := y.cSingle, cFcsbad := y.cFcsbad, cRdrop := y.cRdrop,
                                             cTxdrop := y.cTxdrop } ∧
        ((s.blk b.val).reserved = some lane.val → (u.blk b.val).reserved = none ∧ (u.blk b.val).store = Memory.empty ∧
          ((s.blk b.val).state = .skim → (u.blk b.val).state = .idle) ∧ (u.blk b.val).mode = s.modeOf (b.val / 20))))) ∧
    (y.reload = [b.val] → (∀ k < 16, k ≠ lane.val → (s.lane k).reload = []) → ∃ u, exec (.skimCellReload b) s = .next u ∧
      u.lane lane.val = { y with reload := [] } ∧ ∀ k, k ≠ lane.val → u.lane k = s.lane k) ∧
    (writeTaken s 4 0x510008 → exec .timestampCapture s = .next { s with skm := { s.skm with tsNclk := s.skm.nclk, tsOclk := s.flt.oclk } })

/-- R309 to R316, R374 to R377, R380, R382 to R390: frames. A received frame that a lane matches triggers it; another goes to its UMT command, or is
dropped and counted. A lane numbers an accepted frame and gives it to its lowest free block; without one it counts NOANSWER. A schedule starts,
and ends with its result valid or not. At the deadline the first valid side's reply leaves; a frame that failed on every side gets
no answer, and a side that becomes valid later sends it LATE. A bad FCS forgets a reply that is not released. When a reply has left,
its record stands in the lane's ring. -/
def Obligations.FramesAndLanes : Prop :=
  ∀ (s t : State) (lane : Fin 16) (ifc : Fin 20) (bytes : List Byte) (stamp : W64) (fcsOk ok : Bool) (b : Nat) (f : LaneFrame) (r : SideRun) (c : Instr),
    let n := lane.val
    let i := ifc.val
    let x := s.lane n
    let l := x.lcb
    let counted : State → Prop := fun u => (u.ifc i).rx = satAdd (s.ifc i).rx 1 ∧ u.sent = s.sent ∧ u.skm = s.skm ∧ u.stk = s.stk
    let held : Prop := x.frames = [f] ∧ f.released = false ∧ x.pair = 0
    let one : Prop := f.runs = [(false, r)]
    let replies : Instr → Nat → Nat → Prop := fun w st block => ∃ u g, exec w s = .next u ∧ u.sent = s.sent ++ [.frame (lTxif l f.ifc) (withFcs (t.reply l f (some block) st))] ∧
      (t.reply l f (some block) st).length = lTlen l ∧ (u.lane n).frames = [g] ∧ g.seq = f.seq ∧ g.released = true ∧ g.status.toNat = st ∧ g.used = some block
    (s.ifcServes i = true → bytes.length + 4 ≤ 4352 →
      (s.laneFor i bytes = some n → exec (.frameReceive ifc bytes fcsOk) s = .next (s.emit (.noc (.skimFrameTrigger lane ifc bytes s.skm.nclk fcsOk)))) ∧
      (s.laneFor i bytes = none → fcsOk = false → ∃ u, exec (.frameReceive ifc bytes fcsOk) s = .next u ∧ counted u ∧
        (u.ifc i).crcerr = satAdd (s.ifc i).crcerr 1) ∧
      (s.laneFor i bytes = none → fcsOk = true →
        (beAt bytes 12 2 ≠ 0x8100 → beAt bytes 12 2 ≠ 0x86DD → ∃ u, exec (.frameReceive ifc bytes fcsOk) s = .next u ∧ counted u ∧
          (u.ifc i).drop = satAdd (s.ifc i).drop 1) ∧
        (beAt bytes 12 2 = 0x86DD → beAt bytes 14 1 / 16 = 6 → beAt bytes 20 1 = 17 → bit s.net.gctl 0 = true → beAt bytes 56 2 = bits s.net.gctl 63 48 →
          beAt bytes 38 16 = s.ipOf s.xlt.devnum.toNat i → udpOk bytes 14 (beAt bytes 58 2) = true →
          let p := pktOf bytes ifc 14 62
          let size := 32 + beAt bytes 64 2 % 8192
          54 + beAt bytes 58 2 ≤ bytes.length → 44 ≤ beAt bytes 58 2 → beAt bytes 62 1 / 16 = 1 → beAt bytes 58 2 = 12 + size →
          p.payload.length ≤ lenLimit (beAt bytes 62 1 % 16) → p.mcast = none → beAt bytes 36 2 < 20 →
            ((crc32c ((bytes.drop 62).take size)).toNat = beAt bytes (62 + size) 4 → umtCmd (beAt bytes 62 1 % 16) p = some c →
              exec (.frameReceive ifc bytes fcsOk) s = .next (s.emit (.noc c))) ∧
            ((crc32c ((bytes.drop 62).take size)).toNat ≠ beAt bytes (62 + size) 4 → ∃ u, exec (.frameReceive ifc bytes fcsOk) s = .next u ∧ counted u ∧
              (u.ifc i).crcerr = satAdd (s.ifc i).crcerr 1)))) ∧
    (s.ifcServes i = true → s.domOn 4 = true → s.laneFor i bytes = some n → s.skm.halted = false → (lFcsWait l = false ∨ fcsOk = true) →
      x.pair = 0 → x.state = .armed →
      (x.freeBlock false = some b → ∃ u g, exec (.skimFrameTrigger lane ifc bytes stamp fcsOk) s = .next u ∧ (u.lane n).frames = x.frames ++ [g] ∧
        (u.lane n).seq = x.seq + 1 ∧ (u.lane n).cMatch = satAdd x.cMatch 1 ∧ (u.ifc i).rx = satAdd (s.ifc i).rx 1 ∧ g.seq = x.seq ∧ g.ifc = i ∧
        g.bytes = (s.padFrame x bytes).1 ∧ (lTrigger l < bytes.length → g.bytes = bytes) ∧ g.stamp = stamp ∧ g.since = x.prev.map (fun a => stamp - a) ∧ g.released = false ∧ g.due = false ∧
        g.runs = [(false, { block := b, started := false, done := false, valid := true })] ∧
        u.blk b = (s.blk b).feed (featsOf l i g.bytes g.since)) ∧
      (x.freeBlock false = none → ∃ u, exec (.skimFrameTrigger lane ifc bytes stamp fcsOk) s = .next u ∧ (u.lane n).seq = x.seq + 1 ∧
        (u.lane n).cNoanswer = satAdd x.cNoanswer 1 ∧ (lNoans l = true → (u.lane n).frames.map (fun g => (g.seq, g.runs)) =
          x.frames.map (fun g => (g.seq, g.runs)) ++ [(x.seq, [])]))) ∧
    (held → f.fcs = none →
      (ok = true → ∃ u, exec (.skimFcsCheck lane f.seq ok) s = .next u ∧ (u.lane n).frames = [{ f with fcs := some true }]) ∧
      (ok = false → ∃ u, exec (.skimFcsCheck lane f.seq ok) s = .next u ∧ (u.lane n).frames = [] ∧ (u.lane n).cFcsbad = satAdd x.cFcsbad 1 ∧
        (u.ifc f.ifc).crcerr = satAdd (s.ifc f.ifc).crcerr 1)) ∧
    (x.frames = [f] → f.released = true → f.fcs = none → ∃ u, exec (.skimFcsCheck lane f.seq false) s = .next u ∧ (u.lane n).frames =
      [{ f with fcs := some false, status := 5 }]) ∧
    (held → one →
      (r.started = false → r.done = false → ∃ u, exec (.skimScheduleStart lane f.seq false) s = .next u ∧
        (u.lane n).frames = [{ f with runs := [(false, { r with started := true })] }] ∧
        ∀ p < 17, ((u.blk r.block).cell p) = { (s.blk r.block).cell p with seed := 0, gens := [] }) ∧
      (r.started = true → r.done = false → s.runSched l r.block = (t, ok) → t.lane n = x →
        (f.due = false → ∃ u, exec (.skimScheduleComplete lane f.seq false) s = .next u ∧ u.blocks = t.blocks ∧ u.sent = t.sent ∧
          (u.lane n).frames = [{ f with runs := [(false, { r with done := true, valid := r.valid && ok })] }]) ∧
        (f.due = true → r.valid = true → ok = true → t.ifcServes (lTxif l f.ifc) = true → t.sent = s.sent →
          ∃ u g, exec (.skimScheduleComplete lane f.seq false) s = .next u ∧ (u.lane n).frames = [g] ∧ g.status = 4 ∧ g.released = true ∧
            g.used = some r.block ∧ (u.lane n).cLate = satAdd x.cLate 1 ∧ ∃ bs, u.sent = s.sent ++ [.frame (lTxif l f.ifc) (withFcs bs)] ∧
              bs.length = lTlen l)) ∧
      (f.due = false → r.done = true → r.valid = true → s.ifcServes (lTxif l f.ifc) = true → t = s → replies (.skimDeadline lane f.seq) 0 r.block) ∧
      (f.due = false → r.done = false → r.valid = true → ∃ u, exec (.skimDeadline lane f.seq) s = .next u ∧
        (u.lane n).frames = [{ f with due := true }] ∧ u.sent = s.sent) ∧
      (f.due = false → r.valid = false → lNoans l = true → s.ifcServes (lTxif l f.ifc) = true → ∃ u g, exec (.skimDeadline lane f.seq) s = .next u ∧
        u.sent = s.sent ++ [.frame (lTxif l f.ifc) (withFcs (s.reply l f none 1))] ∧ (u.lane n).frames = [g] ∧ g.status = 1 ∧ g.used = none ∧
        (u.lane n).cNoanswer = satAdd x.cNoanswer 1)) ∧
    (x.frames = [f] → f.released = true → lRlog2 l ≠ 0 →
      let a := lRing l + 64 * x.pi.toNat
      (x.pi.toNat + 1) % 2 ^ lRlog2 l ≠ x.ci.toNat % 2 ^ lRlog2 l → uncached s a → a % 256 + 64 ≤ 256 → f.result.length = 32 →
        ∃ u, exec (.skimReplySent lane f.seq stamp) s = .next u ∧ (u.lane n).frames = [] ∧ (u.lane n).cReply = satAdd x.cReply 1 ∧
          (u.lane n).pi.toNat = (x.pi.toNat + 1) % 2 ^ lRlog2 l % 65536 ∧ u.sent.getLast? = some (.event (384 + n)) ∧
          u.cohRead false a 64 = leBytes 8 f.seq.toNat ++ leBytes 1 (128 * b2n x.phase + f.status.toNat) ++ leBytes 1 n ++ leBytes 1 (f.used.getD 255) ++
            leBytes 1 f.flags.toNat ++ leBytes 4 0 ++ leBytes 8 f.stamp.toNat ++ leBytes 8 stamp.toNat ++ f.result)

/-! ### Faults and the snag queue (15_faults_and_dust_sheets.md) -/

/-- R397 to R407, R410, R412 to R414, R416, R417, R421, R431, R439: the fault collector. An event sets its source's sticky bit and reacts by its class, which N events in a
window raise: INFO writes its record, CORRECTED counts, CONTAIN starts the grace timer, FENCE places the unit under a dust sheet, DEVICE and GRAVE
latch the source and stop every queue; an event of a covered unit goes no further. A failed residue check of a collective engine's adder
counts as retried, and as failed when the element failed again (13_collectives_and_hawk_store.md R356). A source that still shows error at the end of its grace is fenced.
A heartbeat or a lockup that fails gives the device to the fallback sequencer. Records that wait go to the ring while it has
room; SNAG_CTL.EN starts a ring anew. A unit that passes its MAKE_GOOD test returns. -/
def Obligations.FaultsAndSnags : Prop :=
  ∀ (s : State) (src : Src) (rails : BitVec 2) (oclk d : W64) (c : Nat) (e : Fin 16) (w : SnagWait) (v : W32) (ci : BitVec 20) (step : Byte)
    (bad : List DustUnit) (x : MakeGood),
    let g := src.g.toNat
    let u := src.u.toNat
    let k := src.k.toNat
    let sv := s.sev g k
    let y := s.srcSt g u k
    let cls := bits sv 2 0 + y.raised
    let word := 512 * g + (u * 8 + k) / 32
    let head : State → BitVec 512 := fun t => t.flt.last.headD 0
    let slot := s.snag.ringBase.toNat + 64 * s.snag.pi.toNat
    let room : Prop := s.ringFull = false ∧ s.snag.ringHost = false ∧ uncached s slot ∧ slot % 256 + 64 ≤ 256
    let seen : (State → Prop) → Prop := fun f => ∃ t, exec (.faultSourceEvent src rails oclk d) s = .next t ∧
      bit (Tab.get 0 t.flt.sticky word) ((u * 8 + k) % 32) = true ∧ f t
    let fenced : Instr → Prop := fun i => ∃ t, exec i s = .next t ∧ t.dusted (.engine e) = true ∧ bits (head t) 3 0 = 6
    let taken : Instr → Nat → Prop := fun i cause => ∃ t, exec i s = .next t ∧ t.hpt.fallback = true ∧ bits t.flt.fallback 3 0 = cause ∧
      bits t.flt.fallback 63 16 = s.flt.oclk.toNat % 2 ^ 48 ∧ t.flt.pd1Cut = true ∧ t.net.quiet = true ∧ t.hpt.fatal = true ∧ .event 407 ∈ t.sent ∧
      (∀ m, (s.box m).busy = true → (t.box m).busy = false ∧ (t.box m).ret = 4) ∧
      ∀ n, (s.q n).state ≠ .disabled → (t.q n).state = .stopped
    (rails = 1 ∨ srcUnit g u = false → exec (.faultSourceEvent src rails oclk d) s = .next s) ∧
    (rails = 2 → srcUnit g u = true → ¬(g = 0 ∧ ((s.blk (u / 17)).cell (u % 17)).state = 3) → s.flt.makeGood = none →
      (s.covered g u = true → seen (fun t => t.blocks = s.blocks ∧ t.que = s.que ∧ t.sent = s.sent ∧ t.flt.dust = s.flt.dust ∧ t.flt.chip = s.flt.chip)) ∧
      (s.covered g u = false → bit d 63 = false →
        (g = 9 → k ≤ 1 → seen (fun t => (t.ceng u).retried = satAdd (s.ceng u).retried 1 ∧
          (t.ceng u).failed = (if k = 1 then satAdd (s.ceng u).failed 1 else (s.ceng u).failed))) ∧
        (bits sv 23 16 = 0 →
          (cls = 0 → recClass g = some c → k ≠ 7 → seen (fun t => bits (head t) 3 0 = c ∧ bits (head t) 6 4 = 0 ∧ bits (head t) 15 12 = g ∧
            bits (head t) 11 8 = k ∧ bits (head t) 31 16 = u ∧ bits (head t) 127 64 = oclk.toNat ∧
            (room → s.snag.waits = [] → t.cohRead false slot 64 = leBytes 64 (head t).toNat))) ∧
          (cls = 1 → bit s.snag.ctl 2 = false → seen (fun t => (t.srcSt g u k).corrected = satAdd y.corrected 1)) ∧
          (cls = 2 → seen (fun t => (t.srcSt g u k).grace = true ∧ (t.srcSt g u k).level = true ∧ (t.srcSt g u k).detail = d)) ∧
          (cls = 3 → g = 6 → u = 16 + e.val → fenced (.faultSourceEvent src rails oclk d)) ∧
          (4 ≤ cls → ¬(g = 13 ∧ u = 0) → ¬(g = 11 ∧ k = 1) → seen (fun t => .event 406 ∈ t.sent ∧ t.hpt.fatal = true ∧ t.flt.faultT = true ∧
            t.flt.faultC = false ∧ t.skm.halted = true ∧ (bits s.flt.chip 26 24 < cls → cls < 8 → t.flt.chip.toNat =
              cls * 2 ^ 24 + g * 2 ^ 20 + k * 2 ^ 16 + u) ∧
            ∀ n, (s.q n).state ≠ .disabled → (t.q n).state = .stopped ∧ bit (t.q n).bits 2 = true))) ∧
        (1 ≤ bits sv 23 16 → y.winA.toNat = oclk.toNat / 2 ^ bits sv 13 8 → bits sv 23 16 ≤ y.cntA + 1 → cls < bits sv 6 4 → cls + 1 = 2 →
          seen (fun t => (t.srcSt g u k).raised = y.raised + 1 ∧ (t.srcSt g u k).cntA = 0 ∧ (t.srcSt g u k).grace = true ∧
            Tab.get 0 t.flt.promoted g = satAdd (Tab.get 0 s.flt.promoted g) 1)))) ∧
    (exec (.faultSourceCleared src) s = .next (s.setSrc g u k { y with level := false, grace := false })) ∧
    (y.grace = true → bits sv 55 32 ≠ 0 →
      (y.level = false → exec (.graceTimerExpiry src) s = .next (s.setSrc g u k { y with grace := false })) ∧
      (y.level = true → s.covered g u = false → s.flt.makeGood = none → g = 6 → u = 16 + e.val → fenced (.graceTimerExpiry src))) ∧
    (s.hpt.fallback = false →
      (s.flt.hbSeen = true → taken .heartbeatTimeout 1) ∧ (s.flt.hbSeen = false → exec .heartbeatTimeout s = .next s) ∧
      taken .lockupTimeout 3 ∧
      (s.mail.fw = .running → s.domOn 1 = true →
        exec .firmwareHeartbeat s = .next { s with flt := { s.flt with hb := s.flt.hb + 1, hbSeen := true } })) ∧
    (s.snag.waits = [] → exec .snagRecordWrite s = .next s) ∧
    (room → s.snag.waits = [w] → w.thread = none → ∃ t, exec .snagRecordWrite s = .next t ∧ t.snag.waits = [] ∧
      t.cohRead false slot 64 = leBytes 64 (withPhase w.record s.snag.phase).toNat ∧ .event 404 ∈ t.sent ∧
      (s.snag.pi.toNat + 1 < 2 ^ s.snag.ringSize → s.snag.ringSize ≤ 20 → t.snag.pi = s.snag.pi + 1 ∧ t.snag.phase = s.snag.phase) ∧
      (s.snag.pi.toNat + 1 = 2 ^ s.snag.ringSize → t.snag.pi = 0 ∧ t.snag.phase = !s.snag.phase)) ∧
    (writeTaken s 0 0x120008 → s.snag.waits = [] → ∃ t, exec (.snagEnable v) s = .next t ∧ bit t.snag.ctl 0 = bit v 0 ∧ bit t.snag.ctl 2 = bit v 2 ∧
      (bit s.snag.ctl 0 = true → bits t.snag.ctl 7 3 = bits s.snag.ctl 7 3 ∧ bit t.snag.ctl 1 = bit s.snag.ctl 1 ∧ t.snag.pi = s.snag.pi) ∧
      (bit s.snag.ctl 0 = false → bit v 0 = true → 10 ≤ bits v 7 3 → bits v 7 3 ≤ 20 → bits t.snag.ctl 7 3 = bits v 7 3 ∧ bit t.snag.ctl 1 = bit v 1 ∧
        t.snag.pi = 0 ∧ t.snag.ci = 0 ∧ t.snag.phase = true ∧ t.snag.ringSize = bits v 7 3 ∧ t.snag.ringHost = bit v 1 ∧
        t.snag.ringBase.toNat = s.snag.base.toNat / (64 * 2 ^ bits v 7 3) * (64 * 2 ^ bits v 7 3))) ∧
    (writeTaken s 0 0x120018 → s.snag.waits = [] →
      (ci.toNat < 2 ^ bits s.snag.ctl 7 3 → exec (.snagCiWrite ci) s = .next { s with snag := { s.snag with ci := ci } }) ∧
      (2 ^ bits s.snag.ctl 7 3 ≤ ci.toNat → exec (.snagCiWrite ci) s = .next s)) ∧
    (s.flt.makeGood = some x → x.u = .engine e →
      (s.showsError (.engine e) = false → ∃ t, exec (.makeGoodTestComplete (.engine e) true step bad) s = .next t ∧ t.dusted (.engine e) = false ∧
        t.flt.makeGood = none ∧ (bits (head t) 3 0, bits (head t) 223 192) = (6, 2)) ∧
      (s.dusted (.engine e) = true → ∃ t, exec (.makeGoodTestComplete (.engine e) false step bad) s = .next t ∧ t.dusted (.engine e) = true ∧
        t.flt.makeGood = none ∧ (bits (head t) 3 0, bits (head t) 223 192) = (6, 3 + step.toNat * 256))) ∧
    ((∃ z ∈ s.flt.inject, z.1 = srcKey g u k) → ∃ t, exec (.faultInjectEnd src) s = .next t ∧ t.srcSt g u k = { y with level := false, grace := false } ∧
      t.flt.inject = s.flt.inject.filter (fun z => z.1 != srcKey g u k))

/-! ### Mailbox commands (16_stolpel_and_events.md Table 16-4) -/

/-- R425, R429, R430, R437, R438, R481, R485: the commands that ask, and what each returns: identity, the firmware slot, power and mode, a queue, a
queue pair, a group, the collective engines, a lane, a check of a lane's block, the fault latches, bytes of the flash, the calibration record, a
module, the fuses, the translation registers and the CXL logs. The output, LENGTH, RETURN and EXT are written, DOORBELL clears, and nothing else
of the device changes. An operand out of range returns Invalid Input with its offset. The layouts of the CXL commands and the reading of
XLT_QUERY's output are the model's (log 13). -/
def Obligations.MailboxQueries : Prop :=
  ∀ (s : State) (m : Bool) (i : List Byte),
    let gives : Instr → List Byte → Prop := fun c out => ∃ t, exec c s = .next t ∧ replies s t m 0 0 out
    let fails : Instr → Nat → Nat → Prop := fun c off ext => ∃ t, exec c s = .next t ∧ refuses s t m off ext
    let n := inNum i 0 4
    let x := s.lane n
    (inProgress s m 0xC000 i → gives (.info m)
      (leBytes 2 0xD2A9 ++ leBytes 2 0x9620 ++ [(s.cfgWord 8).setWidth 8, BitVec.ofNat 8 (16 * b2n s.hpt.fallback + s.mail.fw.code), 0, 0] ++
        leBytes 8 s.idn.fuses.dsn.toNat ++ leBytes 8 s.flt.fallback.toNat ++ leBytes 4 s.flt.chip.toNat ++ s.peek 0x8000 4 ++ zeros 32)) ∧
    (inProgress s m 0xC003 i → gives (.fwStatus m) ([BitVec.ofNat 8 s.mail.fw.code, 0, 0, 0] ++ leBytes 4 s.mail.fwBytes.length ++
      leBytes 8 s.mail.fwVersion.toNat ++ leBytes 48 s.mail.fwMeas.toNat)) ∧
    (inProgress s m 0xC015 i →
      (n < 1024 → gives (.queueQuery m) (leBytes 4 (s.q n).status ++ zeros 4 ++ leBytes 8 (s.q n).idx ++ leBytes 8 (s.q n).cfg.toNat)) ∧
      (1024 ≤ n → fails (.queueQuery m) 0 1)) ∧
    (inProgress s m 0xC031 i → gives (.powerQuery m) (leBytes 4 s.pwrStatus ++ leBytes 4 s.pwr.cap.toNat ++ leBytes 8 s.pwrMode ++
      leBytes 4 s.pwrTherm ++ zeros 4 ++ (List.range 50).flatMap (fun d => leBytes 4 (s.dom d).word) ++ leBytes 2 s.hottest ++
      leBytes 2 (Tab.get 0 s.pwr.temp s.hottest).toNat ++ zeros 28)) ∧
    (inProgress s m 0xC034 i → gives (.modeQuery m) (leBytes 8 s.pwrMode)) ∧
    (inProgress s m 0xC053 i →
      (n < 262144 → s.qpUsed n = true → gives (.qpQuery m)
        ([BitVec.ofNat 8 (s.qp n).state.code, s.genOf n, 0, 0] ++ leBytes 4 (s.qp n).snext.toNat ++ leBytes 4 (s.qp n).suna.toNat ++
          leBytes 4 (s.qp n).cum.toNat ++ leBytes 4 (s.qp n).cwnd ++ leBytes 4 (s.qp n).srtt ++ leBytes 4 (s.qp n).rttvar ++
          leBytes 4 (s.qp n).alpha.toNat ++ leBytes 2 (s.qp n).expiries ++ zeros 2 ++ leBytes 4 (s.qp n).unacked ++
          leBytes 2 (s.peer n).toNat ++ zeros 22)) ∧
      (n < 262144 → s.qpUsed n = false → fails (.qpQuery m) 0 2) ∧ (262144 ≤ n → fails (.qpQuery m) 0 1)) ∧
    (inProgress s m 0xC072 i →
      (n < 4096 → gives (.groupQuery m) (leBytes 64 ((s.tableRead (s.groupAt n) 64).getD 0) ++ leBytes 2 (Tab.get 0 s.col.seq n).toNat ++
        leBytes 2 (s.groupRuns n) ++ zeros 4)) ∧ (4096 ≤ n → fails (.groupQuery m) 0 1)) ∧
    (inProgress s m 0xC073 i → gives (.hawkQuery m) ((List.range 5).flatMap (fun r => leBytes 8 (s.ceng r).status))) ∧
    (inProgress s m 0xC080 i →
      (n < 16 → gives (.laneQuery m) (leBytes 4 x.status ++ leBytes 4 x.dl.toNat ++ leBytes 8 x.cMatch.toNat ++ leBytes 8 x.cReply.toNat ++
        leBytes 4 x.cNoanswer.toNat ++ leBytes 4 x.cLate.toNat ++ leBytes 4 x.cMismatch.toNat ++ leBytes 4 x.cSingle.toNat ++
        leBytes 4 x.cFcsbad.toNat ++ leBytes 4 x.cRdrop.toNat ++ leBytes 4 x.cTxdrop.toNat ++ leBytes 4 x.ring ++ zeros 8)) ∧
      (16 ≤ n → fails (.laneQuery m) 0 1)) ∧
    (inProgress s m 0xC081 i → let a := inNum i 0 8
      (a % 4096 ≠ 0 → fails (.laneCheck m) 0 1) ∧ (a % 4096 = 0 → s.readLcb a = none → fails (.laneCheck m) 0 3) ∧
      ∀ l, a % 4096 = 0 → s.readLcb a = some l →
        (lowestBad (s.blockChecks l ++ s.lcbChecks l 0) = none → gives (.laneCheck m) []) ∧
        ∀ o, lowestBad (s.blockChecks l ++ s.lcbChecks l 0) = some o → fails (.laneCheck m) o 3) ∧
    (inProgress s m 0xC092 i → gives (.faultSnapshot m) (leBytes 8 s.flt.oclk.toNat ++ leBytes 8 s.flt.fallback.toNat ++
      leBytes 4 s.flt.chip.toNat ++ leBytes 4 s.fltSummary ++ zeros 40 ++
      (List.range 8192).flatMap (fun w => leBytes 4 (Tab.get 0 s.flt.sticky w).toNat) ++
      (List.range 16).flatMap (fun k => leBytes 64 ((s.flt.last[15 - k]?).getD 0).toNat))) ∧
    (inProgress s m 0xC0A0 i → let l := inNum i 4 4
      (n + l ≤ 262144 → gives (.primerRead m) ((List.range l).map (fun k => Tab.get 0 s.pwr.flash (n + k)))) ∧
      (262144 < n → fails (.primerRead m) 0 1) ∧ (n ≤ 262144 → 262144 < n + l → fails (.primerRead m) 4 1)) ∧
    (inProgress s m 0xC0A2 i → gives (.calibrationRead m) ((List.range 4352).map (fun k => Tab.get 0 s.pwr.cal k))) ∧
    (inProgress s m 0xC0A4 i → let y := s.modl n
      (n < 10 → gives (.moduleInfo m) ((match y.id with
        | some d => leBytes 16 d.name.toNat ++ leBytes 16 d.part.toNat ++ leBytes 16 d.serial.toNat
        | none => zeros 48) ++ leBytes 4 y.hours.toNat ++ leBytes 4 y.rated.toNat ++ leBytes 4 y.status ++ zeros 196)) ∧
      (10 ≤ n → fails (.moduleInfo m) 0 1)) ∧
    (inProgress s m 0xC0A5 i → gives (.fuseRead m) (leBytes 8 s.idn.fuses.dsn.toNat ++ leBytes 48 s.idn.fuses.keyHash.toNat ++
      (List.range 100).map (fun b => match s.idn.fuses.spare.find? (fun e => e.1.val == b) with
        | some e => BitVec.ofNat 8 (128 + e.2.val)
        | none => 31) ++ zeros 100)) ∧
    (inProgress s m 0xC0B3 i → gives (.xltQuery m) (leBytes 8 s.xlt.gctl.toNat ++ leBytes 8 s.xlt.devnum.toNat ++ leBytes 8 s.xltStatus ++
      leBytes 8 s.xlt.faults.toNat)) ∧
    (inProgress s m 0x4000 i → ∃ own, own.length = 16 ∧ gives (.identifyMemoryDevice m)
      (own ++ leBytes 8 (s.popEnd / 2 ^ 28) ++ leBytes 8 (s.popEnd / 2 ^ 28) ++ zeros 37)) ∧
    (inProgress s m 0x400 i → gives (.getSupportedLogs m) ([1, 0, 0, 0, 0, 0, 0, 0] ++ celId ++ leBytes 4 (4 * boxCmds.length))) ∧
    (inProgress s m 0x401 i → let o := inNum i 16 4
      (i.take 16 = celId → o + inNum i 20 4 ≤ 4 * boxCmds.length → gives (.getLog m) ((celLog.drop o).take (inNum i 20 4))) ∧
      (i.take 16 ≠ celId → fails (.getLog m) 0 1))

/-- R424 to R426, R428 to R430, R435, R437, R438: the mailbox protocol and the firmware slot. DOORBELL = 1 puts a command in progress, unless it completes at once: with
Unsupported for an opcode not offered or, under the fallback responder, not answered; with Retry Required and NOT_RUNNING before the
firmware runs; with Invalid Payload Length. A command whose doorbell came after the other mailbox's is held for it, and while the fallback
sequencer runs in HOST_LOST every command waits. FW_TRANSFER adds its data to the transfer, refuses a gap, and the other mailbox's transfer is in
its way; FW_START verifies the image in the background, and its end runs the firmware and records its measurement, or names the first check that
failed. A second background command is Busy. The ends of the flash writes are the model's in part (log 30). -/
def Obligations.MailboxProtocolAndFirmware : Prop :=
  ∀ (s : State) (m : Bool) (i data : List Byte) (c : BoxCmd) (g : Background) (off : Nat),
    let x := s.box m
    let bell : State → Prop := fun t => exec (.mailboxDoorbell m) s = .next t
    let turned : Nat → Nat → Prop := fun ret ext => ∃ t, bell t ∧ replies s t m ret ext []
    let tells : Instr → Nat → Prop := fun w ret => ∃ t, exec w s = .next t ∧ replies s t m ret 0 []
    let fails : Instr → Nat → Prop := fun w o => ∃ t, exec w s = .next t ∧ refuses s t m o 1
    let offset := inNum i 0 4
    let more := i.drop 8
    let fw := s.mail.fw
    let b := s.mail.fwBytes
    let field : Nat → Nat := fun o => beVal ((b.drop o).take 48)
    let form := fwFormat (bits (s.cfgWord 8) 7 0) b
    let keyed := decide (digestWord (sha384 ((b.drop 0x100).take 97)) = s.idn.fuses.keyHash)
    let signed := (b.drop 0x100).headD 0 == 4 && ecdsaOk (field 0x101) (field 0x131) (field 0x180) (field 0x1B0) (sha384 (b.take 0x180 ++ b.drop 512))
    let ended : State → Nat → Nat → Prop := fun t ret ext => exec .backgroundCommandEnd s = .next t ∧ t.mail.bg = none ∧
      (t.box g.mb).bgRet.toNat = ret ∧ (t.box g.mb).bgExt.toNat = ext ∧ (t.box g.mb).bgPercent = 100 ∧ (t.box g.mb).bgOpcode = g.opcode ∧
      .event 402 ∈ t.sent
    let put : Nat → Byte := fun k => if off ≤ k ∧ k < off + data.length then data.getD (k - off) 0 else Tab.get 0 s.pwr.flash k
    let len := (put 8).toNat + 2 ^ 8 * (put 9).toNat + 2 ^ 16 * (put 10).toNat + 2 ^ 24 * (put 11).toNat
    (writeTaken s 2 (boxBase m + 4) →
      (bit x.ctl 0 = true → exec (.mailboxDoorbell m) s = .next s) ∧
      (bit x.ctl 0 = false → s.boxesWait = true →
        bell (s.setBox m { x with ctl := setBit x.ctl 0 true, busy := true, late := (s.box (!m)).busy })) ∧
      (bit x.ctl 0 = false → s.boxesWait = false →
        ((∀ d ∈ boxCmds, d.opcode ≠ x.opcode) → turned 3 0) ∧
        (c ∈ boxCmds → c.opcode = x.opcode →
          (s.hpt.fallback = true → c.opcode ∉ fallbackOps → turned 3 0) ∧
          (s.hpt.fallback = false → c.needsFw = true → fw ≠ .running → turned 5 4) ∧
          (s.hpt.fallback = true ∧ c.opcode ∈ fallbackOps ∨ s.hpt.fallback = false ∧ (c.needsFw = true → fw = .running) →
            (2 ^ 20 < x.len ∨ (if c.more then x.len < c.input else x.len ≠ c.input) → turned 0x16 0) ∧
            (x.len ≤ 2 ^ 20 → (if c.more then c.input ≤ x.len else x.len = c.input) →
              bell (s.setBox m { x with ctl := setBit x.ctl 0 true, busy := true, late := (s.box (!m)).busy })))))) ∧
    (inProgress s m 0xC001 i →
      (fw = .running → tells (.fwTransfer m) 3) ∧
      (fw ≠ .running → s.mail.fwHolder = some (!m) → tells (.fwTransfer m) 8) ∧
      (fw ≠ .running → fw ≠ .verifying → s.mail.fwHolder ≠ some (!m) →
        (inNum i 4 4 ≠ 0 → fails (.fwTransfer m) 4) ∧
        (inNum i 4 4 = 0 → more.length % 128 = 0 →
          (offset ≠ 0 → offset ≠ b.length → tells (.fwTransfer m) 9) ∧
          (offset = 0 ∨ offset = b.length → offset + more.length ≤ 1573376 → ∃ t, exec (.fwTransfer m) s = .next t ∧ answered t m 0 0 [] ∧
            sameDevice t s ∧ t.mail.fw = .receiving ∧ t.mail.fwHolder = some m ∧ t.mail.bg = s.mail.bg ∧
            t.mail.fwBytes = (if offset = 0 then more else b ++ more))))) ∧
    (inProgress s m 0xC002 i →
      (fw = .running → tells (.fwStart m) 3) ∧
      (fw ≠ .running → s.mail.fwHolder ≠ some (!m) →
        (s.mail.bg ≠ none → tells (.fwStart m) 6) ∧
        (s.mail.bg = none → ∃ t, exec (.fwStart m) s = .next t ∧ answered t m 1 0 [] ∧ sameDevice t s ∧ t.mail.fw = .verifying ∧
          t.mail.fwHolder = none ∧ t.mail.fwBytes = b ∧ (t.box m).bgOpcode = 0xC002 ∧ (t.box m).bgPercent = 0 ∧
          t.mail.bg = some { mb := m, opcode := 0xC002, kind := .fwStart, result := none, step := 0 }))) ∧
    (s.mail.bg = none → exec .backgroundCommandEnd s = .next s) ∧
    (s.rst.phase = .none → s.mail.bg = some g →
      (g.kind = .fwStart → let e := if form = false then 6 else if keyed = false then 7 else if signed = false then 8 else 0
        ∃ t, ended t (if e = 0 then 0 else 0xA) e ∧
          (e = 0 → t.mail.fw = .running ∧ t.mail.fwVersion.toNat = inNum b 0x10 8 ∧ t.mail.fwMeas = digestWord (sha384 b) ∧
            t.idn.measValid = true ∧ .event 403 ∈ t.sent) ∧
          (e ≠ 0 → t.mail.fw = .failed ∧ t.mail.fwBytes = [] ∧ t.mail.fwMeas = s.mail.fwMeas ∧
            (bit (s.box g.mb).ctl 0 = false → ∀ k, k < 8 → Tab.get 0 (t.box g.mb).payload k = (leBytes 4 0 ++ leBytes 4 e).getD k 0))) ∧
      (g.kind = .primerWrite off data → len % 4 = 0 → 256 ≤ len → len ≤ 262144 → ∃ t, ended t 0 0 ∧
        (∀ k, k < len - 4 → Tab.get 0 t.pwr.flash k = put k) ∧
        (∀ k, k < 4 → Tab.get 0 t.pwr.flash (len - 4 + k) = (leBytes 4 (crc32c ((List.range (len - 4)).map put)).toNat).getD k 0) ∧
        ∀ k, 262144 ≤ k → Tab.get 0 t.pwr.flash k = Tab.get 0 s.pwr.flash k) ∧
      (g.kind = .calibration data → ∃ t, ended t 0 0 ∧ ∀ k, k < data.length → Tab.get 0 t.pwr.cal k = data.getD k 0) ∧
      (g.kind = .makeGood →
        (g.result = none → exec .backgroundCommandEnd s = .next s) ∧
        ∀ r, g.result = some r → ∃ t, ended t r.1.toNat r.2.toNat ∧ sameDevice t s))

/-- R287, R302, R429, R430, R450 to R452, R460, R475, R477; 15_faults_and_dust_sheets.md R418: mailbox commands on queues and power. QUEUE_CREATE writes a disabled queue's registers; ENABLE, QUIESCE, ABORT and RESET act as
QUE_CTL does, and a refused one sets CMD_REFUSED and returns OBJECT_STATE. POWER_LIMIT_SET writes the cap; DOMAIN_SET drains a compute domain, powers
one up, or forces it off; WARM_RESET quiesces every queue, WARM_RESET_REQUEST is answered, and their deadlines begin the warm reset. A field
out of range returns its offset. -/
def Obligations.MailboxQueuesAndPower : Prop :=
  ∀ (s : State) (m : Bool) (i : List Byte) (c : Cmd) (g : Background),
    let q := inNum i 0 4
    let x := s.q q
    let done : Instr → State → Prop := fun w u => ∃ t, exec w s = .next t ∧ answered t m 0 0 [] ∧ sameDevice t u
    let turned : Instr → State → Prop := fun w u => ∃ t, exec w s = .next t ∧ answered t m 2 2 (leBytes 4 0 ++ leBytes 4 2) ∧ sameDevice t u
    let fails : Instr → Nat → Prop := fun w o => ∃ t, exec w s = .next t ∧ refuses s t m o 1
    let refused : State := s.setQ q { x with bits := setBit x.bits 5 true }
    let started : Instr → Nat → BgKind → (State → Prop) → Prop := fun w op kind f => ∃ t b, exec w s = .next t ∧ answered t m 1 0 [] ∧
      t.mail.bg = some b ∧ b.mb = m ∧ b.opcode.toNat = op ∧ b.kind = kind ∧ (t.box m).bgOpcode.toNat = op ∧ (t.box m).bgPercent = 0 ∧ f t
    let v : Nat → W64 := fun o => BitVec.ofNat 64 (inNum i o 8)
    let d := inNum i 0 1
    let how := inNum i 1 1
    let fields : Prop := 4 ≤ d ∧ d < 50 ∧ how < 4 ∧ inNum i 2 6 = 0
    (inProgress s m 0xC010 i → 1024 ≤ q → fails (.queueCreate m) 0) ∧
    (inProgress s m 0xC010 i → q < 1024 → inNum i 4 4 = 0 → bits (v 8) 9 0 = 0 → bits (v 16) 7 0 = 0 → bits (v 24) 23 20 = 0 →
      bits (v 24) 63 44 = 0 → 4 ≤ bits (v 24) 27 24 →
      (x.state = .disabled → done (.queueCreate m) (s.setQ q { x with ring := v 8, cpl := v 16, cfg := v 24 })) ∧
      (x.state ≠ .disabled → turned (.queueCreate m) refused)) ∧
    (inProgress s m 0xC011 i → q < 1024 →
      (x.state = .disabled ∨ x.state = .quiesced → done (.queueEnable m) (s.setQ q { x with state := .running })) ∧
      (x.state = .running → turned (.queueEnable m) refused)) ∧
    (inProgress s m 0xC012 i → q < 1024 →
      (x.state = .running → done (.queueQuiesce m) (s.setQ q { x with state := .quiescing })) ∧
      (x.state ≠ .running → turned (.queueQuiesce m) refused)) ∧
    (inProgress s m 0xC013 i → q < 1024 →
      (x.state = .running → x.cmds = [c] → c.stat = .running → c.op = 5 → c.first = none → done (.queueAbort m)
        (s.setQ q { x with state := .quiescing, cmds := [{ c with stat := .done 10 0 }] })) ∧
      (x.state = .disabled ∨ x.state = .quiesced → turned (.queueAbort m) refused)) ∧
    (inProgress s m 0xC014 i → q < 1024 →
      ((x.state = .disabled ∨ x.state = .quiesced ∨ x.state = .stopped) → x.cmds = [] → ∃ t, exec (.queueReset m) s = .next t ∧
        answered t m 0 0 [] ∧ t.q q = { x with ci := 0, pi := 0, phase := true, bits := 0, rereads := 0, state := .disabled }) ∧
      (x.state = .running → turned (.queueReset m) refused)) ∧
    (inProgress s m 0xC030 i → (inNum i 4 4 = 0 → done (.powerLimitSet m) { s with pwr := { s.pwr with cap := BitVec.ofNat 32 (inNum i 0 4) } }) ∧
      (inNum i 4 4 ≠ 0 → fails (.powerLimitSet m) 4)) ∧
    (inProgress s m 0xC032 i →
      (s.mail.bg ≠ none → ∃ t, exec (.domainSet m) s = .next t ∧ replies s t m 6 0 []) ∧
      (s.mail.bg = none → d < 4 ∨ 50 ≤ d → fails (.domainSet m) 0) ∧
      (s.mail.bg = none → fields →
        (s.domainAccepts d (how % 2 == 1) (decide (2 ≤ how)) = false → ∃ t, exec (.domainSet m) s = .next t ∧ refuses s t m 0 2) ∧
        (s.domainAccepts d (how % 2 == 1) (decide (2 ≤ how)) = true →
          let begun : (State → Prop) → Prop := started (.domainSet m) 0xC032 (.domainSet d (how % 2 == 1) (decide (2 ≤ how)))
          (how % 2 = 1 → s.domOn d = false → s.unpopulated d = false → s.pwr.waking = [] → begun (fun t => (t.dom d).state = .poweringUp ∧ t.pwr.waking = [d])) ∧
          (how % 2 = 1 → s.domOn d = true → begun (fun t => ∃ b, t.mail.bg = some b ∧ b.result = some (0, 0))) ∧
          (how = 0 → s.domOn d = true → begun (fun t => (t.dom d).state = .draining)) ∧
          (how = 2 → (s.dom d).state = .on → begun (fun t => (t.dom d).state = .off ∧ (t.dom d).cause = 3))))) ∧
    (inProgress s m 0xC033 i → s.mail.bg = none → started (.warmReset m) 0xC033 .warmReset (fun t =>
      ∀ k, (s.q k).state = .running → (t.q k).state = .quiescing)) ∧
    (inProgress s m 0xC094 i → ∃ t, exec (.warmResetRequest m) s = .next t ∧ answered t m 0 0 [] ∧ sameDevice t s ∧ t.mail.resetAsked = true) ∧
    (s.mail.resetAsked = false → exec .warmResetRequestDelay s = .next s) ∧
    (s.rst.phase = .none → s.rst.stopped = false →
      (s.mail.resetAsked = true → ∃ t, exec .warmResetRequestDelay s = .next t ∧ t.mail.resetAsked = false ∧ drains t false ∧
        ∀ k, (s.q k).state ≠ .disabled → (t.q k).state = .stopped) ∧
      (s.mail.bg = some g → g.kind = .warmReset → ∃ t, exec .warmResetAbortDeadline s = .next t ∧ drains t false)) ∧
    (s.mail.bg = none → exec .warmResetAbortDeadline s = .next s)

/-- R308, R324, R326, R344, R345, R348, R410, R412, R418, R429 to R434, R472, R473; 10_translation.md R279: mailbox commands on queue pairs, windows, ports, groups, units under a dust sheet, the flash and the
addressing. QP_CREATE gives the lowest free explicit queue pair its attributes in RESET; QP_MODIFY moves one, raising the generation at a
reset; WINDOW_SET completes once WIN_BUSY reads 0; GROUP_CREATE writes a checked entry, GROUP_DESTROY clears V; DUST_SHEET fences a unit, MAKE_GOOD tests
one; FAULT_INJECT holds a source; the others write their registers. An object that does not accept the command returns OBJECT_STATE, and a field
out of range its offset. Which field each offset names is the model's for the groups (log 29). -/
def Obligations.MailboxNetworkAndFaults : Prop :=
  ∀ (s : State) (m : Bool) (i : List Byte) (n : Nat) (c : QpCfg) (e : BitVec 512) (en : Fin 16),
    let k := inNum i 0 4
    let q := s.qp k
    let done : Instr → List Byte → (State → Prop) → Prop := fun w out f => ∃ t, exec w s = .next t ∧ answered t m 0 0 out ∧ f t
    let gives : Instr → State → Prop := fun w u => done w [] (fun t => sameDevice t u)
    let fails : Instr → Nat → Nat → Prop := fun w o x => ∃ t, exec w s = .next t ∧ refuses s t m o x
    let started : Instr → Nat → BgKind → (State → Prop) → Prop := fun w op kind f => ∃ t b, exec w s = .next t ∧ answered t m 1 0 [] ∧
      t.mail.bg = some b ∧ b.mb = m ∧ b.opcode.toNat = op ∧ b.kind = kind ∧ b.result = none ∧ f t
    let explicit : Prop := 65536 ≤ k ∧ k < 262144
    let win := Tab.get Win.init s.net.win k
    let asked : Win := { win with base := BitVec.ofNat 64 (inNum i 8 8), len := BitVec.ofNat 64 (inNum i 16 8), src := BitVec.ofNat 32 (inNum i 24 4) }
    let entry : BitVec 512 := BitVec.ofNat 512 (inNum i 4 64)
    let slot := s.groupAt k
    let unit := 6 * 65536 + 16 + en.val
    let src := k / 65536 % 16
    let su := k % 65536
    let kind := k / 2 ^ 20 % 8
    let v : W64 := BitVec.ofNat 64 (inNum i 0 8)
    (inProgress s m 0xC050 i →
      (∀ o, firstBad (s.qpBad i) = some o → fails (.qpCreate m) o 1) ∧
      (firstBad (s.qpBad i) = none → 65536 ≤ n → n < 262144 → n ∉ s.explicitQps → (∀ j, 65536 ≤ j → j < n → j ∈ s.explicitQps) →
        done (.qpCreate m) (leBytes 4 n) (fun t => ∃ a, sameDevice t (s.setQp n { Qp.init with
            state := .reset, cfg := some a, gen := BitVec.ofNat 8 (inNum i 21 1) }) ∧
          a.pasid.toNat = inNum i 0 4 ∧ a.peer.toNat = inNum i 4 2 ∧ a.rqpn.toNat = inNum i 8 4 ∧ a.lmask.toNat = inNum i 12 4 ∧
          a.rmask.toNat = inNum i 16 4 ∧ a.paths = inNum i 20 1 ∧ a.slog2 = inNum i 22 1 ∧ a.rlog2 = inNum i 23 1 ∧
          a.sring.toNat = inNum i 24 8 ∧ a.scpl.toNat = inNum i 32 8 ∧ a.rring.toNat = inNum i 40 8 ∧ a.rcpl.toNat = inNum i 48 8))) ∧
    (inProgress s m 0xC051 i → explicit → inNum i 5 3 = 0 →
      (inNum i 4 1 = 1 → q.cfg = some c → q.state = .reset → q.wrs = [] → q.sci = q.spi →
        done (.qpModify m) [] (fun t => sameDevice t (s.setQp k (t.qp k)) ∧ (t.qp k).state = .ready ∧ (t.qp k).cfg = some c ∧ (t.qp k).gen = q.gen ∧
          (t.qp k).cwnd = Nat.max 512 (Nat.min s.initWindow 1048576) ∧ (t.qp k).alpha = 0x3F800000)) ∧
      (inNum i 4 1 = 0 → q.cfg = some c → (q.state = .ready ∨ q.state = .error) → q.wrs = [] →
        done (.qpModify m) [] (fun t => sameDevice t (s.setQp k (t.qp k)) ∧ (t.qp k).state = .reset ∧ (t.qp k).cfg = some c ∧
          (t.qp k).gen = q.gen + 1 ∧ (t.qp k).snext = 0 ∧ (t.qp k).suna = 0 ∧ (t.qp k).cum = 0 ∧ (t.qp k).unsent = [])) ∧
      (inNum i 4 1 = 1 → q.state ≠ .reset → fails (.qpModify m) 0 2) ∧ (inNum i 4 1 = 0 → q.state = .reset → fails (.qpModify m) 0 2)) ∧
    (inProgress s m 0xC052 i → explicit →
      (q.cfg = some c → q.state = .reset → gives (.qpDestroy m) (s.setQp k Qp.init)) ∧ (q.state ≠ .reset → fails (.qpDestroy m) 0 2)) ∧
    (inProgress s m 0xC054 i → k < 256 → inNum i 4 4 = 0 → inNum i 28 4 = 0 → (asked.base &&& ~~~0xF0003FFFFFFFF000#64) = 0 →
      (asked.len &&& ~~~0x00003FFFFFFFF000#64) = 0 →
      (s.domOn 13 = false → fails (.windowSet m) 0 2) ∧
      (s.domOn 13 = true → win = asked → s.net.winBusy = false → gives (.windowSet m) s) ∧
      (s.domOn 13 = true → win ≠ asked → exec (.windowSet m) s =
        .next { s with net := { s.net with win := Tab.set Win.init s.net.win k asked, winBusy := true } }) ∧
      (s.domOn 13 = true → win = asked → s.net.winBusy = true → (s.box (!m)).busy = false →
        gives .windowDrainComplete { s with net := { s.net with winBusy := false } })) ∧
    (inProgress s m 0xC055 i → let p := inNum i 0 1
      (10 ≤ p → fails (.portModeSet m) 0 1) ∧
      (p < 10 → inNum i 1 1 < 4 → inNum i 2 6 = 0 →
        (s.domOn (13 + 9 * (p / 2)) = true → done (.portModeSet m) [] (fun t => (t.nport p).mode.toNat = inNum i 1 1 ∧
          (t.nport p).narrowed = false ∧ (t.ifc (2 * p)).up = false ∧ (t.ifc (2 * p + 1)).up = false ∧ sameDevice { t with net := s.net } s)) ∧
        (s.domOn (13 + 9 * (p / 2)) = false → fails (.portModeSet m) 0 2))) ∧
    (inProgress s m 0xC056 i → inNum i 2 2 = 0 → let d := inNum i 0 2
      (s.domOn 13 = true → collIdle s → (s.qp d).state ≠ .active →
        gives (.iqpReset m) (s.setQp d { Qp.init with gen := (s.qp d).gen + 1 })) ∧
      (s.domOn 13 = false → fails (.iqpReset m) 0 2)) ∧
    (inProgress s m 0xC070 i → k < 4096 → bits entry 31 16 = 0 → bits entry 56 48 = 0 → bits entry 511 320 = 0 →
      ((s.groupEntry k).isSome = true → fails (.groupCreate m) 0 2) ∧
      (s.groupEntry k = none → (∀ o, lowestBad (s.groupChecks entry) = some o → fails (.groupCreate m) o 3) ∧
        (lowestBad (s.groupChecks entry) = none → uncached s slot → slot % 256 + 64 ≤ 256 → done (.groupCreate m) [] (fun t =>
          t.cohRead false slot 64 = leBytes 64 entry.toNat ∧ Tab.get 0 t.col.seq k = 0)))) ∧
    (inProgress s m 0xC071 i → k < 4096 →
      (s.groupRuns k ≠ 0 → fails (.groupDestroy m) 0 2) ∧
      (s.groupRuns k = 0 → s.groupEntry k = some e → uncached s slot → slot % 256 + 64 ≤ 256 →
        done (.groupDestroy m) [] (fun t => t.groupEntry k = none))) ∧
    (inProgress s m 0xC090 i →
      (k = unit → s.dusted (.engine en) = true → fails (.dustSheet m) 0 2) ∧
      (k = unit → s.dusted (.engine en) = false → done (.dustSheet m) [] (fun t => t.dusted (.engine en) = true ∧ bits (t.flt.last.headD 0) 3 0 = 6)) ∧
      (2 ^ 20 ≤ k → fails (.dustSheet m) 0 1)) ∧
    (inProgress s m 0xC091 i → s.mail.bg = none → k = unit →
      (s.dusted (.engine en) = true → started (.makeGood m) 0xC091 .makeGood (fun t => t.flt.makeGood = some { u := .engine en, seen := [] })) ∧
      (s.dusted (.engine en) = false → fails (.makeGood m) 0 2)) ∧
    (inProgress s m 0xC093 i →
      (1 < k → fails (.salvageMode m) 0 1) ∧
      (k ≤ 1 → ∃ out, out.length = 96 ∧ done (.salvageMode m) out (fun t => t.flt.salvage = true ∧ t.flt.readonly = (k == 1) ∧
        out = t.salvageOut ∧ (s.hpt.fallback = true → sameDevice { t with flt := s.flt } s) ∧
        (s.hpt.fallback = false → ∀ j, (s.q j).state ≠ .disabled → (t.q j).state = .stopped)))) ∧
    (inProgress s m 0xC095 i → k < 2 ^ 23 → srcUnit src su = true → 1 ≤ inNum i 4 4 → inNum i 4 4 ≤ 1000000 →
      (bits (s.sev src kind) 2 0 = 5 → fails (.faultInject m) 0 2) ∧
      (bits (s.sev src kind) 2 0 ≠ 5 → done (.faultInject m) [] (fun t => (srcKey src su kind, BitVec.ofNat 32 (inNum i 4 4)) ∈ t.flt.inject ∧
        (¬(src = 0 ∧ ((s.blk (su / 17)).cell (su % 17)).state = 3) → s.flt.makeGood = none →
          bit (Tab.get 0 t.flt.sticky (512 * src + (su * 8 + kind) / 32)) ((su * 8 + kind) % 32) = true)))) ∧
    (inProgress s m 0xC0A1 i → s.mail.bg = none → k ≤ 262144 → inNum i 4 4 = i.length - 8 → k + inNum i 4 4 ≤ 262144 →
      started (.primerWrite m) 0xC0A1 (.primerWrite k (i.drop 8)) (fun t => sameDevice t s)) ∧
    (inProgress s m 0xC0A3 i → s.mail.bg = none → inNum i 228 28 = 0 →
      (inNum i 4352 4 = 0xCA11B8A7 → started (.calibrationWrite m) 0xC0A3 (.calibration (i.take 4352)) (fun t => sameDevice t s)) ∧
      (inNum i 4352 4 ≠ 0xCA11B8A7 → fails (.calibrationWrite m) 4352 1)) ∧
    (inProgress s m 0xC0B0 i → inNum i 2 2 = 0 →
      (bit s.net.gctl 0 = false → s.anyRuns = false →
        gives (.devnumSet m) { s with xlt := { s.xlt with devnum := BitVec.ofNat 16 (inNum i 0 2) } }) ∧
      (bit s.net.gctl 0 = true ∨ s.anyRuns = true → fails (.devnumSet m) 0 2)) ∧
    (inProgress s m 0xC0B1 i → (v &&& ~~~0x0003FFFF0FFFFF01#64) = 0 → s.domOn 3 = true →
      (s.anyRuns = false → bits v 49 32 * 2 ^ 30 + allMem ≤ 2 ^ 47 →
        gives (.globalModeSet m) { s with xlt := { s.xlt with gctl := v } }) ∧
      (s.anyRuns = true ∨ 2 ^ 47 < bits v 49 32 * 2 ^ 30 + allMem → ∃ t, exec (.globalModeSet m) s = .next t ∧
        answered t m 2 2 (leBytes 4 0 ++ leBytes 4 2) ∧ sameDevice t { s with xlt := { s.xlt with refusals := s.xlt.refusals ||| 1 } })) ∧
    (inProgress s m 0xC0B2 i →
      (8 ≤ k → fails (.memberSet m) 0 1) ∧
      (k < 8 → inNum i 4 4 / 65536 % 32768 = 0 → s.domOn 3 = true → gives (.memberSet m)
        { s with xlt := { s.xlt with member := Tab.set 0 s.xlt.member k (BitVec.ofNat 32 (inNum i 4 4)) } }))

/-! ### Events and attestation -/

/-- R441, R442, R443, R444, R445: the event controller. An arrival raises its source's counter, not past 255, sets its pending bit and, when the
source is enabled, wakes the site processor; sources 413 to 447 have none. EVT_ACK takes each byte off its counter, not below 0. A write of
PENDING, ENABLE, MASK or ROUTE gives it its value. Whatever the cause, each source that starts to fire sends one message on its vector where
nothing holds that, no message goes out when none starts, and nothing but the event controller, what was sent and the held messages changes.
EVT_RAISE is an arrival of sources 448 to 511 only. -/
def Obligations.EventsArriveAndFire : Prop :=
  ∀ (s : State) (n : Fin 512) (a : BitVec 7) (w : BitVec 3) (v : W64) (v2 : W32),
    let e := s.evt
    let makes : Instr → (Events → Prop) → Prop := fun c f => ∃ t, exec c s = .next t ∧ f t.evt ∧
      ({ t with evt := s.evt, sent := s.sent, hpt := s.hpt } : State) = s ∧ ({ t.hpt with pba := s.hpt.pba } : HostPort) = s.hpt ∧
      (∀ j, j < 512 → t.evt.fires j = true → e.fires j = false → vectorOpen s (t.evt.vectorOf j) → .msix (t.evt.vectorOf j) ∈ t.sent) ∧
      ((∀ j, j < 512 → t.evt.fires j = true → e.fires j = true) → t.sent = s.sent)
    let word : BitVec 512 → BitVec 512 → Prop := fun old new =>
      ∀ j, j < 512 → new.getLsbD j = if j / 64 = w.toNat then v.getLsbD (j % 64) else old.getLsbD j
    let comes : Instr → Prop := fun c => makes c (fun x =>
      (∀ j, Tab.get 0 x.cnt j = if j = n.val then BitVec.ofNat 8 (Nat.min ((Tab.get 0 e.cnt j).toNat + 1) 255) else Tab.get 0 e.cnt j) ∧
      x.pending = e.pending ||| (1#512 <<< n.val) ∧ x.siteWakes = (if e.enable.getLsbD n.val then e.siteWakes + 1 else e.siteWakes) ∧
      ({ x with cnt := e.cnt, pending := e.pending, siteWakes := e.siteWakes } : Events) = e)
    (413 ≤ n.val → n.val < 448 → exec (.eventArrival n) s = .next s) ∧
    (n.val < 413 ∨ 448 ≤ n.val → comes (.eventArrival n)) ∧
    (writeTaken s 0 0x1000C0 →
      (bits v2 8 0 < 448 → exec (.evtRaise v2) s = .next s) ∧ (bits v2 8 0 = n.val → 448 ≤ n.val → comes (.evtRaise v2))) ∧
    (writeTaken s 0 (0x101200 + 4 * a.toNat) → ∃ t, exec (.evtAckWrite a v2) s = .next t ∧
      t = { s with evt := { e with cnt := t.evt.cnt } } ∧ ∀ j, (Tab.get 0 t.evt.cnt j).toNat =
        if j / 4 = a.toNat then (Tab.get 0 e.cnt j).toNat - bits v2 (8 * (j % 4) + 7) (8 * (j % 4)) else (Tab.get 0 e.cnt j).toNat) ∧
    (writeTaken s 0 (0x100000 + 8 * w.toNat) → makes (.evtPendingWrite w v) (fun x => word e.pending x.pending ∧ x = { e with pending := x.pending })) ∧
    (writeTaken s 0 (0x100040 + 8 * w.toNat) → makes (.evtEnableWrite w v) (fun x => word e.enable x.enable ∧ x = { e with enable := x.enable })) ∧
    (writeTaken s 0 (0x100080 + 8 * w.toNat) → makes (.evtMaskWrite w v) (fun x => word e.mask x.mask ∧ x = { e with mask := x.mask })) ∧
    (writeTaken s 0 (0x102000 + 4 * n.val) → makes (.evtRouteWrite n v2) (fun x =>
      x = { e with route := Tab.set 0 e.route n.val (v2 &&& 0x800007FF) }))

/-- R482, R483, R484: the SPDM requests, each answered in its turn after GET_VERSION, which begins a connection anew: the capabilities CERT, CHAL and MEAS
with signature, the algorithms ECDSA P-384 and SHA-384 where offered, the digest and the parts of slot 0's chain, a CHALLENGE signed over all
that was said, and the measurements once the firmware runs. A request out of turn is an ERROR, and each receives ERROR Unspecified while the
fallback sequencer runs. Nothing but the connection's state and what was said changes. The layouts of the messages are the model's, and a nonce and
a signature have no fixed value (log 10). -/
def Obligations.AttestationAnswers : Prop :=
  ∀ (s : State) (req : List Byte),
    let d := s.idn
    let heard : Prop := s.cfgServes = true
    let tells : Instr → List Byte → State → Prop := fun c ans u => exec c s = .next { u with sent := s.sent ++ [.spdm ans] }
    let turn : Byte → SpdmState → Nat → Prop := fun code at_ n => heard ∧ s.hpt.fallback = false ∧ req.getD 1 0 = code ∧ d.spdm = at_ ∧
      req.getD 0 0 = 0x12 ∧ n ≤ req.length
    let step' : Instr → SpdmState → List Byte → Prop := fun c dst ans => tells c ans
      { s with idn := { d with spdm := dst, spdmLog := d.spdmLog ++ req ++ ans } }
    let auth : Instr → List Byte → Prop := fun c ans => tells c ans { s with idn := { d with spdmAuth := d.spdmAuth ++ req ++ ans } }
    let chain := s.chain
    let o := leVal ((req.drop 4).take 2)
    let part := (chain.drop o).take (leVal ((req.drop 6).take 2))
    let refused : Instr → Byte → Byte → SpdmState → Prop := fun c code why at_ => req.getD 1 0 = code → heard →
      (s.hpt.fallback = true → tells c [0x12, 0x7F, 5, 0] s) ∧ (s.hpt.fallback = false → d.spdm ≠ at_ → tells c [0x12, 0x7F, why, 0] s)
    (heard → s.hpt.fallback = false → req.getD 1 0 = 0x84 → 4 ≤ req.length →
      tells (.getVersion req) [0x10, 0x04, 0, 0, 0, 1, 0x00, 0x12] { s with idn := { d with
        spdm := .version, spdmLog := req ++ [0x10, 0x04, 0, 0, 0, 1, 0x00, 0x12], spdmAuth := [], spdmMeas := [] } }) ∧
    (heard → s.hpt.fallback = true → req.getD 1 0 = 0x84 → tells (.getVersion req) [0x12, 0x7F, 5, 0] s) ∧
    (turn 0xE1 .version 4 → ∃ ans, step' (.getCapabilities req) .capabilities ans ∧ ans.take 2 = [0x12, 0x61] ∧ (ans.drop 8).take 4 = [0x16, 0, 0, 0]) ∧
    refused (.getCapabilities req) 0xE1 4 .version ∧
    (turn 0xE3 .capabilities 32 → step' (.negotiateAlgorithms req) .algorithms
      ([0x12, 0x63, 0, 0, 36, 0, req.getD 6 0 &&& 1, 0, 4, 0, 0, 0] ++ [req.getD 8 0 &&& 0x80, 0, 0, 0, req.getD 12 0 &&& 2, 0, 0, 0] ++
        List.replicate 16 0)) ∧
    refused (.negotiateAlgorithms req) 0xE3 4 .capabilities ∧
    (turn 0x81 .algorithms 4 → auth (.getDigests req) ([0x12, 0x01, 0, 1] ++ sha384 chain)) ∧
    refused (.getDigests req) 0x81 4 .algorithms ∧
    (turn 0x82 .algorithms 8 → bits (req.getD 2 0) 3 0 = 0 → o < chain.length → auth (.getCertificate req)
      ([0x12, 0x02, 0, 0] ++ leBytes 2 part.length ++ leBytes 2 (chain.length - o - part.length) ++ part)) ∧
    (turn 0x82 .algorithms 8 → bits (req.getD 2 0) 3 0 ≠ 0 → tells (.getCertificate req) [0x12, 0x7F, 1, 0] s) ∧
    refused (.getCertificate req) 0x82 4 .algorithms ∧
    (turn 0x83 .algorithms 36 → bits (req.getD 2 0) 3 0 = 0 → ∃ ans u, tells (.challenge req) (ans ++ signatureOf (d.spdmLog ++ d.spdmAuth ++ req ++ ans)) u ∧
      ans.take 52 = [0x12, 0x03, 0, 1] ++ sha384 chain ∧ u = { s with free := u.free, idn := { d with spdmAuth := [] } }) ∧
    refused (.challenge req) 0x83 4 .algorithms ∧
    (turn 0xE0 .algorithms 4 → s.mail.fw = .running → bit (req.getD 2 0) 0 = false → ∀ i, i = 1 ∨ i = 2 → req.getD 3 0 = BitVec.ofNat 8 i →
      ∃ ans u, tells (.getMeasurements req) ans u ∧ ans.take 5 = [0x12, 0x60, 0, 0, 1] ∧ (ans.drop 15).take 48 = s.measValue i ∧
        u = { s with free := u.free, idn := { d with spdmMeas := d.spdmMeas ++ req ++ ans } }) ∧
    (turn 0xE0 .algorithms 37 → s.mail.fw = .running → bit (req.getD 2 0) 0 = true → req.getD 3 0 = 0xFF → ∃ ans u,
      tells (.getMeasurements req) (ans ++ signatureOf (d.spdmLog ++ (d.spdmMeas ++ req ++ ans))) u ∧ ans.take 5 = [0x12, 0x60, 0, 0, 2] ∧
        (ans.drop 15).take 48 = s.measValue 1 ∧ (ans.drop 70).take 48 = s.measValue 2 ∧ u = { s with free := u.free, idn := { d with spdmMeas := [] } }) ∧
    refused (.getMeasurements req) 0xE0 4 .algorithms

/-! ### Power and clocks (17_power_clocks_startup.md) -/

/-- R451, R453, R454, R459, R460, R461, R462, R466; 15_faults_and_dust_sheets.md R409: the power controller. The first domain that waits comes on, its blocks fresh with the stores
zeroed, its link group training (08_memory_stacks.md R227), and the next begins; a draining domain with nothing left switches off; an idle compute domain whose region gates is gated. Every 10 µs the
cap's average moves S_CAP up when above WATTS, down below 98 % of it, and S_THERM moves with the hottest sensor at every tenth step (log 48); a sensor at 110 degrees is an event. A droop holds its domain's blocks at level 8 or above until its response ends. A PLL out of lock is
an event of its unit. -/
def Obligations.PowerController : Prop :=
  ∀ (s : State) (d : Fin 50) (rest : List Nat) (b : Nat) (currents raw : List W16) (mv : W16) (pll : Fin 7) (g : Background),
    let p := s.pwr
    let x := s.blk b
    let mine : Prop := b ∈ domBlocks d.val
    let sample := (currents.take 50).foldl (fun a c => a + c.toNat) 0 * mv.toNat
    let window := (Nat.min 10000 (Nat.max 10 (bits p.cap 15 0)) + 9) / 10
    let kept := (p.samples ++ [sample]).drop (p.samples.length + 1 - window)
    let total := kept.foldl Nat.add 0
    let unit := kept.length * 10000
    let watts := Nat.min 1400 (Nat.max 400 (bits p.cap 31 16))
    let capped : (State → Prop) → Prop := fun f => ∃ t, exec (.powerCapStep currents mv) s = .next t ∧ t.pwr.samples = kept ∧
      (∀ k, k < 50 → k < currents.length → (t.dom k).current = currents.getD k 0 ∧ (t.dom k).state = (s.dom k).state) ∧ t.sent = s.sent ∧
      t.blocks = s.blocks ∧ (total / unit < 65536 → t.pwr.power.toNat = total / unit) ∧ f t
    let temp : Nat → W16 := fun k => raw.getD k 0 + BitVec.ofNat 16 ((Tab.get 0 p.cal (2 * k)).toNat + 256 * (Tab.get 0 p.cal (2 * k + 1)).toNat)
    let limit : Int := (Nat.min 95 (Nat.max 70 p.therm.toNat) : Nat)
    let warms : (State → Prop) → Prop := fun f => ∃ t, exec (.thermalStep raw) s = .next t ∧ (∀ k, k < 64 → Tab.get 0 t.pwr.temp k = temp k) ∧ f t
    let calm : Prop := ∀ k, k < 64 → (temp k).toInt < 1760
    (p.waking.head? ≠ some d.val → exec (.domainPowerUpComplete d) s = .next s) ∧
    (p.waking = d.val :: rest → d.val ∉ rest → ∃ t, exec (.domainPowerUpComplete d) s = .next t ∧ (t.dom d.val).state = .on ∧ t.pwr.waking = rest ∧
      (∀ k, rest.head? = some k → (t.dom k).state = .poweringUp) ∧
      (∀ y, domKind d.val = .links y → (t.lg y).training = true ∧ (t.lg y).modules = 0x3FF) ∧
      (mine → s.blockDust b = false → (t.blk b).store = Memory.empty ∧ (t.bc b).lines = [] ∧ (t.blk b).mode = s.modeOf (regionOf b) ∧
        (∀ c, c < 17 → ((t.blk b).cell c).good = []) ∧
        (t.blk b).state = if x.task.isSome then .running else if x.reserved.isSome then .skim else .idle) ∧
      (s.mail.bg = some g → g.kind = .domainSet d.val true false → t.mail.bg = some { g with result := some (0, 0) })) ∧
    ((s.dom d.val).state ≠ .draining → exec (.domainDrainComplete d) s = .next s) ∧
    ((s.dom d.val).state = .draining → (∀ r, r < 5 → s.wc r = []) →
      (s.domainBusy d.val = true → exec (.domainDrainComplete d) s = .next s) ∧
      (s.domainBusy d.val = false → ∃ t, exec (.domainDrainComplete d) s = .next t ∧
        t.dom d.val = { (s.dom d.val) with state := .off, cause := 2, current := 0 } ∧
        (mine → s.blockDust b = false → (t.blk b).state = .off) ∧
        (s.mail.bg = some g → g.kind = .domainSet d.val false false → t.mail.bg = some { g with result := some (0, 0) }))) ∧
    (domBlocks d.val = [] → exec (.idleGating d) s = .next s) ∧
    (mine → (s.dom d.val).state = .on → x.state = .idle → (bit (s.modeOf (regionOf b)) 7 || s.hpt.d3hot) = true →
      (∀ k ∈ domBlocks d.val, ((s.blk k).state = .idle ∨ (s.blk k).state = .dustsheet) ∧ (s.blk k).task = none ∧ (s.blk k).reserved = none) →
        ∃ t, exec (.idleGating d) s = .next t ∧ t.dom d.val = { (s.dom d.val) with state := .gated, cause := 1, current := 0 } ∧
          (t.blk b).state = .off) ∧
    (watts * unit < total → capped (fun t => t.pwr.sCap.toNat = Nat.min 16 (p.sCap.toNat + 1))) ∧
    (100 * total < 98 * watts * unit → capped (fun t => t.pwr.sCap.toNat = p.sCap.toNat - 1 ∧ t.pwr.capMiss = false)) ∧
    (total ≤ watts * unit → 98 * watts * unit ≤ 100 * total → capped (fun t => t.pwr.sCap = p.sCap)) ∧
    (64 ≤ raw.length → calm →
      (p.thermSub < 9 → warms (fun t => t.pwr.sTherm = p.sTherm ∧ t.pwr.thermSub = p.thermSub + 1 ∧ t.sent = s.sent)) ∧
      (p.thermSub = 9 →
        (∀ k, k < 64 → 16 * limit ≤ (temp k).toInt → warms (fun t => t.pwr.sTherm.toNat = Nat.min 16 (p.sTherm.toNat + 1) ∧
          (p.sTherm = 0 → ∃ h v, t.sent = s.sent ++ [.fault { g := 11, u := h, k := 0 } 2 s.flt.oclk v]))) ∧
        ((∀ k, k < 64 → (temp k).toInt ≤ 16 * (limit - 3)) → warms (fun t => t.pwr.sTherm.toNat = p.sTherm.toNat - 1 ∧ t.sent = s.sent)))) ∧
    (64 ≤ raw.length → s.flt.thermtripN = true → ∀ k, k < 64 → 1760 ≤ (temp k).toInt →
      warms (fun t => .fault { g := 11, u := BitVec.ofNat 16 k, k := 1 } 2 s.flt.oclk ((temp k).setWidth 64) ∈ t.sent)) ∧
    (s.domOn d.val = true → d.val ∉ p.droops → mine → ∃ t, exec (.droopCrossing d) s = .next t ∧ t.pwr = { p with droops := p.droops ++ [d.val] } ∧
      t.sent = s.sent ++ [.fault { g := 11, u := BitVec.ofNat 16 (64 + d.val), k := 2 } 2 s.flt.oclk 0] ∧ 8 ≤ t.level b) ∧
    (∃ t, exec (.droopResponseEnd d) s = .next t ∧ d.val ∉ t.pwr.droops ∧ t = { s with pwr := { p with droops := t.pwr.droops } } ∧
      (mine → x.state = .skim → t.level b = 0)) ∧
    (exec (.pllLossOfLock pll) s = if s.rst.plls.getLsbD pll.val then
      .next { s with rst := { s.rst with plls := setBit s.rst.plls pll.val false },
                     sent := s.sent ++ [.fault { g := 12, u := BitVec.ofNat 16 pll.val, k := if pll.val = 6 then 1 else 0 } 2 s.flt.oclk 0] }
      else .next s)

/-! ### Resets and the start (17_power_clocks_startup.md) -/

/-- R467, R468, R470, R471, R474 to R477, Tables 17-4, 17-5, 17-8, 17-9; 09_host_port.md R255; 15_faults_and_dust_sheets.md R408: the resets. POR_N's fall loses all but the flash; at PD0's start the fuses are loaded, checked,
and counting begins; PERST_N's rise starts the core; the primer or the fuse defaults are taken; the domains switch on in order, and configuration
space and the mailboxes are ready after the last. A warm reset drains, then walks, resets the core and starts again, unless WARM_RST_N holds it; a
conventional one waits for PERST_N with every domain but PD0 off. -/
def Obligations.ResetsAndStarts : Prop :=
  ∀ (s : State) (supply ok : Bool) (fuses : Fuses) (low d : Nat) (conv : Bool),
    let r := s.rst
    let gives : Instr → Reset → Prop := fun c x => exec c s = .next { s with rst := x }
    let starting : State → Prop := fun t => t.rst.phase = .start ∧ t.rst.steps = 0 ∧ t.rst.plls = 0x7F ∧ (t.dom 1).state = .on ∧ (t.dom 2).state = .on
    let cleared : State → Prop := fun t => t.que.que = [] ∧ t.net = Net.init ∧ t.evt = Events.init ∧ t.skm.lane = [] ∧ t.mail.mb = [] ∧
      t.mail.bg = none ∧ t.mail.fw = .empty ∧ t.blocks.thr = [] ∧ t.blocks.kernels = [] ∧ t.pwr.modes = 0x8080808080 ∧ t.flt.hb = 0 ∧
      (∀ b, (t.bc b).lines = []) ∧ ∀ k, k < 5 → (t.rc k).lines = []
    let deadline : (State → Prop) → Prop := fun f => ∃ t, exec .warmResetDrainDeadline s = .next t ∧ cleared t ∧ f t ∧
      (cachesEmpty s → s.stillBuffered = 0 → t.stk.mem = s.stk.mem ∧ t.pwr.flash = s.cutWrite.pwr.flash ∧ t.idn.fuses = s.idn.fuses ∧
        t.pwr.lostStores = s.pwr.lostStores ∧ (bits s.flt.chip 26 24 ≠ 5 → t.flt.chip = 0 ∧ t.flt.faultT = false ∧ t.hpt.fatal = false) ∧
        (bits s.flt.chip 26 24 = 5 → bits s.flt.chip 23 20 ≠ 13 → t.flt.chip = s.flt.chip ∧ t.hpt.fatal = true) ∧
        t.flt.dust = if conv then [] else s.flt.dust)
    let good := ok && s.primerOk
    let steps : (State → Prop) → Prop := fun f => ∃ t, exec .domainSequenceStep s = .next t ∧ f t
    (∃ t, exec (.powerOnReset supply) s = .next t ∧ t.rst.phase = .porLow ∧ t.rst.pwrgd = supply ∧ t.rst.stopped = false ∧ t.rst.pd0Ready = false ∧
      (∀ k, k < 50 → (t.dom k).state = .off) ∧ t.blocks = State.reset.blocks ∧ t.coh = State.reset.coh ∧ t.que = State.reset.que ∧
      t.net = State.reset.net ∧ t.skm = State.reset.skm ∧ t.mail = State.reset.mail ∧ t.snag = State.reset.snag ∧ t.flt.chip = 0 ∧
      t.flt.sticky = [] ∧ t.stk.mem.cells = [] ∧ t.hpt.memActive = false ∧ t.pwr.flash = s.cutWrite.pwr.flash ∧ t.pending = s.pending) ∧
    (r.phase ≠ .porLow ∨ r.pwrgd = false → exec (.pd0Start fuses) s = .next s) ∧
    (r.phase = .porLow → r.pwrgd = true → ∃ t, exec (.pd0Start fuses) s = .next t ∧ t.rst.pd0Ready = true ∧ t.flt.oclk = 0 ∧ t.flt.driven = true ∧
      t.flt.faultT = false ∧ t.flt.faultC = true ∧ t.flt.thermtripN = true ∧ (t.dom 0).state = .on ∧ t.idn.fuses = fuses ∧
      t.idn.fuseBad = !(dsnOk fuses.dsn) ∧
      (dsnOk fuses.dsn = false → t.sent = s.sent ++ [.fault { g := 14, u := 0, k := 0 } 2 0 0]) ∧
      (∀ b, b < 100 → fuses.spare.find? (fun e => e.1.val == b) = none → (t.blk b).spareFused = false ∧ (t.blk b).lost = 0) ∧
      (r.perstHigh = false → t.rst.phase = .pd0Ready) ∧
      (r.perstHigh = true → s.idn.tapHolds = false → starting t) ∧
      (r.perstHigh = true → s.idn.tapHolds = true → t.rst.phase = .pd0Ready ∧ t.idn.tapCoreHeld = true)) ∧
    (r.stopped = false → (r.phase = .pd0Ready ∨ r.phase = .held true) → s.idn.tapHolds = false →
      ∃ t, exec (.coreStart) s = .next t ∧ starting t ∧ t.rst.perstHigh = true) ∧
    (r.phase = .none → gives .coreStart { r with perstHigh := true }) ∧
    (r.stopped = false → r.phase = .start → r.steps = 0 → (s.dom 3).state ≠ .on → ∃ t, exec (.primerCheck ok) s = .next t ∧ t.rst = { r with steps := 1 } ∧
      t.idn.primerDefaulted = !good ∧
      (good = false → t.xlt.devnum = 0 ∧ t.hpt.cfg.ssvid = 0xD2A9 ∧ t.hpt.cfg.ssid = 0x9620 ∧ t.pwr.cap = 0x05780064 ∧ t.pwr.therm = 95 ∧
        t.pwr.populated = BitVec.allOnes 20 ∧ t.pwr.askSpread = false ∧ t.net.pfxL = 0 ∧ t.net.pfxH = 0 ∧ (∀ p, p < 10 → (t.nport p).mode = 0) ∧
        (∀ k, k < 20 → (t.ifc k).mac = 0) ∧ t.idn.meas1 = 0 ∧ t.sent = s.sent ++ [.fault { g := 14, u := 1, k := 1 } 2 s.flt.oclk 0]) ∧
      (good = true → t.idn.meas1 = digestWord (sha384 (s.flashRead 0 s.imageLen)) ∧ t.sent = s.sent)) ∧
    (r.stopped = false → r.phase = .start →
      (startOrder[r.steps - 1]? = some d → 1 ≤ r.steps → s.unpopulated d = false → (s.dom d).state ≠ .failed →
        steps (fun t => (t.dom d).state = .on ∧ t.rst = { r with steps := r.steps + 1 })) ∧
      (startOrder[r.steps - 1]? = some d → 1 ≤ r.steps → s.unpopulated d = true → (s.dom d).state ≠ .failed →
        steps (fun t => (t.dom d).state = .off ∧ (t.dom d).cause = 7 ∧ t.rst = { r with steps := r.steps + 1 })) ∧
      (r.steps = 48 → steps (fun t => t.rst.phase = .none ∧ t.hpt.mbReady = true ∧ t.hpt.cfg.ready = true ∧ t.pwr = s.pwr))) ∧
    (low < 50 ∨ r.pd0Ready = false → exec (.warmRstPin low) s = .next s) ∧
    (50 ≤ low → r.pd0Ready = true → r.stopped = false →
      (r.phase = .none → ∃ t, exec (.warmRstPin low) s = .next t ∧ drains t false ∧ t.rst.warmLow = true) ∧
      (r.phase ≠ .none → gives (.warmRstPin low) { r with warmLow := true })) ∧
    (r.stopped = false →
      (r.phase = .held false → ∃ t, exec .warmRstPinRelease s = .next t ∧ starting t ∧ t.rst.warmLow = false) ∧
      (r.phase ≠ .held false → gives .warmRstPinRelease { r with warmLow := false }) ∧
      ((r.phase = .none ∨ r.phase = .start) → ∃ t, exec .conventionalReset s = .next t ∧ drains t true ∧ t.rst.perstHigh = false)) ∧
    (r.stopped = false → r.phase = .drain conv →
      (conv = false → r.warmLow = false → deadline starting) ∧
      (conv = false → r.warmLow = true → deadline (fun t => t.rst.phase = .held false)) ∧
      (conv = true → r.perstHigh = false → deadline (fun t => t.rst.phase = .held true ∧ ∀ k, 1 ≤ k → k < 50 → (t.dom k).state = .off)) ∧
      (conv = true → r.perstHigh = true → s.idn.tapHolds = false → deadline starting))

/-! ### Modules, the board bus, the test access port and the registers -/

/-- R485, R486, R487, R488, R501, R502, R503, R504, R506, R507; 17_power_clocks_startup.md R469, R472: modules and the board. A module whose identity is read takes the hours of its serial, or starts at 0; one that cannot be read
leaves its interfaces down and is an event, as is reaching 90 % of the rated life and the rated life. Each transaction selects the module on its bus, MOD0
for ports 0 to 4 and MOD1 for 5 to 9. Failed lanes of one half narrow a port in mode 0. The
life records are written with a new check word. The board bus answers at 0x58 + BRD_ADDR once PD0 is ready and reads registers from a pointer that
advances; the TAP's EXTEST, CLAMP and HIGHZ take the pins only while PERST_N is low, and IDCODE reads 0xB962_0553. -/
def Obligations.ModulesAndBoard : Prop :=
  ∀ (s : State) (p : Fin 10) (md : ModuleId) (e : Life) (lanes : BitVec 4) (hours : W32) (addr : BitVec 7) (ptr : W16) (reg n off off6 : Nat),
    let q := p.val
    let x := s.modl q
    let d := s.idn
    let lost : Nat → Emit := fun k => .fault { g := 8, u := BitVec.ofNat 16 q, k := BitVec.ofNat 3 k } 2 s.flt.oclk 0
    let down : State → Prop := fun t => (t.ifc (2 * q)).up = false ∧ (t.ifc (2 * q + 1)).up = false
    let rated := if md.rated = 0 ∨ md.rated = 0xFFFFFFFF then BitVec.ofNat 32 (bits d.optCtl 31 16) else md.rated
    let comes : (State → Prop) → Prop := fun f => ∃ t, exec (.modulePresent p (some md)) s = .next t ∧ (t.modl q).id = some md ∧
      (t.modl q).inserted = true ∧ (t.modl q).rated = rated ∧ (t.modl q).failedLanes = 0 ∧ (t.modl q).lastSerial = md.serial ∧
      (t.modl q).rstLow = false ∧ (t.modl q).lpm = false ∧ t.idn.modsel = s.selected q ∧ f t
    let talks := s.sent ++ [Emit.module (q / 5) (if s.busSlow (q / 5) then 400 else 1000) (s.selected q)]
    let flags : (State → Prop) → Prop := fun f => ∃ t, exec (.moduleInterrupt p lanes) s = .next t ∧ t.idn = { d with modsel := s.selected q } ∧
      talks.IsPrefix t.sent ∧ f t
    let len := s.imageLen
    let table := d.life.flatMap Life.bytes ++ zeros (32 * (32 - d.life.length))
    let body := s.flashRead 0 off6 ++ table ++ s.flashRead (off6 + 1024) (len - 4 - off6 - 1024)
    let takes : Instr → TapInstr → Prop := fun c j => d.tapHolds = false →
      (s.rst.perstHigh = false → exec c s = .next { s with idn := { d with tap := j, tapHolds := true } }) ∧
      (s.rst.perstHigh = true → d.tapCoreHeld = false → exec c s = .next { s with idn := { d with tap := j } })
    let leavesPins : Instr → TapInstr → List Emit → Prop := fun c j out => d.tap ≠ j →
      (d.tapCoreHeld = false → exec c s = .next { s with idn := { d with tap := j, tapHolds := false }, sent := s.sent ++ out }) ∧
      (d.tapCoreHeld = true → s.rst.perstHigh = true → s.rst.stopped = false → s.rst.phase = .pd0Ready → ∃ t, exec c s = .next t ∧
        t.idn.tap = j ∧ t.idn.tapHolds = false ∧ t.idn.tapCoreHeld = false ∧ t.rst.phase = .start ∧ t.rst.steps = 0)
    (s.rst.pd0Ready = true → x.inserted = false →
      (∃ t, exec (.modulePresent p none) s = .next t ∧ t.modl q = { x with id := none, inserted := true, rstLow := false, lpm := true } ∧ down t ∧
        lost 2 ∈ t.sent) ∧
      (x.lastSerial = 0 ∨ x.lastSerial = md.serial →
        (s.lifeOf md.serial = none → d.life.length < 32 → rated ≠ 0 → comes (fun t => (t.modl q).hours = 0 ∧ t.sent = talks ∧
          t.idn.life = d.life ++ [{ serial := md.serial, hours := 0, rated := rated, warned := false, expired := false, age := 0 }])) ∧
        (s.lifeOf md.serial = some e → e.warned = true → e.expired = true → comes (fun t => (t.modl q).hours = e.hours ∧ (t.modl q).warned = true ∧
          (t.modl q).expired = true ∧ t.sent = talks)))) ∧
    (x.inserted = true → (x.id = none ∨ lanes = 0) → flags (fun t => t.modl q = x ∧ t.net = s.net ∧ t.sent = talks)) ∧
    (x.inserted = false → exec (.moduleRemoved p) s = .next s) ∧
    (x.inserted = true → ∃ t, exec (.moduleRemoved p) s = .next t ∧ t.modl q = { Module.init with lastSerial := x.lastSerial } ∧ down t) ∧
    (x.inserted = true → x.id = some md → lanes ≠ 0 →
      ((s.nport q).mode = 0 → bit d.optCtl 0 = true →
        (lanes &&& 12 = 0 ∨ lanes &&& 3 = 0 → flags (fun t => t.nport q = { mode := if lanes &&& 12 = 0 then 3 else 2, narrowed := true } ∧ down t ∧ lost 2 ∈ t.sent ∧
          (t.modl q).failedLanes = x.failedLanes ||| lanes)) ∧
        (lanes &&& 12 ≠ 0 → lanes &&& 3 ≠ 0 → flags (fun t => t.nport q = s.nport q ∧ (t.ifc (2 * q)).up = false))) ∧
      ((s.nport q).mode = 1 → flags (fun t => t.nport q = s.nport q ∧
        (t.modl q).failedLanes = x.failedLanes ||| lanes ∧ (lanes &&& 3 ≠ 0 → (t.ifc (2 * q)).up = false) ∧
        (lanes &&& 12 ≠ 0 → (t.ifc (2 * q + 1)).up = false) ∧ (lanes &&& 12 = 0 → t.ifc (2 * q + 1) = s.ifc (2 * q + 1))))) ∧
    (x.id = some md → x.hours.toNat < hours.toNat → ∃ t, exec (.laserHoursUpdate p hours) s = .next t ∧ (t.modl q).hours = hours ∧
      (9 * x.rated.toNat ≤ 10 * hours.toNat → (t.modl q).warned = true ∧ (x.warned = false → lost 0 ∈ t.sent)) ∧
      (x.rated.toNat ≤ hours.toNat → (t.modl q).expired = true ∧ (x.expired = false → lost 1 ∈ t.sent)) ∧
      (10 * hours.toNat < 9 * x.rated.toNat → x.sinceWrite.toNat + (hours.toNat - x.hours.toNat) < 168 → t.sent = s.sent ∧ t.pwr = s.pwr)) ∧
    (s.primerOk = false → exec .lifeRecordWrite s = .next s) ∧
    (s.primerOk = true → s.primerDir.find? (fun k => k.1 == 6) = some (6, off6, 1024) → off6 + 1024 ≤ len - 4 → d.life.length ≤ 32 →
      ∃ t, exec .lifeRecordWrite s = .next t ∧ t.flashRead 0 (len - 4) = body ∧ t.flashRead (len - 4) 4 = leBytes 4 (crc32c body).toNat ∧
        t.sent = s.sent ++ [.flash len] ∧ t.idn = d) ∧
    (s.rst.pd0Ready = true →
      (addr.toNat = 0x58 + d.brdAddr.toNat → exec (.boardBusPointerWrite addr ptr) s = .next { s with idn := { d with ptr := ptr, latch := [] } }) ∧
      (addr.toNat ≠ 0x58 + d.brdAddr.toNat → exec (.boardBusPointerWrite addr ptr) s = .next { s with sent := s.sent ++ [.boardNak] }) ∧
      (boardMap d.ptr.toNat = some (reg, n, off) → d.ptr.toNat = reg → d.latch = [] → exec (.boardBusRead n) s =
        .next { s with idn := { d with ptr := d.ptr + BitVec.ofNat 16 n }, sent := s.sent ++ [.board ((List.range n).map (fun k => s.regByte (off + k)))] }) ∧
      (boardMap d.ptr.toNat = none → d.latch = [] → exec (.boardBusRead 1) s =
        .next { s with idn := { d with ptr := d.ptr + 1 }, sent := s.sent ++ [.board [0]] })) ∧
    (s.rst.pd0Ready = false → exec (.boardBusPointerWrite addr ptr) s = .next { s with sent := s.sent ++ [.boardNak] } ∧
      exec (.boardBusRead n) s = .next { s with sent := s.sent ++ [.boardNak] }) ∧
    leavesPins .tapReset .idcode [] ∧ leavesPins .idcode .idcode [.tdo 0xB9620553] ∧ leavesPins .bypass .bypass [] ∧
    leavesPins .samplePreload .sample [] ∧ takes .extest .extest ∧ takes .clamp .clamp ∧ takes .highz .highz

/-- R10, R11, R12, R13, R237, R240, R241, R256, R293: writes and reads of registers by the host. A write that is narrow or misaligned is discarded and logged, as is one to a
register whose domain is off; during a function-level reset it is only discarded. Registers of each window take their writes under their reserved
bits; the half of a 64-bit register that is latched waits for the other; a sticky bit clears where a 1 is written; a write of a queue's page in BAR2
is its doorbell. A read returns the value, and a counter marked RC is 0 after it; it reads as all ones where the domain is off, as 0 in BAR2, and ends as an
Unsupported Request during a function-level reset. -/
def Obligations.RegisterAccesses : Prop :=
  ∀ (s : State) (off : W32) (size : Nat) (v : W64) (bar : Bar) (q : Fin 1024) (n : Nat),
    let w : Nat → Nat → Instr := fun o k => .registerWrite .bar0 (BitVec.ofNat 32 o) k v
    let v32 : W32 := v.setWidth 32
    let takes : Nat → Nat → Nat → State → Prop := fun d o k u => writeTaken s d o → exec (w o k) s = .next u
    let logged : Instr → Nat → Prop := fun c code => exec c s = .next { s with sent := s.sent ++ [.fault { g := 5, u := 0, k := 0 } 2 s.flt.oclk
      (BitVec.ofNat 64 (code * 2 ^ 56 + off.toNat))] }
    let reads : Nat → Nat → Nat → W64 → State → Prop := fun d o k x u => s.hpt.flr = false → s.hpt.d3hot = false → s.answers d o = true →
      exec (.rcCounterRead ⟨.bar0, BitVec.ofNat 32 o⟩ k) s = .next { u with sent := s.sent ++ [.readDone (BitVec.ofNat 32 o) x] }
    (s.hpt.flr = true → exec (.registerWrite bar off size v) s = .next s) ∧
    (s.hpt.flr = false → (size ≠ 4 ∧ size ≠ 8) ∨ off.toNat % size ≠ 0 → logged (.registerWrite bar off size v) 1) ∧
    (s.hpt.flr = false → s.hpt.d3hot = false → s.domOn 4 = false → off.toNat = 0x510000 + 0x104 + 0x40 * n → n < 16 →
      logged (.registerWrite .bar0 off 4 v) 2) ∧
    takes 0 0x130008 4 { s with pwr := { s.pwr with cap := v32 } } ∧
    takes 0 0x130010 4 { s with pwr := { s.pwr with therm := v.setWidth 8 } } ∧
    takes 0 0x130020 4 { s with pwr := { s.pwr with idle := v32 } } ∧
    takes 0 0x110010 4 { s with flt := { s.flt with fenceTimeout := v32 } } ∧
    (n < 8192 → takes 0 (0x118000 + 4 * n) 4 { s with flt := { s.flt with
      sticky := Tab.set 0 s.flt.sticky n (Tab.get 0 s.flt.sticky n &&& ~~~v32) } }) ∧
    takes 0 0x140010 4 { s with idn := { s.idn with optCtl := v32 &&& 0xFFFF0001 } } ∧
    takes 2 0x200000 4 { s with que := { s.que with staleWait := v.setWidth 16 } } ∧
    (n < 8 → takes 3 (0x310040 + 8 * n) 4 { s with xlt := { s.xlt with member := Tab.set 0 s.xlt.member n (v32 &&& 0x8000FFFF) } }) ∧
    takes 13 0x400020 8 { s with net := { s.net with cc := v, ccLow := v32 } } ∧
    takes 13 0x400020 4 { s with net := { s.net with ccLow := v32 } } ∧
    takes 13 0x400024 4 { s with net := { s.net with cc := BitVec.ofNat 64 (v32.toNat * 2 ^ 32 + s.net.ccLow.toNat) } } ∧
    (n < 16 → takes 4 (0x510104 + 0x40 * n) 4 (s.setLane n { s.lane n with ci := v.setWidth 16 })) ∧
    takes 2 0x8010 4 { s with hpt := { s.hpt with lpm := v32 &&& 0xFFFFFF06 } } ∧
    (n < 5 → takes (10 + 9 * n) (0x1000008 + 0x400000 * n) 4 (s.setMap n { s.map n with rspTimeout := v32 })) ∧
    (s.hpt.flr = false → s.domOn 2 = true → exec (.registerWrite .bar2 (BitVec.ofNat 32 (4096 * q.val)) 4 v) s = exec (.queDoorbell q v32) s) ∧
    (s.hpt.flr = true ∨ s.hpt.d3hot = true → exec (.rcCounterRead ⟨bar, off⟩ size) s = .next { s with sent := s.sent ++ [.readUr off] }) ∧
    (s.hpt.flr = false → s.hpt.d3hot = false → exec (.rcCounterRead ⟨.bar2, off⟩ size) s = .next { s with sent := s.sent ++ [.readDone off 0] }) ∧
    reads 0 0x130018 4 (s.pwr.lostStores.setWidth 64) { s with pwr := { s.pwr with lostStores := 0 } } ∧
    reads 0 0x130008 4 (s.pwr.cap.setWidth 64) s ∧
    (n < 16 → reads 0 (0x120100 + 4 * n) 4 ((Tab.get 0 s.snag.lost n).setWidth 64) { s with snag := { s.snag with lost := Tab.set 0 s.snag.lost n 0 } }) ∧
    (n < 16 → reads 4 (0x510108 + 0x40 * n) 8 (s.lane n).cMatch (s.setLane n { s.lane n with cMatch := 0 })) ∧
    (n < 16 → s.hpt.flr = false → s.hpt.d3hot = false → s.domOn 4 = false → exec (.rcCounterRead ⟨.bar0, BitVec.ofNat 32 (0x510108 + 0x40 * n)⟩ 8) s =
      .next { s with sent := s.sent ++ [.readDone (BitVec.ofNat 32 (0x510108 + 0x40 * n)) (BitVec.allOnes 64)] })

/-! ### The whole block -/

/-- The step on an empty queue, the model's own (log 1): one OCLK cycle passes. FLT_OCLK counts it once PD0 runs, SKM_NCLK counts 27 NCLK cycles in every two
while its domain is on and its PLL is locked, and nothing else moves but the cycles of the blocks that have a task. -/
def Obligations.IdleStepPassesOneCycle : Prop :=
  ∀ s : State, s.pending = [] →
    (s.rst.pd0Ready = false → step s = .next s) ∧
    (s.rst.pd0Ready = true → ∃ t, step s = .next t ∧ t.flt = { s.flt with oclk := s.flt.oclk + 1 } ∧
      t.skm = (if s.domOn 4 && s.rst.plls.getLsbD 4 then
        { s.skm with nclk := s.skm.nclk + (if s.skm.half then 14 else 13), half := !s.skm.half } else s.skm) ∧
      ({ t with flt := s.flt, skm := s.skm, blocks := s.blocks } : State) = s ∧
      (∀ b, ({ t.blk b with aclk := (s.blk b).aclk } : Block) = s.blk b ∧ ((s.blk b).task = none → t.blk b = s.blk b)) ∧
      t.blocks.kernels = s.blocks.kernels ∧ ∀ b k, ({ t.thr b k with cycles := (s.thr b k).cycles } : Thread) = s.thr b k)

/-- R263, R284, R306, R346, R394, R422, R447, R478, R489 and the register tables of their windows: right after reset each register reads what its table's reset column
gives, here one or more of every window; every domain is on, every queue disabled, every lane disarmed, the firmware slot empty. The invariants of
the memories hold there. -/
def Obligations.ResetReadsTheResetColumns : Prop :=
  (∀ x ∈ ([(0x100000,8,0),(0x100040,8,0),(0x100080,8,0xFFFFFFFFFFFFFFFF),(0x1000B8,8,0xFFFFFFFFFFFFFFFF),(0x101000,4,0),
       (0x110000,8,0),(0x110008,4,0),(0x110010,4,0xFA0),(0x110014,4,0),(0x110018,8,0),
       (0x120000,8,0),(0x120008,4,0x50),(0x120010,4,0),(0x120018,8,0x100000),
       (0x130000,8,0x8080808080),(0x13000C,4,0),(0x130018,4,0),(0x130020,4,0x64),(0x130100,4,1),(0x1301C4,4,1),
       (0x140000,4,0),(0x140010,4,0xAB180001)] ++
      [(0x200000,4,0xC8),(0x201000,8,0),(0x201010,8,0x04000000),(0x201020,4,0),(0x201028,8,0x10000),
       (0x310000,8,0),(0x310010,8,0),(0x310038,4,0x3E8),(0x310080,4,0),
       (0x400000,8,0xBDEC0003FFFFFFC0),(0x400020,8,0x02001F4010428028),(0x400028,4,0x0840140A),(0x400040,4,0),
       (0x500008,4,0x00643281),(0x500010,4,0),(0x510000,8,0),(0x510020,4,0),(0x510100,4,0),(0x510108,8,0)] ++
      [(0x2000008,4,0x2710),(0x2000100,4,2),(0x1100000,4,0x300),(0x1100008,4,0x108000),(0x1200000,4,0x100001),(0x1200008,4,0x3FF),
       (0x8000,4,0),(0x8010,4,0x401906),(0x2800000,4,0x74),(0x3000000,4,0xF4),(0x2800004,4,0)] : List (Nat × Nat × Nat)),
    (State.reset.regLoad x.1 x.2.1).1.toNat = x.2.2) ∧
  (∀ q, (State.reset.q q).state = .disabled) ∧ (∀ l, (State.reset.lane l).state = .disarmed) ∧ (∀ d, (State.reset.dom d).state = .on) ∧
  State.reset.mail.fw = .empty ∧ State.reset.pending = [] ∧ memoriesCanonical State.reset ∧ ∀ b, (State.reset.blk b).store.wf = true

/-- Whatever the state, a step leaves device memory and host memory, as sparse tables, in their canonical form: addresses rise strictly and no entry equals
what an unlisted address reads as, so that equal memories are equal data. -/
def Obligations.EveryStepKeepsMemoriesCanonical : Prop :=
  ∀ s t : State, memoriesCanonical s → step s = .next t → memoriesCanonical t

/-- R481, Table 17-4, R474: every command of the block completes from every state, whatever its operands: its meaning answers a next state. That
state has the queue of waiting commands as it was, from which a step takes exactly the front one, and the fuses too: they change only when
POR_N falls and when PD0 starts. -/
def Obligations.FusesAndQueueStand : Prop :=
  ∀ (c : Instr) (s : State), ∃ t, exec c s = .next t ∧ t.pending = s.pending ∧ (loadsFuses c = false → t.idn.fuses = s.idn.fuses)

/-- R466, R474 to R477, R507: the reset state, which holds the reset that runs, how far a start has come, the pins and the locked PLLs, moves at the reset and
start commands, the loss of the supply or of a lock, and the test access port's instructions, and at no other command of the block. -/
def Obligations.OnlyResetsMoveTheResetState : Prop :=
  ∀ (c : Instr) (s t : State), exec c s = .next t → movesReset c = false → t.rst = s.rst

/-! ### Rules stated whole -/

/-- R446: EVT returns to its reset values at a power-on reset, at a conventional and at a warm one, and at an FLR; the reset values are no
arrival counted, nothing pending or enabled, every source masked, and no route. -/
def Obligations.EventControllerReturnsToReset : Prop :=
  ∀ (s : State) (supply conv : Bool),
    let reset : State → Prop := fun t => (∀ n, Tab.get 0 t.evt.cnt n = 0) ∧ t.evt.pending = 0 ∧ t.evt.enable = 0 ∧
      t.evt.mask = BitVec.allOnes 512 ∧ ∀ n, Tab.get 0 t.evt.route n = 0
    (∃ t, exec (.powerOnReset supply) s = .next t ∧ reset t) ∧
    (s.rst.stopped = false → s.rst.phase = .drain conv → ∃ t, exec .warmResetDrainDeadline s = .next t ∧ reset t) ∧
    (s.rst.stopped = false → s.rst.phase = .held false → ∃ t, exec .conventionalReset s = .next t ∧ reset t) ∧
    (s.hpt.flr = true → ∃ t, exec .flrComplete s = .next t ∧ reset t)

/-- R400: an event of a unit under a dust sheet sets its sticky bit, and causes no reaction, no promotion and no snag record: but for the
sticky bit and what the collector holds of the source's level and detail, nothing changes. An event of a unit that MAKE_GOOD tests goes to
the test (R412), and a cell of STATE 3 reports nothing (R410). -/
def Obligations.DustSheetedUnitsStayQuiet : Prop :=
  ∀ (s : State) (src : Src) (rails : BitVec 2) (oclk d : W64),
    let g := src.g.toNat
    let u := src.u.toNat
    let sticks : State → Nat → Prop := fun t k => bit (Tab.get 0 t.flt.sticky (512 * g + (u * 8 + k) / 32)) ((u * 8 + k) % 32) = true
    rails ≠ 1 → srcUnit g u = true → s.covered g u = true → s.flt.makeGood = none → ¬(g = 0 ∧ ((s.blk (u / 17)).cell (u % 17)).state = 3) →
      ∃ t, exec (.faultSourceEvent src rails oclk d) s = .next t ∧
        t = { s with flt := { s.flt with sticky := t.flt.sticky, src := t.flt.src } } ∧
        sticks t src.k.toNat ∧ (rails = 0 ∨ rails = 3 → sticks t 7) ∧
        ∀ g' u' k', ({ t.srcSt g' u' k' with level := (s.srcSt g' u' k').level, detail := (s.srcSt g' u' k').detail } : SrcState) = s.srcSt g' u' k'

/-- R477: resets and forced events that meet. POR_N's fall ends every sequence at once, without a walk. PERST_N's fall during a warm reset
makes it a conventional one at its current row. A second warm-reset trigger during a warm reset is ignored. While WARM_RST_N is low the
reset is held at the walk's end, and its release goes on. PWRGD's fall forces every domain but PD0 off, which is GRAVE (group 11, kind
4), and the device then stays stopped until POR_N falls. -/
def Obligations.ResetsThatMeet : Prop :=
  ∀ (s : State) (supply ok : Bool) (fuses : Fuses) (low : Nat) (g : Background),
    let r := s.rst
    let warm : Prop := r.phase = .drain false ∨ r.phase = .held false
    let stays : Instr → Prop := fun c => ∃ t, exec c s = .next t ∧ t.rst.phase = r.phase ∧ t.rst.steps = r.steps
    (∃ t, exec (.powerOnReset supply) s = .next t ∧ t.rst.phase = .porLow ∧ t.rst.stopped = false ∧ t.coh = State.reset.coh ∧
      t.stk.mem.cells = [] ∧ t.sent = s.sent) ∧
    (r.stopped = false →
      (r.phase = .drain false → exec .conventionalReset s = .next { s with rst := { r with perstHigh := false, phase := .drain true } }) ∧
      (r.phase = .held false → ∃ t, exec .conventionalReset s = .next t ∧ t.rst.phase = .held true)) ∧
    (warm →
      (50 ≤ low → r.pd0Ready = true → exec (.warmRstPin low) s = .next { s with rst := { r with warmLow := true } }) ∧
      exec .warmResetRequestDelay s = .next { s with mail := { s.mail with resetAsked := false } } ∧
      (s.mail.bg = some g → g.kind = .warmReset → stays .warmResetAbortDeadline)) ∧
    (r.stopped = false → r.phase = .drain false → r.warmLow = true →
      ∃ t, exec .warmResetDrainDeadline s = .next t ∧ t.rst.phase = .held false ∧ t.rst.warmLow = true) ∧
    (r.stopped = false → r.phase = .held false →
      ∃ t, exec .warmRstPinRelease s = .next t ∧ t.rst.phase = .start ∧ t.rst.steps = 0 ∧ t.rst.warmLow = false) ∧
    (r.pwrgd = false → exec .pwrgdLoss s = .next s) ∧
    (r.pwrgd = true → ∃ t, exec .pwrgdLoss s = .next t ∧ t.rst = { r with pwrgd := false, stopped := true } ∧
      .fault { g := 11, u := 114, k := 4 } 2 s.flt.oclk 0 ∈ t.sent ∧ ∀ k, 1 ≤ k → k < 50 → (t.dom k).state = .off ∨ (t.dom k).state = .failed) ∧
    (r.stopped = true → r.phase ≠ .porLow →
      ∀ c ∈ [Instr.coreStart, .conventionalReset, .primerCheck ok, .domainSequenceStep, .warmRstPin low, .warmRstPinRelease, .warmResetDrainDeadline,
        .warmResetRequestDelay, .warmResetAbortDeadline, .pd0Start fuses], ∃ t, exec c s = .next t ∧ t.rst.phase = r.phase ∧ t.rst.steps = r.steps ∧
          t.rst.stopped = true)
end

