-- ==== Sys2Proof/Laws/Tab.lean ====
section
/-! SUPPORT. The laws of a sparse table: what a read after a write gives, and that writing keeps the canonical form. -/
namespace Sys2Proof

/-- No number of a table lies at or below k. -/
def Tab.above {α : Type} (k : Nat) (t : Tab α) : Prop := ∀ c ∈ t, k < c.1

theorem Tab.get_cons {α : Type} (d : α) (i : Nat) (v : α) (t : Tab α) (k : Nat) :
    Tab.get d ((i, v) :: t) k = if i = k then v else Tab.get d t k := rfl

theorem Tab.del_cons {α : Type} (i : Nat) (v : α) (t : Tab α) (k : Nat) :
    Tab.del ((i, v) :: t) k = if i = k then Tab.del t k else (i, v) :: Tab.del t k := rfl

theorem Tab.ins_cons {α : Type} (i : Nat) (w : α) (t : Tab α) (k : Nat) (v : α) :
    Tab.ins ((i, w) :: t) k v = if k < i then (k, v) :: (i, w) :: t else (i, w) :: Tab.ins t k v := rfl

theorem Tab.get_del_same {α : Type} (d : α) (t : Tab α) (k : Nat) : Tab.get d (Tab.del t k) k = d := by
  induction t with
  | nil => rfl
  | cons c t ih =>
    rw [Tab.del_cons]
    split
    · exact ih
    · rw [Tab.get_cons, if_neg (by assumption)]; exact ih

theorem Tab.get_del_ne {α : Type} (d : α) (t : Tab α) (k j : Nat) (h : j ≠ k) : Tab.get d (Tab.del t k) j = Tab.get d t j := by
  induction t with
  | nil => rfl
  | cons c t ih =>
    rw [Tab.del_cons, Tab.get_cons d c.1 c.2]
    split
    · rw [ih, if_neg (by omega)]
    · rw [Tab.get_cons, ih]

theorem Tab.mem_del {α : Type} (t : Tab α) (k : Nat) (c : Nat × α) : c ∈ Tab.del t k ↔ c ∈ t ∧ c.1 ≠ k := by
  induction t with
  | nil => simp [Tab.del]
  | cons e t ih =>
    obtain ⟨i, v⟩ := e
    rw [Tab.del_cons]
    by_cases h : i = k
    · rw [if_pos h, ih, List.mem_cons]
      constructor
      · exact fun ⟨hm, hk⟩ => ⟨.inr hm, hk⟩
      · rintro ⟨rfl | hm, hk⟩
        · exact absurd h hk
        · exact ⟨hm, hk⟩
    · rw [if_neg h, List.mem_cons, List.mem_cons, ih]
      constructor
      · rintro (rfl | ⟨hm, hk⟩)
        · exact ⟨.inl rfl, h⟩
        · exact ⟨.inr hm, hk⟩
      · rintro ⟨rfl | hm, hk⟩
        · exact .inl rfl
        · exact .inr ⟨hm, hk⟩

theorem Tab.mem_ins {α : Type} (t : Tab α) (k : Nat) (v : α) (c : Nat × α) : c ∈ Tab.ins t k v ↔ c = (k, v) ∨ c ∈ t := by
  induction t with
  | nil => simp [Tab.ins]
  | cons e t ih =>
    obtain ⟨i, w⟩ := e
    rw [Tab.ins_cons]
    split
    · simp [List.mem_cons]
    · rw [List.mem_cons, ih, List.mem_cons]
      constructor
      · rintro (h | h | h)
        · exact .inr (.inl h)
        · exact .inl h
        · exact .inr (.inr h)
      · rintro (h | h | h)
        · exact .inr (.inl h)
        · exact .inl h
        · exact .inr (.inr h)

theorem Tab.get_ins_same {α : Type} (d : α) (t : Tab α) (k : Nat) (v : α) (h : ∀ c ∈ t, c.1 ≠ k) :
    Tab.get d (Tab.ins t k v) k = v := by
  induction t with
  | nil => simp [Tab.ins, Tab.get]
  | cons c t ih =>
    rw [Tab.ins_cons]
    split
    · rw [Tab.get_cons, if_pos rfl]
    · rw [Tab.get_cons, if_neg (h c (by simp)), ih (fun e he => h e (by simp [he]))]

theorem Tab.get_ins_ne {α : Type} (d : α) (t : Tab α) (k j : Nat) (v : α) (h : j ≠ k) :
    Tab.get d (Tab.ins t k v) j = Tab.get d t j := by
  induction t with
  | nil => simp [Tab.ins, Tab.get, Ne.symm h]
  | cons c t ih =>
    rw [Tab.ins_cons]
    split
    · rw [Tab.get_cons, if_neg (Ne.symm h)]
    · rw [Tab.get_cons, Tab.get_cons, ih]

theorem Tab.get_set {α : Type} [DecidableEq α] (d : α) (t : Tab α) (k j : Nat) (v : α) :
    Tab.get d (Tab.set d t k v) j = if j = k then v else Tab.get d t j := by
  unfold Tab.set
  by_cases hv : v = d
  · rw [if_pos hv]
    split
    · subst j; rw [hv, Tab.get_del_same]
    · rw [Tab.get_del_ne _ _ _ _ (by assumption)]
  · rw [if_neg hv]
    split
    · subst j; exact Tab.get_ins_same d _ k v (fun c hc => ((Tab.mem_del t k c).mp hc).2)
    · rw [Tab.get_ins_ne _ _ _ _ _ (by assumption), Tab.get_del_ne _ _ _ _ (by assumption)]

@[simp] theorem Tab.get_set_same {α : Type} [DecidableEq α] (d : α) (t : Tab α) (k : Nat) (v : α) :
    Tab.get d (Tab.set d t k v) k = v := by rw [Tab.get_set, if_pos rfl]

theorem Tab.get_set_ne {α : Type} [DecidableEq α] (d : α) (t : Tab α) (k j : Nat) (v : α) (h : j ≠ k) :
    Tab.get d (Tab.set d t k v) j = Tab.get d t j := by rw [Tab.get_set, if_neg h]

theorem Tab.del_absent {α : Type} (t : Tab α) (k : Nat) (h : ∀ c ∈ t, c.1 ≠ k) : Tab.del t k = t := by
  induction t with
  | nil => rfl
  | cons c t ih => rw [Tab.del_cons, if_neg (h c (by simp)), ih (fun e he => h e (by simp [he]))]

theorem Tab.del_del {α : Type} (t : Tab α) (k : Nat) : Tab.del (Tab.del t k) k = Tab.del t k :=
  Tab.del_absent _ _ fun c hc => ((Tab.mem_del t k c).mp hc).2

theorem Tab.del_ins {α : Type} (t : Tab α) (k : Nat) (v : α) : Tab.del (Tab.ins t k v) k = Tab.del t k := by
  induction t with
  | nil => simp [Tab.ins, Tab.del]
  | cons c t ih =>
    rw [Tab.ins_cons]
    split
    · rw [Tab.del_cons, if_pos rfl]
    · rw [Tab.del_cons, ih, Tab.del_cons]

/-- Of two writes of one number the later stands. -/
@[simp] theorem Tab.set_set {α : Type} [DecidableEq α] (d : α) (t : Tab α) (k : Nat) (v w : α) :
    Tab.set d (Tab.set d t k v) k w = Tab.set d t k w := by
  have h : Tab.del (Tab.set d t k v) k = Tab.del t k := by
    unfold Tab.set
    split
    · exact Tab.del_del t k
    · rw [Tab.del_ins, Tab.del_del]
  show (if w = d then _ else _) = (if w = d then _ else _)
  rw [h]

/-! ### The canonical form -/

theorem Tab.rising_cons {α : Type} (c : Nat × α) (t : Tab α) :
    Tab.rising (c :: t) = true ↔ Tab.above c.1 t ∧ Tab.rising t = true := by
  induction t generalizing c with
  | nil => simp [Tab.rising, Tab.above]
  | cons e t ih =>
    have hd : Tab.rising (c :: e :: t) = (decide (c.1 < e.1) && Tab.rising (e :: t)) := rfl
    rw [hd, Bool.and_eq_true, decide_eq_true_iff]
    constructor
    · intro ⟨h1, h2⟩
      refine ⟨fun x hx => ?_, h2⟩
      rcases List.mem_cons.mp hx with rfl | hx
      · exact h1
      · exact Nat.lt_trans h1 (((ih e).mp h2).1 x hx)
    · exact fun ⟨h1, h2⟩ => ⟨h1 e (by simp), h2⟩

theorem Tab.del_rising {α : Type} (t : Tab α) (k : Nat) (h : Tab.rising t = true) : Tab.rising (Tab.del t k) = true := by
  induction t with
  | nil => rfl
  | cons c t ih =>
    have hc := (Tab.rising_cons c t).mp h
    rw [Tab.del_cons]
    split
    · exact ih hc.2
    · exact (Tab.rising_cons _ _).mpr ⟨fun x hx => hc.1 x ((Tab.mem_del t k x).mp hx).1, ih hc.2⟩

theorem Tab.ins_rising {α : Type} (t : Tab α) (k : Nat) (v : α) (hn : ∀ c ∈ t, c.1 ≠ k) (h : Tab.rising t = true) :
    Tab.rising (Tab.ins t k v) = true := by
  induction t with
  | nil => rfl
  | cons c t ih =>
    have hc := (Tab.rising_cons c t).mp h
    rw [Tab.ins_cons]
    split
    · rename_i hk
      refine (Tab.rising_cons _ _).mpr ⟨fun x hx => ?_, h⟩
      rcases List.mem_cons.mp hx with rfl | hx
      · exact hk
      · exact Nat.lt_trans hk (hc.1 x hx)
    · rename_i hk
      refine (Tab.rising_cons _ _).mpr ⟨fun x hx => ?_, ih (fun e he => hn e (by simp [he])) hc.2⟩
      rcases (Tab.mem_ins t k v x).mp hx with rfl | hx
      · have := hn c (by simp); simp only at *; omega
      · exact hc.1 x hx

theorem Tab.set_rising {α : Type} [DecidableEq α] (d : α) (t : Tab α) (k : Nat) (v : α) (h : Tab.rising t = true) :
    Tab.rising (Tab.set d t k v) = true := by
  unfold Tab.set
  split
  · exact Tab.del_rising t k h
  · exact Tab.ins_rising _ k v (fun c hc => ((Tab.mem_del t k c).mp hc).2) (Tab.del_rising t k h)

theorem Tab.mem_set {α : Type} [DecidableEq α] (d : α) (t : Tab α) (k : Nat) (v : α) (c : Nat × α) (h : c ∈ Tab.set d t k v) :
    (c = (k, v) ∧ v ≠ d) ∨ c ∈ t := by
  unfold Tab.set at h
  split at h
  · exact .inr ((Tab.mem_del t k c).mp h).1
  · rename_i hv
    rcases (Tab.mem_ins _ k v c).mp h with rfl | h
    · exact .inl ⟨rfl, hv⟩
    · exact .inr ((Tab.mem_del t k c).mp h).1

/-- Two tables in canonical form that give the same are the same. -/
theorem Tab.ext_get {α : Type} (d : α) : ∀ (t u : Tab α), Tab.rising t = true → Tab.rising u = true → (∀ c ∈ t, c.2 ≠ d) → (∀ c ∈ u, c.2 ≠ d) →
    (∀ k, Tab.get d t k = Tab.get d u k) → t = u := by
  have low : ∀ (t : Tab α) (k : Nat), Tab.above k t → Tab.get d t k = d := by
    intro t
    induction t with
    | nil => intro k _; rfl
    | cons c t ih =>
      intro k h
      rw [show c :: t = (c.1, c.2) :: t from rfl, Tab.get_cons, if_neg (by have := h c (List.mem_cons_self ..); omega)]
      exact ih k (fun x hx => h x (List.mem_cons_of_mem _ hx))
  intro t
  induction t with
  | nil =>
    intro u _ _ _ hn h
    cases u with
    | nil => rfl
    | cons c u =>
      have := h c.1
      rw [show c :: u = (c.1, c.2) :: u from rfl, Tab.get_cons, if_pos rfl] at this
      exact absurd this.symm (hn c (List.mem_cons_self ..))
  | cons a t ih =>
    intro u hr hs hm hn h
    cases u with
    | nil =>
      have := h a.1
      rw [show a :: t = (a.1, a.2) :: t from rfl, Tab.get_cons, if_pos rfl] at this
      exact absurd this (hm a (List.mem_cons_self ..))
    | cons c u =>
      obtain ⟨hat, hrt⟩ := (Tab.rising_cons a t).mp hr
      obtain ⟨hcu, hsu⟩ := (Tab.rising_cons c u).mp hs
      have ha : Tab.get d (a :: t) a.1 = a.2 := if_pos rfl
      have hc : Tab.get d (c :: u) c.1 = c.2 := if_pos rfl
      have hne := hm a (List.mem_cons_self ..)
      have hne' := hn c (List.mem_cons_self ..)
      have hk : a.1 = c.1 := by
        rcases Nat.lt_trichotomy a.1 c.1 with hlt | heq | hgt
        · exfalso; apply hne; rw [← ha, h]
          exact low _ _ (fun x hx => by
            rcases List.mem_cons.mp hx with rfl | hx
            · exact hlt
            · have := hcu x hx; omega)
        · exact heq
        · exfalso; apply hne'; rw [← hc, ← h]
          exact low _ _ (fun x hx => by
            rcases List.mem_cons.mp hx with rfl | hx
            · exact hgt
            · have := hat x hx; omega)
      have hv : a.2 = c.2 := by rw [← ha, h, hk, hc]
      have hac : a = c := Prod.ext hk hv
      subst hac
      congr 1
      refine ih u hrt hsu (fun x hx => hm x (List.mem_cons_of_mem _ hx)) (fun x hx => hn x (List.mem_cons_of_mem _ hx)) (fun k => ?_)
      by_cases hka : a.1 = k
      · subst hka; rw [low t _ hat, low u _ hcu]
      · have := h k
        rw [show a :: t = (a.1, a.2) :: t from rfl, show a :: u = (a.1, a.2) :: u from rfl, Tab.get_cons, Tab.get_cons, if_neg hka, if_neg hka] at this
        exact this

end Sys2Proof
end

