-- ==== Sys2Proof/Laws/State.lean ====
section
/-! SUPPORT. What each update of a numbered part of the state leaves as it was, one lemma for each field and each accessor, and what
it writes. -/
namespace Sys2Proof.Machine

/-! ### State.setBlk -/
@[simp] theorem State.setBlk_pending (s : State) (b : Nat) (x : Block) : (s.setBlk b x).pending = s.pending := rfl
@[simp] theorem State.setBlk_sent (s : State) (b : Nat) (x : Block) : (s.setBlk b x).sent = s.sent := rfl
@[simp] theorem State.setBlk_free (s : State) (b : Nat) (x : Block) : (s.setBlk b x).free = s.free := rfl
@[simp] theorem State.setBlk_coh (s : State) (b : Nat) (x : Block) : (s.setBlk b x).coh = s.coh := rfl
@[simp] theorem State.setBlk_stk (s : State) (b : Nat) (x : Block) : (s.setBlk b x).stk = s.stk := rfl
@[simp] theorem State.setBlk_hpt (s : State) (b : Nat) (x : Block) : (s.setBlk b x).hpt = s.hpt := rfl
@[simp] theorem State.setBlk_xlt (s : State) (b : Nat) (x : Block) : (s.setBlk b x).xlt = s.xlt := rfl
@[simp] theorem State.setBlk_que (s : State) (b : Nat) (x : Block) : (s.setBlk b x).que = s.que := rfl
@[simp] theorem State.setBlk_net (s : State) (b : Nat) (x : Block) : (s.setBlk b x).net = s.net := rfl
@[simp] theorem State.setBlk_col (s : State) (b : Nat) (x : Block) : (s.setBlk b x).col = s.col := rfl
@[simp] theorem State.setBlk_skm (s : State) (b : Nat) (x : Block) : (s.setBlk b x).skm = s.skm := rfl
@[simp] theorem State.setBlk_flt (s : State) (b : Nat) (x : Block) : (s.setBlk b x).flt = s.flt := rfl
@[simp] theorem State.setBlk_snag (s : State) (b : Nat) (x : Block) : (s.setBlk b x).snag = s.snag := rfl
@[simp] theorem State.setBlk_mail (s : State) (b : Nat) (x : Block) : (s.setBlk b x).mail = s.mail := rfl
@[simp] theorem State.setBlk_evt (s : State) (b : Nat) (x : Block) : (s.setBlk b x).evt = s.evt := rfl
@[simp] theorem State.setBlk_pwr (s : State) (b : Nat) (x : Block) : (s.setBlk b x).pwr = s.pwr := rfl
@[simp] theorem State.setBlk_rst (s : State) (b : Nat) (x : Block) : (s.setBlk b x).rst = s.rst := rfl
@[simp] theorem State.setBlk_idn (s : State) (b : Nat) (x : Block) : (s.setBlk b x).idn = s.idn := rfl
@[simp] theorem State.setBlk_at_thr (s : State) (b : Nat) (x : Block) (k j : Nat) : (s.setBlk b x).thr k j = s.thr k j := rfl
@[simp] theorem State.setBlk_at_bc (s : State) (b : Nat) (x : Block) (k : Nat) : (s.setBlk b x).bc k = s.bc k := rfl
@[simp] theorem State.setBlk_at_rc (s : State) (b : Nat) (x : Block) (k : Nat) : (s.setBlk b x).rc k = s.rc k := rfl
@[simp] theorem State.setBlk_at_wc (s : State) (b : Nat) (x : Block) (k : Nat) : (s.setBlk b x).wc k = s.wc k := rfl
@[simp] theorem State.setBlk_at_mport (s : State) (b : Nat) (x : Block) (k : Nat) : (s.setBlk b x).mport k = s.mport k := rfl
@[simp] theorem State.setBlk_at_lg (s : State) (b : Nat) (x : Block) (k : Nat) : (s.setBlk b x).lg k = s.lg k := rfl
@[simp] theorem State.setBlk_at_map (s : State) (b : Nat) (x : Block) (k : Nat) : (s.setBlk b x).map k = s.map k := rfl
@[simp] theorem State.setBlk_at_q (s : State) (b : Nat) (x : Block) (k : Nat) : (s.setBlk b x).q k = s.q k := rfl
@[simp] theorem State.setBlk_at_eng (s : State) (b : Nat) (x : Block) (k : Nat) : (s.setBlk b x).eng k = s.eng k := rfl
@[simp] theorem State.setBlk_at_qp (s : State) (b : Nat) (x : Block) (k : Nat) : (s.setBlk b x).qp k = s.qp k := rfl
@[simp] theorem State.setBlk_at_ifc (s : State) (b : Nat) (x : Block) (k : Nat) : (s.setBlk b x).ifc k = s.ifc k := rfl
@[simp] theorem State.setBlk_at_ceng (s : State) (b : Nat) (x : Block) (k : Nat) : (s.setBlk b x).ceng k = s.ceng k := rfl
@[simp] theorem State.setBlk_at_lane (s : State) (b : Nat) (x : Block) (k : Nat) : (s.setBlk b x).lane k = s.lane k := rfl
@[simp] theorem State.setBlk_at_dom (s : State) (b : Nat) (x : Block) (k : Nat) : (s.setBlk b x).dom k = s.dom k := rfl
@[simp] theorem State.setBlk_at_box (s : State) (b : Nat) (x : Block) (k : Bool) : (s.setBlk b x).box k = s.box k := rfl
@[simp] theorem State.setBlk_at_modl (s : State) (b : Nat) (x : Block) (k : Nat) : (s.setBlk b x).modl k = s.modl k := rfl
/-! ### State.setThr -/
@[simp] theorem State.setThr_pending (s : State) (b n : Nat) (x : Thread) : (s.setThr b n x).pending = s.pending := rfl
@[simp] theorem State.setThr_sent (s : State) (b n : Nat) (x : Thread) : (s.setThr b n x).sent = s.sent := rfl
@[simp] theorem State.setThr_free (s : State) (b n : Nat) (x : Thread) : (s.setThr b n x).free = s.free := rfl
@[simp] theorem State.setThr_coh (s : State) (b n : Nat) (x : Thread) : (s.setThr b n x).coh = s.coh := rfl
@[simp] theorem State.setThr_stk (s : State) (b n : Nat) (x : Thread) : (s.setThr b n x).stk = s.stk := rfl
@[simp] theorem State.setThr_hpt (s : State) (b n : Nat) (x : Thread) : (s.setThr b n x).hpt = s.hpt := rfl
@[simp] theorem State.setThr_xlt (s : State) (b n : Nat) (x : Thread) : (s.setThr b n x).xlt = s.xlt := rfl
@[simp] theorem State.setThr_que (s : State) (b n : Nat) (x : Thread) : (s.setThr b n x).que = s.que := rfl
@[simp] theorem State.setThr_net (s : State) (b n : Nat) (x : Thread) : (s.setThr b n x).net = s.net := rfl
@[simp] theorem State.setThr_col (s : State) (b n : Nat) (x : Thread) : (s.setThr b n x).col = s.col := rfl
@[simp] theorem State.setThr_skm (s : State) (b n : Nat) (x : Thread) : (s.setThr b n x).skm = s.skm := rfl
@[simp] theorem State.setThr_flt (s : State) (b n : Nat) (x : Thread) : (s.setThr b n x).flt = s.flt := rfl
@[simp] theorem State.setThr_snag (s : State) (b n : Nat) (x : Thread) : (s.setThr b n x).snag = s.snag := rfl
@[simp] theorem State.setThr_mail (s : State) (b n : Nat) (x : Thread) : (s.setThr b n x).mail = s.mail := rfl
@[simp] theorem State.setThr_evt (s : State) (b n : Nat) (x : Thread) : (s.setThr b n x).evt = s.evt := rfl
@[simp] theorem State.setThr_pwr (s : State) (b n : Nat) (x : Thread) : (s.setThr b n x).pwr = s.pwr := rfl
@[simp] theorem State.setThr_rst (s : State) (b n : Nat) (x : Thread) : (s.setThr b n x).rst = s.rst := rfl
@[simp] theorem State.setThr_idn (s : State) (b n : Nat) (x : Thread) : (s.setThr b n x).idn = s.idn := rfl
@[simp] theorem State.setThr_at_blk (s : State) (b n : Nat) (x : Thread) (k : Nat) : (s.setThr b n x).blk k = s.blk k := rfl
@[simp] theorem State.setThr_at_bc (s : State) (b n : Nat) (x : Thread) (k : Nat) : (s.setThr b n x).bc k = s.bc k := rfl
@[simp] theorem State.setThr_at_rc (s : State) (b n : Nat) (x : Thread) (k : Nat) : (s.setThr b n x).rc k = s.rc k := rfl
@[simp] theorem State.setThr_at_wc (s : State) (b n : Nat) (x : Thread) (k : Nat) : (s.setThr b n x).wc k = s.wc k := rfl
@[simp] theorem State.setThr_at_mport (s : State) (b n : Nat) (x : Thread) (k : Nat) : (s.setThr b n x).mport k = s.mport k := rfl
@[simp] theorem State.setThr_at_lg (s : State) (b n : Nat) (x : Thread) (k : Nat) : (s.setThr b n x).lg k = s.lg k := rfl
@[simp] theorem State.setThr_at_map (s : State) (b n : Nat) (x : Thread) (k : Nat) : (s.setThr b n x).map k = s.map k := rfl
@[simp] theorem State.setThr_at_q (s : State) (b n : Nat) (x : Thread) (k : Nat) : (s.setThr b n x).q k = s.q k := rfl
@[simp] theorem State.setThr_at_eng (s : State) (b n : Nat) (x : Thread) (k : Nat) : (s.setThr b n x).eng k = s.eng k := rfl
@[simp] theorem State.setThr_at_qp (s : State) (b n : Nat) (x : Thread) (k : Nat) : (s.setThr b n x).qp k = s.qp k := rfl
@[simp] theorem State.setThr_at_ifc (s : State) (b n : Nat) (x : Thread) (k : Nat) : (s.setThr b n x).ifc k = s.ifc k := rfl
@[simp] theorem State.setThr_at_ceng (s : State) (b n : Nat) (x : Thread) (k : Nat) : (s.setThr b n x).ceng k = s.ceng k := rfl
@[simp] theorem State.setThr_at_lane (s : State) (b n : Nat) (x : Thread) (k : Nat) : (s.setThr b n x).lane k = s.lane k := rfl
@[simp] theorem State.setThr_at_dom (s : State) (b n : Nat) (x : Thread) (k : Nat) : (s.setThr b n x).dom k = s.dom k := rfl
@[simp] theorem State.setThr_at_box (s : State) (b n : Nat) (x : Thread) (k : Bool) : (s.setThr b n x).box k = s.box k := rfl
@[simp] theorem State.setThr_at_modl (s : State) (b n : Nat) (x : Thread) (k : Nat) : (s.setThr b n x).modl k = s.modl k := rfl
/-! ### State.setBc -/
@[simp] theorem State.setBc_pending (s : State) (b : Nat) (x : BCache) : (s.setBc b x).pending = s.pending := rfl
@[simp] theorem State.setBc_sent (s : State) (b : Nat) (x : BCache) : (s.setBc b x).sent = s.sent := rfl
@[simp] theorem State.setBc_free (s : State) (b : Nat) (x : BCache) : (s.setBc b x).free = s.free := rfl
@[simp] theorem State.setBc_blocks (s : State) (b : Nat) (x : BCache) : (s.setBc b x).blocks = s.blocks := rfl
@[simp] theorem State.setBc_stk (s : State) (b : Nat) (x : BCache) : (s.setBc b x).stk = s.stk := rfl
@[simp] theorem State.setBc_hpt (s : State) (b : Nat) (x : BCache) : (s.setBc b x).hpt = s.hpt := rfl
@[simp] theorem State.setBc_xlt (s : State) (b : Nat) (x : BCache) : (s.setBc b x).xlt = s.xlt := rfl
@[simp] theorem State.setBc_que (s : State) (b : Nat) (x : BCache) : (s.setBc b x).que = s.que := rfl
@[simp] theorem State.setBc_net (s : State) (b : Nat) (x : BCache) : (s.setBc b x).net = s.net := rfl
@[simp] theorem State.setBc_col (s : State) (b : Nat) (x : BCache) : (s.setBc b x).col = s.col := rfl
@[simp] theorem State.setBc_skm (s : State) (b : Nat) (x : BCache) : (s.setBc b x).skm = s.skm := rfl
@[simp] theorem State.setBc_flt (s : State) (b : Nat) (x : BCache) : (s.setBc b x).flt = s.flt := rfl
@[simp] theorem State.setBc_snag (s : State) (b : Nat) (x : BCache) : (s.setBc b x).snag = s.snag := rfl
@[simp] theorem State.setBc_mail (s : State) (b : Nat) (x : BCache) : (s.setBc b x).mail = s.mail := rfl
@[simp] theorem State.setBc_evt (s : State) (b : Nat) (x : BCache) : (s.setBc b x).evt = s.evt := rfl
@[simp] theorem State.setBc_pwr (s : State) (b : Nat) (x : BCache) : (s.setBc b x).pwr = s.pwr := rfl
@[simp] theorem State.setBc_rst (s : State) (b : Nat) (x : BCache) : (s.setBc b x).rst = s.rst := rfl
@[simp] theorem State.setBc_idn (s : State) (b : Nat) (x : BCache) : (s.setBc b x).idn = s.idn := rfl
@[simp] theorem State.setBc_at_blk (s : State) (b : Nat) (x : BCache) (k : Nat) : (s.setBc b x).blk k = s.blk k := rfl
@[simp] theorem State.setBc_at_thr (s : State) (b : Nat) (x : BCache) (k j : Nat) : (s.setBc b x).thr k j = s.thr k j := rfl
@[simp] theorem State.setBc_at_rc (s : State) (b : Nat) (x : BCache) (k : Nat) : (s.setBc b x).rc k = s.rc k := rfl
@[simp] theorem State.setBc_at_wc (s : State) (b : Nat) (x : BCache) (k : Nat) : (s.setBc b x).wc k = s.wc k := rfl
@[simp] theorem State.setBc_at_mport (s : State) (b : Nat) (x : BCache) (k : Nat) : (s.setBc b x).mport k = s.mport k := rfl
@[simp] theorem State.setBc_at_lg (s : State) (b : Nat) (x : BCache) (k : Nat) : (s.setBc b x).lg k = s.lg k := rfl
@[simp] theorem State.setBc_at_map (s : State) (b : Nat) (x : BCache) (k : Nat) : (s.setBc b x).map k = s.map k := rfl
@[simp] theorem State.setBc_at_q (s : State) (b : Nat) (x : BCache) (k : Nat) : (s.setBc b x).q k = s.q k := rfl
@[simp] theorem State.setBc_at_eng (s : State) (b : Nat) (x : BCache) (k : Nat) : (s.setBc b x).eng k = s.eng k := rfl
@[simp] theorem State.setBc_at_qp (s : State) (b : Nat) (x : BCache) (k : Nat) : (s.setBc b x).qp k = s.qp k := rfl
@[simp] theorem State.setBc_at_ifc (s : State) (b : Nat) (x : BCache) (k : Nat) : (s.setBc b x).ifc k = s.ifc k := rfl
@[simp] theorem State.setBc_at_ceng (s : State) (b : Nat) (x : BCache) (k : Nat) : (s.setBc b x).ceng k = s.ceng k := rfl
@[simp] theorem State.setBc_at_lane (s : State) (b : Nat) (x : BCache) (k : Nat) : (s.setBc b x).lane k = s.lane k := rfl
@[simp] theorem State.setBc_at_dom (s : State) (b : Nat) (x : BCache) (k : Nat) : (s.setBc b x).dom k = s.dom k := rfl
@[simp] theorem State.setBc_at_box (s : State) (b : Nat) (x : BCache) (k : Bool) : (s.setBc b x).box k = s.box k := rfl
@[simp] theorem State.setBc_at_modl (s : State) (b : Nat) (x : BCache) (k : Nat) : (s.setBc b x).modl k = s.modl k := rfl
/-! ### State.setRc -/
@[simp] theorem State.setRc_pending (s : State) (r : Nat) (x : RCache) : (s.setRc r x).pending = s.pending := rfl
@[simp] theorem State.setRc_sent (s : State) (r : Nat) (x : RCache) : (s.setRc r x).sent = s.sent := rfl
@[simp] theorem State.setRc_free (s : State) (r : Nat) (x : RCache) : (s.setRc r x).free = s.free := rfl
@[simp] theorem State.setRc_blocks (s : State) (r : Nat) (x : RCache) : (s.setRc r x).blocks = s.blocks := rfl
@[simp] theorem State.setRc_stk (s : State) (r : Nat) (x : RCache) : (s.setRc r x).stk = s.stk := rfl
@[simp] theorem State.setRc_hpt (s : State) (r : Nat) (x : RCache) : (s.setRc r x).hpt = s.hpt := rfl
@[simp] theorem State.setRc_xlt (s : State) (r : Nat) (x : RCache) : (s.setRc r x).xlt = s.xlt := rfl
@[simp] theorem State.setRc_que (s : State) (r : Nat) (x : RCache) : (s.setRc r x).que = s.que := rfl
@[simp] theorem State.setRc_net (s : State) (r : Nat) (x : RCache) : (s.setRc r x).net = s.net := rfl
@[simp] theorem State.setRc_col (s : State) (r : Nat) (x : RCache) : (s.setRc r x).col = s.col := rfl
@[simp] theorem State.setRc_skm (s : State) (r : Nat) (x : RCache) : (s.setRc r x).skm = s.skm := rfl
@[simp] theorem State.setRc_flt (s : State) (r : Nat) (x : RCache) : (s.setRc r x).flt = s.flt := rfl
@[simp] theorem State.setRc_snag (s : State) (r : Nat) (x : RCache) : (s.setRc r x).snag = s.snag := rfl
@[simp] theorem State.setRc_mail (s : State) (r : Nat) (x : RCache) : (s.setRc r x).mail = s.mail := rfl
@[simp] theorem State.setRc_evt (s : State) (r : Nat) (x : RCache) : (s.setRc r x).evt = s.evt := rfl
@[simp] theorem State.setRc_pwr (s : State) (r : Nat) (x : RCache) : (s.setRc r x).pwr = s.pwr := rfl
@[simp] theorem State.setRc_rst (s : State) (r : Nat) (x : RCache) : (s.setRc r x).rst = s.rst := rfl
@[simp] theorem State.setRc_idn (s : State) (r : Nat) (x : RCache) : (s.setRc r x).idn = s.idn := rfl
@[simp] theorem State.setRc_at_blk (s : State) (r : Nat) (x : RCache) (k : Nat) : (s.setRc r x).blk k = s.blk k := rfl
@[simp] theorem State.setRc_at_thr (s : State) (r : Nat) (x : RCache) (k j : Nat) : (s.setRc r x).thr k j = s.thr k j := rfl
@[simp] theorem State.setRc_at_bc (s : State) (r : Nat) (x : RCache) (k : Nat) : (s.setRc r x).bc k = s.bc k := rfl
@[simp] theorem State.setRc_at_wc (s : State) (r : Nat) (x : RCache) (k : Nat) : (s.setRc r x).wc k = s.wc k := rfl
@[simp] theorem State.setRc_at_mport (s : State) (r : Nat) (x : RCache) (k : Nat) : (s.setRc r x).mport k = s.mport k := rfl
@[simp] theorem State.setRc_at_lg (s : State) (r : Nat) (x : RCache) (k : Nat) : (s.setRc r x).lg k = s.lg k := rfl
@[simp] theorem State.setRc_at_map (s : State) (r : Nat) (x : RCache) (k : Nat) : (s.setRc r x).map k = s.map k := rfl
@[simp] theorem State.setRc_at_q (s : State) (r : Nat) (x : RCache) (k : Nat) : (s.setRc r x).q k = s.q k := rfl
@[simp] theorem State.setRc_at_eng (s : State) (r : Nat) (x : RCache) (k : Nat) : (s.setRc r x).eng k = s.eng k := rfl
@[simp] theorem State.setRc_at_qp (s : State) (r : Nat) (x : RCache) (k : Nat) : (s.setRc r x).qp k = s.qp k := rfl
@[simp] theorem State.setRc_at_ifc (s : State) (r : Nat) (x : RCache) (k : Nat) : (s.setRc r x).ifc k = s.ifc k := rfl
@[simp] theorem State.setRc_at_ceng (s : State) (r : Nat) (x : RCache) (k : Nat) : (s.setRc r x).ceng k = s.ceng k := rfl
@[simp] theorem State.setRc_at_lane (s : State) (r : Nat) (x : RCache) (k : Nat) : (s.setRc r x).lane k = s.lane k := rfl
@[simp] theorem State.setRc_at_dom (s : State) (r : Nat) (x : RCache) (k : Nat) : (s.setRc r x).dom k = s.dom k := rfl
@[simp] theorem State.setRc_at_box (s : State) (r : Nat) (x : RCache) (k : Bool) : (s.setRc r x).box k = s.box k := rfl
@[simp] theorem State.setRc_at_modl (s : State) (r : Nat) (x : RCache) (k : Nat) : (s.setRc r x).modl k = s.modl k := rfl
/-! ### State.setWc -/
@[simp] theorem State.setWc_pending (s : State) (r : Nat) (x : List WLine) : (s.setWc r x).pending = s.pending := rfl
@[simp] theorem State.setWc_sent (s : State) (r : Nat) (x : List WLine) : (s.setWc r x).sent = s.sent := rfl
@[simp] theorem State.setWc_free (s : State) (r : Nat) (x : List WLine) : (s.setWc r x).free = s.free := rfl
@[simp] theorem State.setWc_blocks (s : State) (r : Nat) (x : List WLine) : (s.setWc r x).blocks = s.blocks := rfl
@[simp] theorem State.setWc_stk (s : State) (r : Nat) (x : List WLine) : (s.setWc r x).stk = s.stk := rfl
@[simp] theorem State.setWc_hpt (s : State) (r : Nat) (x : List WLine) : (s.setWc r x).hpt = s.hpt := rfl
@[simp] theorem State.setWc_xlt (s : State) (r : Nat) (x : List WLine) : (s.setWc r x).xlt = s.xlt := rfl
@[simp] theorem State.setWc_que (s : State) (r : Nat) (x : List WLine) : (s.setWc r x).que = s.que := rfl
@[simp] theorem State.setWc_net (s : State) (r : Nat) (x : List WLine) : (s.setWc r x).net = s.net := rfl
@[simp] theorem State.setWc_col (s : State) (r : Nat) (x : List WLine) : (s.setWc r x).col = s.col := rfl
@[simp] theorem State.setWc_skm (s : State) (r : Nat) (x : List WLine) : (s.setWc r x).skm = s.skm := rfl
@[simp] theorem State.setWc_flt (s : State) (r : Nat) (x : List WLine) : (s.setWc r x).flt = s.flt := rfl
@[simp] theorem State.setWc_snag (s : State) (r : Nat) (x : List WLine) : (s.setWc r x).snag = s.snag := rfl
@[simp] theorem State.setWc_mail (s : State) (r : Nat) (x : List WLine) : (s.setWc r x).mail = s.mail := rfl
@[simp] theorem State.setWc_evt (s : State) (r : Nat) (x : List WLine) : (s.setWc r x).evt = s.evt := rfl
@[simp] theorem State.setWc_pwr (s : State) (r : Nat) (x : List WLine) : (s.setWc r x).pwr = s.pwr := rfl
@[simp] theorem State.setWc_rst (s : State) (r : Nat) (x : List WLine) : (s.setWc r x).rst = s.rst := rfl
@[simp] theorem State.setWc_idn (s : State) (r : Nat) (x : List WLine) : (s.setWc r x).idn = s.idn := rfl
@[simp] theorem State.setWc_at_blk (s : State) (r : Nat) (x : List WLine) (k : Nat) : (s.setWc r x).blk k = s.blk k := rfl
@[simp] theorem State.setWc_at_thr (s : State) (r : Nat) (x : List WLine) (k j : Nat) : (s.setWc r x).thr k j = s.thr k j := rfl
@[simp] theorem State.setWc_at_bc (s : State) (r : Nat) (x : List WLine) (k : Nat) : (s.setWc r x).bc k = s.bc k := rfl
@[simp] theorem State.setWc_at_rc (s : State) (r : Nat) (x : List WLine) (k : Nat) : (s.setWc r x).rc k = s.rc k := rfl
@[simp] theorem State.setWc_at_mport (s : State) (r : Nat) (x : List WLine) (k : Nat) : (s.setWc r x).mport k = s.mport k := rfl
@[simp] theorem State.setWc_at_lg (s : State) (r : Nat) (x : List WLine) (k : Nat) : (s.setWc r x).lg k = s.lg k := rfl
@[simp] theorem State.setWc_at_map (s : State) (r : Nat) (x : List WLine) (k : Nat) : (s.setWc r x).map k = s.map k := rfl
@[simp] theorem State.setWc_at_q (s : State) (r : Nat) (x : List WLine) (k : Nat) : (s.setWc r x).q k = s.q k := rfl
@[simp] theorem State.setWc_at_eng (s : State) (r : Nat) (x : List WLine) (k : Nat) : (s.setWc r x).eng k = s.eng k := rfl
@[simp] theorem State.setWc_at_qp (s : State) (r : Nat) (x : List WLine) (k : Nat) : (s.setWc r x).qp k = s.qp k := rfl
@[simp] theorem State.setWc_at_ifc (s : State) (r : Nat) (x : List WLine) (k : Nat) : (s.setWc r x).ifc k = s.ifc k := rfl
@[simp] theorem State.setWc_at_ceng (s : State) (r : Nat) (x : List WLine) (k : Nat) : (s.setWc r x).ceng k = s.ceng k := rfl
@[simp] theorem State.setWc_at_lane (s : State) (r : Nat) (x : List WLine) (k : Nat) : (s.setWc r x).lane k = s.lane k := rfl
@[simp] theorem State.setWc_at_dom (s : State) (r : Nat) (x : List WLine) (k : Nat) : (s.setWc r x).dom k = s.dom k := rfl
@[simp] theorem State.setWc_at_box (s : State) (r : Nat) (x : List WLine) (k : Bool) : (s.setWc r x).box k = s.box k := rfl
@[simp] theorem State.setWc_at_modl (s : State) (r : Nat) (x : List WLine) (k : Nat) : (s.setWc r x).modl k = s.modl k := rfl
/-! ### State.setMport -/
@[simp] theorem State.setMport_pending (s : State) (p : Nat) (x : Port) : (s.setMport p x).pending = s.pending := rfl
@[simp] theorem State.setMport_sent (s : State) (p : Nat) (x : Port) : (s.setMport p x).sent = s.sent := rfl
@[simp] theorem State.setMport_free (s : State) (p : Nat) (x : Port) : (s.setMport p x).free = s.free := rfl
@[simp] theorem State.setMport_blocks (s : State) (p : Nat) (x : Port) : (s.setMport p x).blocks = s.blocks := rfl
@[simp] theorem State.setMport_coh (s : State) (p : Nat) (x : Port) : (s.setMport p x).coh = s.coh := rfl
@[simp] theorem State.setMport_hpt (s : State) (p : Nat) (x : Port) : (s.setMport p x).hpt = s.hpt := rfl
@[simp] theorem State.setMport_xlt (s : State) (p : Nat) (x : Port) : (s.setMport p x).xlt = s.xlt := rfl
@[simp] theorem State.setMport_que (s : State) (p : Nat) (x : Port) : (s.setMport p x).que = s.que := rfl
@[simp] theorem State.setMport_net (s : State) (p : Nat) (x : Port) : (s.setMport p x).net = s.net := rfl
@[simp] theorem State.setMport_col (s : State) (p : Nat) (x : Port) : (s.setMport p x).col = s.col := rfl
@[simp] theorem State.setMport_skm (s : State) (p : Nat) (x : Port) : (s.setMport p x).skm = s.skm := rfl
@[simp] theorem State.setMport_flt (s : State) (p : Nat) (x : Port) : (s.setMport p x).flt = s.flt := rfl
@[simp] theorem State.setMport_snag (s : State) (p : Nat) (x : Port) : (s.setMport p x).snag = s.snag := rfl
@[simp] theorem State.setMport_mail (s : State) (p : Nat) (x : Port) : (s.setMport p x).mail = s.mail := rfl
@[simp] theorem State.setMport_evt (s : State) (p : Nat) (x : Port) : (s.setMport p x).evt = s.evt := rfl
@[simp] theorem State.setMport_pwr (s : State) (p : Nat) (x : Port) : (s.setMport p x).pwr = s.pwr := rfl
@[simp] theorem State.setMport_rst (s : State) (p : Nat) (x : Port) : (s.setMport p x).rst = s.rst := rfl
@[simp] theorem State.setMport_idn (s : State) (p : Nat) (x : Port) : (s.setMport p x).idn = s.idn := rfl
@[simp] theorem State.setMport_at_blk (s : State) (p : Nat) (x : Port) (k : Nat) : (s.setMport p x).blk k = s.blk k := rfl
@[simp] theorem State.setMport_at_thr (s : State) (p : Nat) (x : Port) (k j : Nat) : (s.setMport p x).thr k j = s.thr k j := rfl
@[simp] theorem State.setMport_at_bc (s : State) (p : Nat) (x : Port) (k : Nat) : (s.setMport p x).bc k = s.bc k := rfl
@[simp] theorem State.setMport_at_rc (s : State) (p : Nat) (x : Port) (k : Nat) : (s.setMport p x).rc k = s.rc k := rfl
@[simp] theorem State.setMport_at_wc (s : State) (p : Nat) (x : Port) (k : Nat) : (s.setMport p x).wc k = s.wc k := rfl
@[simp] theorem State.setMport_at_lg (s : State) (p : Nat) (x : Port) (k : Nat) : (s.setMport p x).lg k = s.lg k := rfl
@[simp] theorem State.setMport_at_map (s : State) (p : Nat) (x : Port) (k : Nat) : (s.setMport p x).map k = s.map k := rfl
@[simp] theorem State.setMport_at_q (s : State) (p : Nat) (x : Port) (k : Nat) : (s.setMport p x).q k = s.q k := rfl
@[simp] theorem State.setMport_at_eng (s : State) (p : Nat) (x : Port) (k : Nat) : (s.setMport p x).eng k = s.eng k := rfl
@[simp] theorem State.setMport_at_qp (s : State) (p : Nat) (x : Port) (k : Nat) : (s.setMport p x).qp k = s.qp k := rfl
@[simp] theorem State.setMport_at_ifc (s : State) (p : Nat) (x : Port) (k : Nat) : (s.setMport p x).ifc k = s.ifc k := rfl
@[simp] theorem State.setMport_at_ceng (s : State) (p : Nat) (x : Port) (k : Nat) : (s.setMport p x).ceng k = s.ceng k := rfl
@[simp] theorem State.setMport_at_lane (s : State) (p : Nat) (x : Port) (k : Nat) : (s.setMport p x).lane k = s.lane k := rfl
@[simp] theorem State.setMport_at_dom (s : State) (p : Nat) (x : Port) (k : Nat) : (s.setMport p x).dom k = s.dom k := rfl
@[simp] theorem State.setMport_at_box (s : State) (p : Nat) (x : Port) (k : Bool) : (s.setMport p x).box k = s.box k := rfl
@[simp] theorem State.setMport_at_modl (s : State) (p : Nat) (x : Port) (k : Nat) : (s.setMport p x).modl k = s.modl k := rfl
/-! ### State.setLg -/
@[simp] theorem State.setLg_pending (s : State) (g : Nat) (x : LinkGroup) : (s.setLg g x).pending = s.pending := rfl
@[simp] theorem State.setLg_sent (s : State) (g : Nat) (x : LinkGroup) : (s.setLg g x).sent = s.sent := rfl
@[simp] theorem State.setLg_free (s : State) (g : Nat) (x : LinkGroup) : (s.setLg g x).free = s.free := rfl
@[simp] theorem State.setLg_blocks (s : State) (g : Nat) (x : LinkGroup) : (s.setLg g x).blocks = s.blocks := rfl
@[simp] theorem State.setLg_coh (s : State) (g : Nat) (x : LinkGroup) : (s.setLg g x).coh = s.coh := rfl
@[simp] theorem State.setLg_hpt (s : State) (g : Nat) (x : LinkGroup) : (s.setLg g x).hpt = s.hpt := rfl
@[simp] theorem State.setLg_xlt (s : State) (g : Nat) (x : LinkGroup) : (s.setLg g x).xlt = s.xlt := rfl
@[simp] theorem State.setLg_que (s : State) (g : Nat) (x : LinkGroup) : (s.setLg g x).que = s.que := rfl
@[simp] theorem State.setLg_net (s : State) (g : Nat) (x : LinkGroup) : (s.setLg g x).net = s.net := rfl
@[simp] theorem State.setLg_col (s : State) (g : Nat) (x : LinkGroup) : (s.setLg g x).col = s.col := rfl
@[simp] theorem State.setLg_skm (s : State) (g : Nat) (x : LinkGroup) : (s.setLg g x).skm = s.skm := rfl
@[simp] theorem State.setLg_flt (s : State) (g : Nat) (x : LinkGroup) : (s.setLg g x).flt = s.flt := rfl
@[simp] theorem State.setLg_snag (s : State) (g : Nat) (x : LinkGroup) : (s.setLg g x).snag = s.snag := rfl
@[simp] theorem State.setLg_mail (s : State) (g : Nat) (x : LinkGroup) : (s.setLg g x).mail = s.mail := rfl
@[simp] theorem State.setLg_evt (s : State) (g : Nat) (x : LinkGroup) : (s.setLg g x).evt = s.evt := rfl
@[simp] theorem State.setLg_pwr (s : State) (g : Nat) (x : LinkGroup) : (s.setLg g x).pwr = s.pwr := rfl
@[simp] theorem State.setLg_rst (s : State) (g : Nat) (x : LinkGroup) : (s.setLg g x).rst = s.rst := rfl
@[simp] theorem State.setLg_idn (s : State) (g : Nat) (x : LinkGroup) : (s.setLg g x).idn = s.idn := rfl
@[simp] theorem State.setLg_at_blk (s : State) (g : Nat) (x : LinkGroup) (k : Nat) : (s.setLg g x).blk k = s.blk k := rfl
@[simp] theorem State.setLg_at_thr (s : State) (g : Nat) (x : LinkGroup) (k j : Nat) : (s.setLg g x).thr k j = s.thr k j := rfl
@[simp] theorem State.setLg_at_bc (s : State) (g : Nat) (x : LinkGroup) (k : Nat) : (s.setLg g x).bc k = s.bc k := rfl
@[simp] theorem State.setLg_at_rc (s : State) (g : Nat) (x : LinkGroup) (k : Nat) : (s.setLg g x).rc k = s.rc k := rfl
@[simp] theorem State.setLg_at_wc (s : State) (g : Nat) (x : LinkGroup) (k : Nat) : (s.setLg g x).wc k = s.wc k := rfl
@[simp] theorem State.setLg_at_mport (s : State) (g : Nat) (x : LinkGroup) (k : Nat) : (s.setLg g x).mport k = s.mport k := rfl
@[simp] theorem State.setLg_at_map (s : State) (g : Nat) (x : LinkGroup) (k : Nat) : (s.setLg g x).map k = s.map k := rfl
@[simp] theorem State.setLg_at_q (s : State) (g : Nat) (x : LinkGroup) (k : Nat) : (s.setLg g x).q k = s.q k := rfl
@[simp] theorem State.setLg_at_eng (s : State) (g : Nat) (x : LinkGroup) (k : Nat) : (s.setLg g x).eng k = s.eng k := rfl
@[simp] theorem State.setLg_at_qp (s : State) (g : Nat) (x : LinkGroup) (k : Nat) : (s.setLg g x).qp k = s.qp k := rfl
@[simp] theorem State.setLg_at_ifc (s : State) (g : Nat) (x : LinkGroup) (k : Nat) : (s.setLg g x).ifc k = s.ifc k := rfl
@[simp] theorem State.setLg_at_ceng (s : State) (g : Nat) (x : LinkGroup) (k : Nat) : (s.setLg g x).ceng k = s.ceng k := rfl
@[simp] theorem State.setLg_at_lane (s : State) (g : Nat) (x : LinkGroup) (k : Nat) : (s.setLg g x).lane k = s.lane k := rfl
@[simp] theorem State.setLg_at_dom (s : State) (g : Nat) (x : LinkGroup) (k : Nat) : (s.setLg g x).dom k = s.dom k := rfl
@[simp] theorem State.setLg_at_box (s : State) (g : Nat) (x : LinkGroup) (k : Bool) : (s.setLg g x).box k = s.box k := rfl
@[simp] theorem State.setLg_at_modl (s : State) (g : Nat) (x : LinkGroup) (k : Nat) : (s.setLg g x).modl k = s.modl k := rfl
/-! ### State.setMap -/
@[simp] theorem State.setMap_pending (s : State) (r : Nat) (x : MapReg) : (s.setMap r x).pending = s.pending := rfl
@[simp] theorem State.setMap_sent (s : State) (r : Nat) (x : MapReg) : (s.setMap r x).sent = s.sent := rfl
@[simp] theorem State.setMap_free (s : State) (r : Nat) (x : MapReg) : (s.setMap r x).free = s.free := rfl
@[simp] theorem State.setMap_blocks (s : State) (r : Nat) (x : MapReg) : (s.setMap r x).blocks = s.blocks := rfl
@[simp] theorem State.setMap_coh (s : State) (r : Nat) (x : MapReg) : (s.setMap r x).coh = s.coh := rfl
@[simp] theorem State.setMap_hpt (s : State) (r : Nat) (x : MapReg) : (s.setMap r x).hpt = s.hpt := rfl
@[simp] theorem State.setMap_xlt (s : State) (r : Nat) (x : MapReg) : (s.setMap r x).xlt = s.xlt := rfl
@[simp] theorem State.setMap_que (s : State) (r : Nat) (x : MapReg) : (s.setMap r x).que = s.que := rfl
@[simp] theorem State.setMap_net (s : State) (r : Nat) (x : MapReg) : (s.setMap r x).net = s.net := rfl
@[simp] theorem State.setMap_col (s : State) (r : Nat) (x : MapReg) : (s.setMap r x).col = s.col := rfl
@[simp] theorem State.setMap_skm (s : State) (r : Nat) (x : MapReg) : (s.setMap r x).skm = s.skm := rfl
@[simp] theorem State.setMap_flt (s : State) (r : Nat) (x : MapReg) : (s.setMap r x).flt = s.flt := rfl
@[simp] theorem State.setMap_snag (s : State) (r : Nat) (x : MapReg) : (s.setMap r x).snag = s.snag := rfl
@[simp] theorem State.setMap_mail (s : State) (r : Nat) (x : MapReg) : (s.setMap r x).mail = s.mail := rfl
@[simp] theorem State.setMap_evt (s : State) (r : Nat) (x : MapReg) : (s.setMap r x).evt = s.evt := rfl
@[simp] theorem State.setMap_pwr (s : State) (r : Nat) (x : MapReg) : (s.setMap r x).pwr = s.pwr := rfl
@[simp] theorem State.setMap_rst (s : State) (r : Nat) (x : MapReg) : (s.setMap r x).rst = s.rst := rfl
@[simp] theorem State.setMap_idn (s : State) (r : Nat) (x : MapReg) : (s.setMap r x).idn = s.idn := rfl
@[simp] theorem State.setMap_at_blk (s : State) (r : Nat) (x : MapReg) (k : Nat) : (s.setMap r x).blk k = s.blk k := rfl
@[simp] theorem State.setMap_at_thr (s : State) (r : Nat) (x : MapReg) (k j : Nat) : (s.setMap r x).thr k j = s.thr k j := rfl
@[simp] theorem State.setMap_at_bc (s : State) (r : Nat) (x : MapReg) (k : Nat) : (s.setMap r x).bc k = s.bc k := rfl
@[simp] theorem State.setMap_at_rc (s : State) (r : Nat) (x : MapReg) (k : Nat) : (s.setMap r x).rc k = s.rc k := rfl
@[simp] theorem State.setMap_at_wc (s : State) (r : Nat) (x : MapReg) (k : Nat) : (s.setMap r x).wc k = s.wc k := rfl
@[simp] theorem State.setMap_at_mport (s : State) (r : Nat) (x : MapReg) (k : Nat) : (s.setMap r x).mport k = s.mport k := rfl
@[simp] theorem State.setMap_at_lg (s : State) (r : Nat) (x : MapReg) (k : Nat) : (s.setMap r x).lg k = s.lg k := rfl
@[simp] theorem State.setMap_at_q (s : State) (r : Nat) (x : MapReg) (k : Nat) : (s.setMap r x).q k = s.q k := rfl
@[simp] theorem State.setMap_at_eng (s : State) (r : Nat) (x : MapReg) (k : Nat) : (s.setMap r x).eng k = s.eng k := rfl
@[simp] theorem State.setMap_at_qp (s : State) (r : Nat) (x : MapReg) (k : Nat) : (s.setMap r x).qp k = s.qp k := rfl
@[simp] theorem State.setMap_at_ifc (s : State) (r : Nat) (x : MapReg) (k : Nat) : (s.setMap r x).ifc k = s.ifc k := rfl
@[simp] theorem State.setMap_at_ceng (s : State) (r : Nat) (x : MapReg) (k : Nat) : (s.setMap r x).ceng k = s.ceng k := rfl
@[simp] theorem State.setMap_at_lane (s : State) (r : Nat) (x : MapReg) (k : Nat) : (s.setMap r x).lane k = s.lane k := rfl
@[simp] theorem State.setMap_at_dom (s : State) (r : Nat) (x : MapReg) (k : Nat) : (s.setMap r x).dom k = s.dom k := rfl
@[simp] theorem State.setMap_at_box (s : State) (r : Nat) (x : MapReg) (k : Bool) : (s.setMap r x).box k = s.box k := rfl
@[simp] theorem State.setMap_at_modl (s : State) (r : Nat) (x : MapReg) (k : Nat) : (s.setMap r x).modl k = s.modl k := rfl
/-! ### State.setQ -/
@[simp] theorem State.setQ_pending (s : State) (q : Nat) (x : Queue) : (s.setQ q x).pending = s.pending := rfl
@[simp] theorem State.setQ_sent (s : State) (q : Nat) (x : Queue) : (s.setQ q x).sent = s.sent := rfl
@[simp] theorem State.setQ_free (s : State) (q : Nat) (x : Queue) : (s.setQ q x).free = s.free := rfl
@[simp] theorem State.setQ_blocks (s : State) (q : Nat) (x : Queue) : (s.setQ q x).blocks = s.blocks := rfl
@[simp] theorem State.setQ_coh (s : State) (q : Nat) (x : Queue) : (s.setQ q x).coh = s.coh := rfl
@[simp] theorem State.setQ_stk (s : State) (q : Nat) (x : Queue) : (s.setQ q x).stk = s.stk := rfl
@[simp] theorem State.setQ_hpt (s : State) (q : Nat) (x : Queue) : (s.setQ q x).hpt = s.hpt := rfl
@[simp] theorem State.setQ_xlt (s : State) (q : Nat) (x : Queue) : (s.setQ q x).xlt = s.xlt := rfl
@[simp] theorem State.setQ_net (s : State) (q : Nat) (x : Queue) : (s.setQ q x).net = s.net := rfl
@[simp] theorem State.setQ_col (s : State) (q : Nat) (x : Queue) : (s.setQ q x).col = s.col := rfl
@[simp] theorem State.setQ_skm (s : State) (q : Nat) (x : Queue) : (s.setQ q x).skm = s.skm := rfl
@[simp] theorem State.setQ_flt (s : State) (q : Nat) (x : Queue) : (s.setQ q x).flt = s.flt := rfl
@[simp] theorem State.setQ_snag (s : State) (q : Nat) (x : Queue) : (s.setQ q x).snag = s.snag := rfl
@[simp] theorem State.setQ_mail (s : State) (q : Nat) (x : Queue) : (s.setQ q x).mail = s.mail := rfl
@[simp] theorem State.setQ_evt (s : State) (q : Nat) (x : Queue) : (s.setQ q x).evt = s.evt := rfl
@[simp] theorem State.setQ_pwr (s : State) (q : Nat) (x : Queue) : (s.setQ q x).pwr = s.pwr := rfl
@[simp] theorem State.setQ_rst (s : State) (q : Nat) (x : Queue) : (s.setQ q x).rst = s.rst := rfl
@[simp] theorem State.setQ_idn (s : State) (q : Nat) (x : Queue) : (s.setQ q x).idn = s.idn := rfl
@[simp] theorem State.setQ_at_blk (s : State) (q : Nat) (x : Queue) (k : Nat) : (s.setQ q x).blk k = s.blk k := rfl
@[simp] theorem State.setQ_at_thr (s : State) (q : Nat) (x : Queue) (k j : Nat) : (s.setQ q x).thr k j = s.thr k j := rfl
@[simp] theorem State.setQ_at_bc (s : State) (q : Nat) (x : Queue) (k : Nat) : (s.setQ q x).bc k = s.bc k := rfl
@[simp] theorem State.setQ_at_rc (s : State) (q : Nat) (x : Queue) (k : Nat) : (s.setQ q x).rc k = s.rc k := rfl
@[simp] theorem State.setQ_at_wc (s : State) (q : Nat) (x : Queue) (k : Nat) : (s.setQ q x).wc k = s.wc k := rfl
@[simp] theorem State.setQ_at_mport (s : State) (q : Nat) (x : Queue) (k : Nat) : (s.setQ q x).mport k = s.mport k := rfl
@[simp] theorem State.setQ_at_lg (s : State) (q : Nat) (x : Queue) (k : Nat) : (s.setQ q x).lg k = s.lg k := rfl
@[simp] theorem State.setQ_at_map (s : State) (q : Nat) (x : Queue) (k : Nat) : (s.setQ q x).map k = s.map k := rfl
@[simp] theorem State.setQ_at_eng (s : State) (q : Nat) (x : Queue) (k : Nat) : (s.setQ q x).eng k = s.eng k := rfl
@[simp] theorem State.setQ_at_qp (s : State) (q : Nat) (x : Queue) (k : Nat) : (s.setQ q x).qp k = s.qp k := rfl
@[simp] theorem State.setQ_at_ifc (s : State) (q : Nat) (x : Queue) (k : Nat) : (s.setQ q x).ifc k = s.ifc k := rfl
@[simp] theorem State.setQ_at_ceng (s : State) (q : Nat) (x : Queue) (k : Nat) : (s.setQ q x).ceng k = s.ceng k := rfl
@[simp] theorem State.setQ_at_lane (s : State) (q : Nat) (x : Queue) (k : Nat) : (s.setQ q x).lane k = s.lane k := rfl
@[simp] theorem State.setQ_at_dom (s : State) (q : Nat) (x : Queue) (k : Nat) : (s.setQ q x).dom k = s.dom k := rfl
@[simp] theorem State.setQ_at_box (s : State) (q : Nat) (x : Queue) (k : Bool) : (s.setQ q x).box k = s.box k := rfl
@[simp] theorem State.setQ_at_modl (s : State) (q : Nat) (x : Queue) (k : Nat) : (s.setQ q x).modl k = s.modl k := rfl
/-! ### State.setEng -/
@[simp] theorem State.setEng_pending (s : State) (e : Nat) (x : Engine) : (s.setEng e x).pending = s.pending := rfl
@[simp] theorem State.setEng_sent (s : State) (e : Nat) (x : Engine) : (s.setEng e x).sent = s.sent := rfl
@[simp] theorem State.setEng_free (s : State) (e : Nat) (x : Engine) : (s.setEng e x).free = s.free := rfl
@[simp] theorem State.setEng_blocks (s : State) (e : Nat) (x : Engine) : (s.setEng e x).blocks = s.blocks := rfl
@[simp] theorem State.setEng_coh (s : State) (e : Nat) (x : Engine) : (s.setEng e x).coh = s.coh := rfl
@[simp] theorem State.setEng_stk (s : State) (e : Nat) (x : Engine) : (s.setEng e x).stk = s.stk := rfl
@[simp] theorem State.setEng_hpt (s : State) (e : Nat) (x : Engine) : (s.setEng e x).hpt = s.hpt := rfl
@[simp] theorem State.setEng_xlt (s : State) (e : Nat) (x : Engine) : (s.setEng e x).xlt = s.xlt := rfl
@[simp] theorem State.setEng_net (s : State) (e : Nat) (x : Engine) : (s.setEng e x).net = s.net := rfl
@[simp] theorem State.setEng_col (s : State) (e : Nat) (x : Engine) : (s.setEng e x).col = s.col := rfl
@[simp] theorem State.setEng_skm (s : State) (e : Nat) (x : Engine) : (s.setEng e x).skm = s.skm := rfl
@[simp] theorem State.setEng_flt (s : State) (e : Nat) (x : Engine) : (s.setEng e x).flt = s.flt := rfl
@[simp] theorem State.setEng_snag (s : State) (e : Nat) (x : Engine) : (s.setEng e x).snag = s.snag := rfl
@[simp] theorem State.setEng_mail (s : State) (e : Nat) (x : Engine) : (s.setEng e x).mail = s.mail := rfl
@[simp] theorem State.setEng_evt (s : State) (e : Nat) (x : Engine) : (s.setEng e x).evt = s.evt := rfl
@[simp] theorem State.setEng_pwr (s : State) (e : Nat) (x : Engine) : (s.setEng e x).pwr = s.pwr := rfl
@[simp] theorem State.setEng_rst (s : State) (e : Nat) (x : Engine) : (s.setEng e x).rst = s.rst := rfl
@[simp] theorem State.setEng_idn (s : State) (e : Nat) (x : Engine) : (s.setEng e x).idn = s.idn := rfl
@[simp] theorem State.setEng_at_blk (s : State) (e : Nat) (x : Engine) (k : Nat) : (s.setEng e x).blk k = s.blk k := rfl
@[simp] theorem State.setEng_at_thr (s : State) (e : Nat) (x : Engine) (k j : Nat) : (s.setEng e x).thr k j = s.thr k j := rfl
@[simp] theorem State.setEng_at_bc (s : State) (e : Nat) (x : Engine) (k : Nat) : (s.setEng e x).bc k = s.bc k := rfl
@[simp] theorem State.setEng_at_rc (s : State) (e : Nat) (x : Engine) (k : Nat) : (s.setEng e x).rc k = s.rc k := rfl
@[simp] theorem State.setEng_at_wc (s : State) (e : Nat) (x : Engine) (k : Nat) : (s.setEng e x).wc k = s.wc k := rfl
@[simp] theorem State.setEng_at_mport (s : State) (e : Nat) (x : Engine) (k : Nat) : (s.setEng e x).mport k = s.mport k := rfl
@[simp] theorem State.setEng_at_lg (s : State) (e : Nat) (x : Engine) (k : Nat) : (s.setEng e x).lg k = s.lg k := rfl
@[simp] theorem State.setEng_at_map (s : State) (e : Nat) (x : Engine) (k : Nat) : (s.setEng e x).map k = s.map k := rfl
@[simp] theorem State.setEng_at_q (s : State) (e : Nat) (x : Engine) (k : Nat) : (s.setEng e x).q k = s.q k := rfl
@[simp] theorem State.setEng_at_qp (s : State) (e : Nat) (x : Engine) (k : Nat) : (s.setEng e x).qp k = s.qp k := rfl
@[simp] theorem State.setEng_at_ifc (s : State) (e : Nat) (x : Engine) (k : Nat) : (s.setEng e x).ifc k = s.ifc k := rfl
@[simp] theorem State.setEng_at_ceng (s : State) (e : Nat) (x : Engine) (k : Nat) : (s.setEng e x).ceng k = s.ceng k := rfl
@[simp] theorem State.setEng_at_lane (s : State) (e : Nat) (x : Engine) (k : Nat) : (s.setEng e x).lane k = s.lane k := rfl
@[simp] theorem State.setEng_at_dom (s : State) (e : Nat) (x : Engine) (k : Nat) : (s.setEng e x).dom k = s.dom k := rfl
@[simp] theorem State.setEng_at_box (s : State) (e : Nat) (x : Engine) (k : Bool) : (s.setEng e x).box k = s.box k := rfl
@[simp] theorem State.setEng_at_modl (s : State) (e : Nat) (x : Engine) (k : Nat) : (s.setEng e x).modl k = s.modl k := rfl
/-! ### State.setQp -/
@[simp] theorem State.setQp_pending (s : State) (n : Nat) (x : Qp) : (s.setQp n x).pending = s.pending := rfl
@[simp] theorem State.setQp_sent (s : State) (n : Nat) (x : Qp) : (s.setQp n x).sent = s.sent := rfl
@[simp] theorem State.setQp_free (s : State) (n : Nat) (x : Qp) : (s.setQp n x).free = s.free := rfl
@[simp] theorem State.setQp_blocks (s : State) (n : Nat) (x : Qp) : (s.setQp n x).blocks = s.blocks := rfl
@[simp] theorem State.setQp_coh (s : State) (n : Nat) (x : Qp) : (s.setQp n x).coh = s.coh := rfl
@[simp] theorem State.setQp_stk (s : State) (n : Nat) (x : Qp) : (s.setQp n x).stk = s.stk := rfl
@[simp] theorem State.setQp_hpt (s : State) (n : Nat) (x : Qp) : (s.setQp n x).hpt = s.hpt := rfl
@[simp] theorem State.setQp_xlt (s : State) (n : Nat) (x : Qp) : (s.setQp n x).xlt = s.xlt := rfl
@[simp] theorem State.setQp_que (s : State) (n : Nat) (x : Qp) : (s.setQp n x).que = s.que := rfl
@[simp] theorem State.setQp_col (s : State) (n : Nat) (x : Qp) : (s.setQp n x).col = s.col := rfl
@[simp] theorem State.setQp_skm (s : State) (n : Nat) (x : Qp) : (s.setQp n x).skm = s.skm := rfl
@[simp] theorem State.setQp_flt (s : State) (n : Nat) (x : Qp) : (s.setQp n x).flt = s.flt := rfl
@[simp] theorem State.setQp_snag (s : State) (n : Nat) (x : Qp) : (s.setQp n x).snag = s.snag := rfl
@[simp] theorem State.setQp_mail (s : State) (n : Nat) (x : Qp) : (s.setQp n x).mail = s.mail := rfl
@[simp] theorem State.setQp_evt (s : State) (n : Nat) (x : Qp) : (s.setQp n x).evt = s.evt := rfl
@[simp] theorem State.setQp_pwr (s : State) (n : Nat) (x : Qp) : (s.setQp n x).pwr = s.pwr := rfl
@[simp] theorem State.setQp_rst (s : State) (n : Nat) (x : Qp) : (s.setQp n x).rst = s.rst := rfl
@[simp] theorem State.setQp_idn (s : State) (n : Nat) (x : Qp) : (s.setQp n x).idn = s.idn := rfl
@[simp] theorem State.setQp_at_blk (s : State) (n : Nat) (x : Qp) (k : Nat) : (s.setQp n x).blk k = s.blk k := rfl
@[simp] theorem State.setQp_at_thr (s : State) (n : Nat) (x : Qp) (k j : Nat) : (s.setQp n x).thr k j = s.thr k j := rfl
@[simp] theorem State.setQp_at_bc (s : State) (n : Nat) (x : Qp) (k : Nat) : (s.setQp n x).bc k = s.bc k := rfl
@[simp] theorem State.setQp_at_rc (s : State) (n : Nat) (x : Qp) (k : Nat) : (s.setQp n x).rc k = s.rc k := rfl
@[simp] theorem State.setQp_at_wc (s : State) (n : Nat) (x : Qp) (k : Nat) : (s.setQp n x).wc k = s.wc k := rfl
@[simp] theorem State.setQp_at_mport (s : State) (n : Nat) (x : Qp) (k : Nat) : (s.setQp n x).mport k = s.mport k := rfl
@[simp] theorem State.setQp_at_lg (s : State) (n : Nat) (x : Qp) (k : Nat) : (s.setQp n x).lg k = s.lg k := rfl
@[simp] theorem State.setQp_at_map (s : State) (n : Nat) (x : Qp) (k : Nat) : (s.setQp n x).map k = s.map k := rfl
@[simp] theorem State.setQp_at_q (s : State) (n : Nat) (x : Qp) (k : Nat) : (s.setQp n x).q k = s.q k := rfl
@[simp] theorem State.setQp_at_eng (s : State) (n : Nat) (x : Qp) (k : Nat) : (s.setQp n x).eng k = s.eng k := rfl
@[simp] theorem State.setQp_at_ifc (s : State) (n : Nat) (x : Qp) (k : Nat) : (s.setQp n x).ifc k = s.ifc k := rfl
@[simp] theorem State.setQp_at_ceng (s : State) (n : Nat) (x : Qp) (k : Nat) : (s.setQp n x).ceng k = s.ceng k := rfl
@[simp] theorem State.setQp_at_lane (s : State) (n : Nat) (x : Qp) (k : Nat) : (s.setQp n x).lane k = s.lane k := rfl
@[simp] theorem State.setQp_at_dom (s : State) (n : Nat) (x : Qp) (k : Nat) : (s.setQp n x).dom k = s.dom k := rfl
@[simp] theorem State.setQp_at_box (s : State) (n : Nat) (x : Qp) (k : Bool) : (s.setQp n x).box k = s.box k := rfl
@[simp] theorem State.setQp_at_modl (s : State) (n : Nat) (x : Qp) (k : Nat) : (s.setQp n x).modl k = s.modl k := rfl
/-! ### State.setIfc -/
@[simp] theorem State.setIfc_pending (s : State) (i : Nat) (x : Ifc) : (s.setIfc i x).pending = s.pending := rfl
@[simp] theorem State.setIfc_sent (s : State) (i : Nat) (x : Ifc) : (s.setIfc i x).sent = s.sent := rfl
@[simp] theorem State.setIfc_free (s : State) (i : Nat) (x : Ifc) : (s.setIfc i x).free = s.free := rfl
@[simp] theorem State.setIfc_blocks (s : State) (i : Nat) (x : Ifc) : (s.setIfc i x).blocks = s.blocks := rfl
@[simp] theorem State.setIfc_coh (s : State) (i : Nat) (x : Ifc) : (s.setIfc i x).coh = s.coh := rfl
@[simp] theorem State.setIfc_stk (s : State) (i : Nat) (x : Ifc) : (s.setIfc i x).stk = s.stk := rfl
@[simp] theorem State.setIfc_hpt (s : State) (i : Nat) (x : Ifc) : (s.setIfc i x).hpt = s.hpt := rfl
@[simp] theorem State.setIfc_xlt (s : State) (i : Nat) (x : Ifc) : (s.setIfc i x).xlt = s.xlt := rfl
@[simp] theorem State.setIfc_que (s : State) (i : Nat) (x : Ifc) : (s.setIfc i x).que = s.que := rfl
@[simp] theorem State.setIfc_col (s : State) (i : Nat) (x : Ifc) : (s.setIfc i x).col = s.col := rfl
@[simp] theorem State.setIfc_skm (s : State) (i : Nat) (x : Ifc) : (s.setIfc i x).skm = s.skm := rfl
@[simp] theorem State.setIfc_flt (s : State) (i : Nat) (x : Ifc) : (s.setIfc i x).flt = s.flt := rfl
@[simp] theorem State.setIfc_snag (s : State) (i : Nat) (x : Ifc) : (s.setIfc i x).snag = s.snag := rfl
@[simp] theorem State.setIfc_mail (s : State) (i : Nat) (x : Ifc) : (s.setIfc i x).mail = s.mail := rfl
@[simp] theorem State.setIfc_evt (s : State) (i : Nat) (x : Ifc) : (s.setIfc i x).evt = s.evt := rfl
@[simp] theorem State.setIfc_pwr (s : State) (i : Nat) (x : Ifc) : (s.setIfc i x).pwr = s.pwr := rfl
@[simp] theorem State.setIfc_rst (s : State) (i : Nat) (x : Ifc) : (s.setIfc i x).rst = s.rst := rfl
@[simp] theorem State.setIfc_idn (s : State) (i : Nat) (x : Ifc) : (s.setIfc i x).idn = s.idn := rfl
@[simp] theorem State.setIfc_at_blk (s : State) (i : Nat) (x : Ifc) (k : Nat) : (s.setIfc i x).blk k = s.blk k := rfl
@[simp] theorem State.setIfc_at_thr (s : State) (i : Nat) (x : Ifc) (k j : Nat) : (s.setIfc i x).thr k j = s.thr k j := rfl
@[simp] theorem State.setIfc_at_bc (s : State) (i : Nat) (x : Ifc) (k : Nat) : (s.setIfc i x).bc k = s.bc k := rfl
@[simp] theorem State.setIfc_at_rc (s : State) (i : Nat) (x : Ifc) (k : Nat) : (s.setIfc i x).rc k = s.rc k := rfl
@[simp] theorem State.setIfc_at_wc (s : State) (i : Nat) (x : Ifc) (k : Nat) : (s.setIfc i x).wc k = s.wc k := rfl
@[simp] theorem State.setIfc_at_mport (s : State) (i : Nat) (x : Ifc) (k : Nat) : (s.setIfc i x).mport k = s.mport k := rfl
@[simp] theorem State.setIfc_at_lg (s : State) (i : Nat) (x : Ifc) (k : Nat) : (s.setIfc i x).lg k = s.lg k := rfl
@[simp] theorem State.setIfc_at_map (s : State) (i : Nat) (x : Ifc) (k : Nat) : (s.setIfc i x).map k = s.map k := rfl
@[simp] theorem State.setIfc_at_q (s : State) (i : Nat) (x : Ifc) (k : Nat) : (s.setIfc i x).q k = s.q k := rfl
@[simp] theorem State.setIfc_at_eng (s : State) (i : Nat) (x : Ifc) (k : Nat) : (s.setIfc i x).eng k = s.eng k := rfl
@[simp] theorem State.setIfc_at_qp (s : State) (i : Nat) (x : Ifc) (k : Nat) : (s.setIfc i x).qp k = s.qp k := rfl
@[simp] theorem State.setIfc_at_ceng (s : State) (i : Nat) (x : Ifc) (k : Nat) : (s.setIfc i x).ceng k = s.ceng k := rfl
@[simp] theorem State.setIfc_at_lane (s : State) (i : Nat) (x : Ifc) (k : Nat) : (s.setIfc i x).lane k = s.lane k := rfl
@[simp] theorem State.setIfc_at_dom (s : State) (i : Nat) (x : Ifc) (k : Nat) : (s.setIfc i x).dom k = s.dom k := rfl
@[simp] theorem State.setIfc_at_box (s : State) (i : Nat) (x : Ifc) (k : Bool) : (s.setIfc i x).box k = s.box k := rfl
@[simp] theorem State.setIfc_at_modl (s : State) (i : Nat) (x : Ifc) (k : Nat) : (s.setIfc i x).modl k = s.modl k := rfl
/-! ### State.setCeng -/
@[simp] theorem State.setCeng_pending (s : State) (r : Nat) (x : CollEngine) : (s.setCeng r x).pending = s.pending := rfl
@[simp] theorem State.setCeng_sent (s : State) (r : Nat) (x : CollEngine) : (s.setCeng r x).sent = s.sent := rfl
@[simp] theorem State.setCeng_free (s : State) (r : Nat) (x : CollEngine) : (s.setCeng r x).free = s.free := rfl
@[simp] theorem State.setCeng_blocks (s : State) (r : Nat) (x : CollEngine) : (s.setCeng r x).blocks = s.blocks := rfl
@[simp] theorem State.setCeng_coh (s : State) (r : Nat) (x : CollEngine) : (s.setCeng r x).coh = s.coh := rfl
@[simp] theorem State.setCeng_stk (s : State) (r : Nat) (x : CollEngine) : (s.setCeng r x).stk = s.stk := rfl
@[simp] theorem State.setCeng_hpt (s : State) (r : Nat) (x : CollEngine) : (s.setCeng r x).hpt = s.hpt := rfl
@[simp] theorem State.setCeng_xlt (s : State) (r : Nat) (x : CollEngine) : (s.setCeng r x).xlt = s.xlt := rfl
@[simp] theorem State.setCeng_que (s : State) (r : Nat) (x : CollEngine) : (s.setCeng r x).que = s.que := rfl
@[simp] theorem State.setCeng_net (s : State) (r : Nat) (x : CollEngine) : (s.setCeng r x).net = s.net := rfl
@[simp] theorem State.setCeng_skm (s : State) (r : Nat) (x : CollEngine) : (s.setCeng r x).skm = s.skm := rfl
@[simp] theorem State.setCeng_flt (s : State) (r : Nat) (x : CollEngine) : (s.setCeng r x).flt = s.flt := rfl
@[simp] theorem State.setCeng_snag (s : State) (r : Nat) (x : CollEngine) : (s.setCeng r x).snag = s.snag := rfl
@[simp] theorem State.setCeng_mail (s : State) (r : Nat) (x : CollEngine) : (s.setCeng r x).mail = s.mail := rfl
@[simp] theorem State.setCeng_evt (s : State) (r : Nat) (x : CollEngine) : (s.setCeng r x).evt = s.evt := rfl
@[simp] theorem State.setCeng_pwr (s : State) (r : Nat) (x : CollEngine) : (s.setCeng r x).pwr = s.pwr := rfl
@[simp] theorem State.setCeng_rst (s : State) (r : Nat) (x : CollEngine) : (s.setCeng r x).rst = s.rst := rfl
@[simp] theorem State.setCeng_idn (s : State) (r : Nat) (x : CollEngine) : (s.setCeng r x).idn = s.idn := rfl
@[simp] theorem State.setCeng_at_blk (s : State) (r : Nat) (x : CollEngine) (k : Nat) : (s.setCeng r x).blk k = s.blk k := rfl
@[simp] theorem State.setCeng_at_thr (s : State) (r : Nat) (x : CollEngine) (k j : Nat) : (s.setCeng r x).thr k j = s.thr k j := rfl
@[simp] theorem State.setCeng_at_bc (s : State) (r : Nat) (x : CollEngine) (k : Nat) : (s.setCeng r x).bc k = s.bc k := rfl
@[simp] theorem State.setCeng_at_rc (s : State) (r : Nat) (x : CollEngine) (k : Nat) : (s.setCeng r x).rc k = s.rc k := rfl
@[simp] theorem State.setCeng_at_wc (s : State) (r : Nat) (x : CollEngine) (k : Nat) : (s.setCeng r x).wc k = s.wc k := rfl
@[simp] theorem State.setCeng_at_mport (s : State) (r : Nat) (x : CollEngine) (k : Nat) : (s.setCeng r x).mport k = s.mport k := rfl
@[simp] theorem State.setCeng_at_lg (s : State) (r : Nat) (x : CollEngine) (k : Nat) : (s.setCeng r x).lg k = s.lg k := rfl
@[simp] theorem State.setCeng_at_map (s : State) (r : Nat) (x : CollEngine) (k : Nat) : (s.setCeng r x).map k = s.map k := rfl
@[simp] theorem State.setCeng_at_q (s : State) (r : Nat) (x : CollEngine) (k : Nat) : (s.setCeng r x).q k = s.q k := rfl
@[simp] theorem State.setCeng_at_eng (s : State) (r : Nat) (x : CollEngine) (k : Nat) : (s.setCeng r x).eng k = s.eng k := rfl
@[simp] theorem State.setCeng_at_qp (s : State) (r : Nat) (x : CollEngine) (k : Nat) : (s.setCeng r x).qp k = s.qp k := rfl
@[simp] theorem State.setCeng_at_ifc (s : State) (r : Nat) (x : CollEngine) (k : Nat) : (s.setCeng r x).ifc k = s.ifc k := rfl
@[simp] theorem State.setCeng_at_lane (s : State) (r : Nat) (x : CollEngine) (k : Nat) : (s.setCeng r x).lane k = s.lane k := rfl
@[simp] theorem State.setCeng_at_dom (s : State) (r : Nat) (x : CollEngine) (k : Nat) : (s.setCeng r x).dom k = s.dom k := rfl
@[simp] theorem State.setCeng_at_box (s : State) (r : Nat) (x : CollEngine) (k : Bool) : (s.setCeng r x).box k = s.box k := rfl
@[simp] theorem State.setCeng_at_modl (s : State) (r : Nat) (x : CollEngine) (k : Nat) : (s.setCeng r x).modl k = s.modl k := rfl
/-! ### State.setLane -/
@[simp] theorem State.setLane_pending (s : State) (l : Nat) (x : Lane) : (s.setLane l x).pending = s.pending := rfl
@[simp] theorem State.setLane_sent (s : State) (l : Nat) (x : Lane) : (s.setLane l x).sent = s.sent := rfl
@[simp] theorem State.setLane_free (s : State) (l : Nat) (x : Lane) : (s.setLane l x).free = s.free := rfl
@[simp] theorem State.setLane_blocks (s : State) (l : Nat) (x : Lane) : (s.setLane l x).blocks = s.blocks := rfl
@[simp] theorem State.setLane_coh (s : State) (l : Nat) (x : Lane) : (s.setLane l x).coh = s.coh := rfl
@[simp] theorem State.setLane_stk (s : State) (l : Nat) (x : Lane) : (s.setLane l x).stk = s.stk := rfl
@[simp] theorem State.setLane_hpt (s : State) (l : Nat) (x : Lane) : (s.setLane l x).hpt = s.hpt := rfl
@[simp] theorem State.setLane_xlt (s : State) (l : Nat) (x : Lane) : (s.setLane l x).xlt = s.xlt := rfl
@[simp] theorem State.setLane_que (s : State) (l : Nat) (x : Lane) : (s.setLane l x).que = s.que := rfl
@[simp] theorem State.setLane_net (s : State) (l : Nat) (x : Lane) : (s.setLane l x).net = s.net := rfl
@[simp] theorem State.setLane_col (s : State) (l : Nat) (x : Lane) : (s.setLane l x).col = s.col := rfl
@[simp] theorem State.setLane_flt (s : State) (l : Nat) (x : Lane) : (s.setLane l x).flt = s.flt := rfl
@[simp] theorem State.setLane_snag (s : State) (l : Nat) (x : Lane) : (s.setLane l x).snag = s.snag := rfl
@[simp] theorem State.setLane_mail (s : State) (l : Nat) (x : Lane) : (s.setLane l x).mail = s.mail := rfl
@[simp] theorem State.setLane_evt (s : State) (l : Nat) (x : Lane) : (s.setLane l x).evt = s.evt := rfl
@[simp] theorem State.setLane_pwr (s : State) (l : Nat) (x : Lane) : (s.setLane l x).pwr = s.pwr := rfl
@[simp] theorem State.setLane_rst (s : State) (l : Nat) (x : Lane) : (s.setLane l x).rst = s.rst := rfl
@[simp] theorem State.setLane_idn (s : State) (l : Nat) (x : Lane) : (s.setLane l x).idn = s.idn := rfl
@[simp] theorem State.setLane_at_blk (s : State) (l : Nat) (x : Lane) (k : Nat) : (s.setLane l x).blk k = s.blk k := rfl
@[simp] theorem State.setLane_at_thr (s : State) (l : Nat) (x : Lane) (k j : Nat) : (s.setLane l x).thr k j = s.thr k j := rfl
@[simp] theorem State.setLane_at_bc (s : State) (l : Nat) (x : Lane) (k : Nat) : (s.setLane l x).bc k = s.bc k := rfl
@[simp] theorem State.setLane_at_rc (s : State) (l : Nat) (x : Lane) (k : Nat) : (s.setLane l x).rc k = s.rc k := rfl
@[simp] theorem State.setLane_at_wc (s : State) (l : Nat) (x : Lane) (k : Nat) : (s.setLane l x).wc k = s.wc k := rfl
@[simp] theorem State.setLane_at_mport (s : State) (l : Nat) (x : Lane) (k : Nat) : (s.setLane l x).mport k = s.mport k := rfl
@[simp] theorem State.setLane_at_lg (s : State) (l : Nat) (x : Lane) (k : Nat) : (s.setLane l x).lg k = s.lg k := rfl
@[simp] theorem State.setLane_at_map (s : State) (l : Nat) (x : Lane) (k : Nat) : (s.setLane l x).map k = s.map k := rfl
@[simp] theorem State.setLane_at_q (s : State) (l : Nat) (x : Lane) (k : Nat) : (s.setLane l x).q k = s.q k := rfl
@[simp] theorem State.setLane_at_eng (s : State) (l : Nat) (x : Lane) (k : Nat) : (s.setLane l x).eng k = s.eng k := rfl
@[simp] theorem State.setLane_at_qp (s : State) (l : Nat) (x : Lane) (k : Nat) : (s.setLane l x).qp k = s.qp k := rfl
@[simp] theorem State.setLane_at_ifc (s : State) (l : Nat) (x : Lane) (k : Nat) : (s.setLane l x).ifc k = s.ifc k := rfl
@[simp] theorem State.setLane_at_ceng (s : State) (l : Nat) (x : Lane) (k : Nat) : (s.setLane l x).ceng k = s.ceng k := rfl
@[simp] theorem State.setLane_at_dom (s : State) (l : Nat) (x : Lane) (k : Nat) : (s.setLane l x).dom k = s.dom k := rfl
@[simp] theorem State.setLane_at_box (s : State) (l : Nat) (x : Lane) (k : Bool) : (s.setLane l x).box k = s.box k := rfl
@[simp] theorem State.setLane_at_modl (s : State) (l : Nat) (x : Lane) (k : Nat) : (s.setLane l x).modl k = s.modl k := rfl
/-! ### State.setDom -/
@[simp] theorem State.setDom_pending (s : State) (d : Nat) (x : Dom) : (s.setDom d x).pending = s.pending := rfl
@[simp] theorem State.setDom_sent (s : State) (d : Nat) (x : Dom) : (s.setDom d x).sent = s.sent := rfl
@[simp] theorem State.setDom_free (s : State) (d : Nat) (x : Dom) : (s.setDom d x).free = s.free := rfl
@[simp] theorem State.setDom_blocks (s : State) (d : Nat) (x : Dom) : (s.setDom d x).blocks = s.blocks := rfl
@[simp] theorem State.setDom_coh (s : State) (d : Nat) (x : Dom) : (s.setDom d x).coh = s.coh := rfl
@[simp] theorem State.setDom_stk (s : State) (d : Nat) (x : Dom) : (s.setDom d x).stk = s.stk := rfl
@[simp] theorem State.setDom_hpt (s : State) (d : Nat) (x : Dom) : (s.setDom d x).hpt = s.hpt := rfl
@[simp] theorem State.setDom_xlt (s : State) (d : Nat) (x : Dom) : (s.setDom d x).xlt = s.xlt := rfl
@[simp] theorem State.setDom_que (s : State) (d : Nat) (x : Dom) : (s.setDom d x).que = s.que := rfl
@[simp] theorem State.setDom_net (s : State) (d : Nat) (x : Dom) : (s.setDom d x).net = s.net := rfl
@[simp] theorem State.setDom_col (s : State) (d : Nat) (x : Dom) : (s.setDom d x).col = s.col := rfl
@[simp] theorem State.setDom_skm (s : State) (d : Nat) (x : Dom) : (s.setDom d x).skm = s.skm := rfl
@[simp] theorem State.setDom_flt (s : State) (d : Nat) (x : Dom) : (s.setDom d x).flt = s.flt := rfl
@[simp] theorem State.setDom_snag (s : State) (d : Nat) (x : Dom) : (s.setDom d x).snag = s.snag := rfl
@[simp] theorem State.setDom_mail (s : State) (d : Nat) (x : Dom) : (s.setDom d x).mail = s.mail := rfl
@[simp] theorem State.setDom_evt (s : State) (d : Nat) (x : Dom) : (s.setDom d x).evt = s.evt := rfl
@[simp] theorem State.setDom_rst (s : State) (d : Nat) (x : Dom) : (s.setDom d x).rst = s.rst := rfl
@[simp] theorem State.setDom_idn (s : State) (d : Nat) (x : Dom) : (s.setDom d x).idn = s.idn := rfl
@[simp] theorem State.setDom_at_blk (s : State) (d : Nat) (x : Dom) (k : Nat) : (s.setDom d x).blk k = s.blk k := rfl
@[simp] theorem State.setDom_at_thr (s : State) (d : Nat) (x : Dom) (k j : Nat) : (s.setDom d x).thr k j = s.thr k j := rfl
@[simp] theorem State.setDom_at_bc (s : State) (d : Nat) (x : Dom) (k : Nat) : (s.setDom d x).bc k = s.bc k := rfl
@[simp] theorem State.setDom_at_rc (s : State) (d : Nat) (x : Dom) (k : Nat) : (s.setDom d x).rc k = s.rc k := rfl
@[simp] theorem State.setDom_at_wc (s : State) (d : Nat) (x : Dom) (k : Nat) : (s.setDom d x).wc k = s.wc k := rfl
@[simp] theorem State.setDom_at_mport (s : State) (d : Nat) (x : Dom) (k : Nat) : (s.setDom d x).mport k = s.mport k := rfl
@[simp] theorem State.setDom_at_lg (s : State) (d : Nat) (x : Dom) (k : Nat) : (s.setDom d x).lg k = s.lg k := rfl
@[simp] theorem State.setDom_at_map (s : State) (d : Nat) (x : Dom) (k : Nat) : (s.setDom d x).map k = s.map k := rfl
@[simp] theorem State.setDom_at_q (s : State) (d : Nat) (x : Dom) (k : Nat) : (s.setDom d x).q k = s.q k := rfl
@[simp] theorem State.setDom_at_eng (s : State) (d : Nat) (x : Dom) (k : Nat) : (s.setDom d x).eng k = s.eng k := rfl
@[simp] theorem State.setDom_at_qp (s : State) (d : Nat) (x : Dom) (k : Nat) : (s.setDom d x).qp k = s.qp k := rfl
@[simp] theorem State.setDom_at_ifc (s : State) (d : Nat) (x : Dom) (k : Nat) : (s.setDom d x).ifc k = s.ifc k := rfl
@[simp] theorem State.setDom_at_ceng (s : State) (d : Nat) (x : Dom) (k : Nat) : (s.setDom d x).ceng k = s.ceng k := rfl
@[simp] theorem State.setDom_at_lane (s : State) (d : Nat) (x : Dom) (k : Nat) : (s.setDom d x).lane k = s.lane k := rfl
@[simp] theorem State.setDom_at_box (s : State) (d : Nat) (x : Dom) (k : Bool) : (s.setDom d x).box k = s.box k := rfl
@[simp] theorem State.setDom_at_modl (s : State) (d : Nat) (x : Dom) (k : Nat) : (s.setDom d x).modl k = s.modl k := rfl
/-! ### State.setBox -/
@[simp] theorem State.setBox_pending (s : State) (m : Bool) (x : Mailbox) : (s.setBox m x).pending = s.pending := rfl
@[simp] theorem State.setBox_sent (s : State) (m : Bool) (x : Mailbox) : (s.setBox m x).sent = s.sent := rfl
@[simp] theorem State.setBox_free (s : State) (m : Bool) (x : Mailbox) : (s.setBox m x).free = s.free := rfl
@[simp] theorem State.setBox_blocks (s : State) (m : Bool) (x : Mailbox) : (s.setBox m x).blocks = s.blocks := rfl
@[simp] theorem State.setBox_coh (s : State) (m : Bool) (x : Mailbox) : (s.setBox m x).coh = s.coh := rfl
@[simp] theorem State.setBox_stk (s : State) (m : Bool) (x : Mailbox) : (s.setBox m x).stk = s.stk := rfl
@[simp] theorem State.setBox_hpt (s : State) (m : Bool) (x : Mailbox) : (s.setBox m x).hpt = s.hpt := rfl
@[simp] theorem State.setBox_xlt (s : State) (m : Bool) (x : Mailbox) : (s.setBox m x).xlt = s.xlt := rfl
@[simp] theorem State.setBox_que (s : State) (m : Bool) (x : Mailbox) : (s.setBox m x).que = s.que := rfl
@[simp] theorem State.setBox_net (s : State) (m : Bool) (x : Mailbox) : (s.setBox m x).net = s.net := rfl
@[simp] theorem State.setBox_col (s : State) (m : Bool) (x : Mailbox) : (s.setBox m x).col = s.col := rfl
@[simp] theorem State.setBox_skm (s : State) (m : Bool) (x : Mailbox) : (s.setBox m x).skm = s.skm := rfl
@[simp] theorem State.setBox_flt (s : State) (m : Bool) (x : Mailbox) : (s.setBox m x).flt = s.flt := rfl
@[simp] theorem State.setBox_snag (s : State) (m : Bool) (x : Mailbox) : (s.setBox m x).snag = s.snag := rfl
@[simp] theorem State.setBox_evt (s : State) (m : Bool) (x : Mailbox) : (s.setBox m x).evt = s.evt := rfl
@[simp] theorem State.setBox_pwr (s : State) (m : Bool) (x : Mailbox) : (s.setBox m x).pwr = s.pwr := rfl
@[simp] theorem State.setBox_rst (s : State) (m : Bool) (x : Mailbox) : (s.setBox m x).rst = s.rst := rfl
@[simp] theorem State.setBox_idn (s : State) (m : Bool) (x : Mailbox) : (s.setBox m x).idn = s.idn := rfl
@[simp] theorem State.setBox_at_blk (s : State) (m : Bool) (x : Mailbox) (k : Nat) : (s.setBox m x).blk k = s.blk k := rfl
@[simp] theorem State.setBox_at_thr (s : State) (m : Bool) (x : Mailbox) (k j : Nat) : (s.setBox m x).thr k j = s.thr k j := rfl
@[simp] theorem State.setBox_at_bc (s : State) (m : Bool) (x : Mailbox) (k : Nat) : (s.setBox m x).bc k = s.bc k := rfl
@[simp] theorem State.setBox_at_rc (s : State) (m : Bool) (x : Mailbox) (k : Nat) : (s.setBox m x).rc k = s.rc k := rfl
@[simp] theorem State.setBox_at_wc (s : State) (m : Bool) (x : Mailbox) (k : Nat) : (s.setBox m x).wc k = s.wc k := rfl
@[simp] theorem State.setBox_at_mport (s : State) (m : Bool) (x : Mailbox) (k : Nat) : (s.setBox m x).mport k = s.mport k := rfl
@[simp] theorem State.setBox_at_lg (s : State) (m : Bool) (x : Mailbox) (k : Nat) : (s.setBox m x).lg k = s.lg k := rfl
@[simp] theorem State.setBox_at_map (s : State) (m : Bool) (x : Mailbox) (k : Nat) : (s.setBox m x).map k = s.map k := rfl
@[simp] theorem State.setBox_at_q (s : State) (m : Bool) (x : Mailbox) (k : Nat) : (s.setBox m x).q k = s.q k := rfl
@[simp] theorem State.setBox_at_eng (s : State) (m : Bool) (x : Mailbox) (k : Nat) : (s.setBox m x).eng k = s.eng k := rfl
@[simp] theorem State.setBox_at_qp (s : State) (m : Bool) (x : Mailbox) (k : Nat) : (s.setBox m x).qp k = s.qp k := rfl
@[simp] theorem State.setBox_at_ifc (s : State) (m : Bool) (x : Mailbox) (k : Nat) : (s.setBox m x).ifc k = s.ifc k := rfl
@[simp] theorem State.setBox_at_ceng (s : State) (m : Bool) (x : Mailbox) (k : Nat) : (s.setBox m x).ceng k = s.ceng k := rfl
@[simp] theorem State.setBox_at_lane (s : State) (m : Bool) (x : Mailbox) (k : Nat) : (s.setBox m x).lane k = s.lane k := rfl
@[simp] theorem State.setBox_at_dom (s : State) (m : Bool) (x : Mailbox) (k : Nat) : (s.setBox m x).dom k = s.dom k := rfl
@[simp] theorem State.setBox_at_modl (s : State) (m : Bool) (x : Mailbox) (k : Nat) : (s.setBox m x).modl k = s.modl k := rfl
/-! ### State.setModl -/
@[simp] theorem State.setModl_pending (s : State) (p : Nat) (x : Module) : (s.setModl p x).pending = s.pending := rfl
@[simp] theorem State.setModl_sent (s : State) (p : Nat) (x : Module) : (s.setModl p x).sent = s.sent := rfl
@[simp] theorem State.setModl_free (s : State) (p : Nat) (x : Module) : (s.setModl p x).free = s.free := rfl
@[simp] theorem State.setModl_blocks (s : State) (p : Nat) (x : Module) : (s.setModl p x).blocks = s.blocks := rfl
@[simp] theorem State.setModl_coh (s : State) (p : Nat) (x : Module) : (s.setModl p x).coh = s.coh := rfl
@[simp] theorem State.setModl_stk (s : State) (p : Nat) (x : Module) : (s.setModl p x).stk = s.stk := rfl
@[simp] theorem State.setModl_hpt (s : State) (p : Nat) (x : Module) : (s.setModl p x).hpt = s.hpt := rfl
@[simp] theorem State.setModl_xlt (s : State) (p : Nat) (x : Module) : (s.setModl p x).xlt = s.xlt := rfl
@[simp] theorem State.setModl_que (s : State) (p : Nat) (x : Module) : (s.setModl p x).que = s.que := rfl
@[simp] theorem State.setModl_net (s : State) (p : Nat) (x : Module) : (s.setModl p x).net = s.net := rfl
@[simp] theorem State.setModl_col (s : State) (p : Nat) (x : Module) : (s.setModl p x).col = s.col := rfl
@[simp] theorem State.setModl_skm (s : State) (p : Nat) (x : Module) : (s.setModl p x).skm = s.skm := rfl
@[simp] theorem State.setModl_flt (s : State) (p : Nat) (x : Module) : (s.setModl p x).flt = s.flt := rfl
@[simp] theorem State.setModl_snag (s : State) (p : Nat) (x : Module) : (s.setModl p x).snag = s.snag := rfl
@[simp] theorem State.setModl_mail (s : State) (p : Nat) (x : Module) : (s.setModl p x).mail = s.mail := rfl
@[simp] theorem State.setModl_evt (s : State) (p : Nat) (x : Module) : (s.setModl p x).evt = s.evt := rfl
@[simp] theorem State.setModl_pwr (s : State) (p : Nat) (x : Module) : (s.setModl p x).pwr = s.pwr := rfl
@[simp] theorem State.setModl_rst (s : State) (p : Nat) (x : Module) : (s.setModl p x).rst = s.rst := rfl
@[simp] theorem State.setModl_at_blk (s : State) (p : Nat) (x : Module) (k : Nat) : (s.setModl p x).blk k = s.blk k := rfl
@[simp] theorem State.setModl_at_thr (s : State) (p : Nat) (x : Module) (k j : Nat) : (s.setModl p x).thr k j = s.thr k j := rfl
@[simp] theorem State.setModl_at_bc (s : State) (p : Nat) (x : Module) (k : Nat) : (s.setModl p x).bc k = s.bc k := rfl
@[simp] theorem State.setModl_at_rc (s : State) (p : Nat) (x : Module) (k : Nat) : (s.setModl p x).rc k = s.rc k := rfl
@[simp] theorem State.setModl_at_wc (s : State) (p : Nat) (x : Module) (k : Nat) : (s.setModl p x).wc k = s.wc k := rfl
@[simp] theorem State.setModl_at_mport (s : State) (p : Nat) (x : Module) (k : Nat) : (s.setModl p x).mport k = s.mport k := rfl
@[simp] theorem State.setModl_at_lg (s : State) (p : Nat) (x : Module) (k : Nat) : (s.setModl p x).lg k = s.lg k := rfl
@[simp] theorem State.setModl_at_map (s : State) (p : Nat) (x : Module) (k : Nat) : (s.setModl p x).map k = s.map k := rfl
@[simp] theorem State.setModl_at_q (s : State) (p : Nat) (x : Module) (k : Nat) : (s.setModl p x).q k = s.q k := rfl
@[simp] theorem State.setModl_at_eng (s : State) (p : Nat) (x : Module) (k : Nat) : (s.setModl p x).eng k = s.eng k := rfl
@[simp] theorem State.setModl_at_qp (s : State) (p : Nat) (x : Module) (k : Nat) : (s.setModl p x).qp k = s.qp k := rfl
@[simp] theorem State.setModl_at_ifc (s : State) (p : Nat) (x : Module) (k : Nat) : (s.setModl p x).ifc k = s.ifc k := rfl
@[simp] theorem State.setModl_at_ceng (s : State) (p : Nat) (x : Module) (k : Nat) : (s.setModl p x).ceng k = s.ceng k := rfl
@[simp] theorem State.setModl_at_lane (s : State) (p : Nat) (x : Module) (k : Nat) : (s.setModl p x).lane k = s.lane k := rfl
@[simp] theorem State.setModl_at_dom (s : State) (p : Nat) (x : Module) (k : Nat) : (s.setModl p x).dom k = s.dom k := rfl
@[simp] theorem State.setModl_at_box (s : State) (p : Nat) (x : Module) (k : Bool) : (s.setModl p x).box k = s.box k := rfl
/-! ### State.emit -/
@[simp] theorem State.emit_pending (s : State) (e : Emit) : (s.emit e).pending = s.pending := rfl
@[simp] theorem State.emit_free (s : State) (e : Emit) : (s.emit e).free = s.free := rfl
@[simp] theorem State.emit_blocks (s : State) (e : Emit) : (s.emit e).blocks = s.blocks := rfl
@[simp] theorem State.emit_coh (s : State) (e : Emit) : (s.emit e).coh = s.coh := rfl
@[simp] theorem State.emit_stk (s : State) (e : Emit) : (s.emit e).stk = s.stk := rfl
@[simp] theorem State.emit_hpt (s : State) (e : Emit) : (s.emit e).hpt = s.hpt := rfl
@[simp] theorem State.emit_xlt (s : State) (e : Emit) : (s.emit e).xlt = s.xlt := rfl
@[simp] theorem State.emit_que (s : State) (e : Emit) : (s.emit e).que = s.que := rfl
@[simp] theorem State.emit_net (s : State) (e : Emit) : (s.emit e).net = s.net := rfl
@[simp] theorem State.emit_col (s : State) (e : Emit) : (s.emit e).col = s.col := rfl
@[simp] theorem State.emit_skm (s : State) (e : Emit) : (s.emit e).skm = s.skm := rfl
@[simp] theorem State.emit_flt (s : State) (e : Emit) : (s.emit e).flt = s.flt := rfl
@[simp] theorem State.emit_snag (s : State) (e : Emit) : (s.emit e).snag = s.snag := rfl
@[simp] theorem State.emit_mail (s : State) (e : Emit) : (s.emit e).mail = s.mail := rfl
@[simp] theorem State.emit_evt (s : State) (e : Emit) : (s.emit e).evt = s.evt := rfl
@[simp] theorem State.emit_pwr (s : State) (e : Emit) : (s.emit e).pwr = s.pwr := rfl
@[simp] theorem State.emit_rst (s : State) (e : Emit) : (s.emit e).rst = s.rst := rfl
@[simp] theorem State.emit_idn (s : State) (e : Emit) : (s.emit e).idn = s.idn := rfl
@[simp] theorem State.emit_at_blk (s : State) (e : Emit) (k : Nat) : (s.emit e).blk k = s.blk k := rfl
@[simp] theorem State.emit_at_thr (s : State) (e : Emit) (k j : Nat) : (s.emit e).thr k j = s.thr k j := rfl
@[simp] theorem State.emit_at_bc (s : State) (e : Emit) (k : Nat) : (s.emit e).bc k = s.bc k := rfl
@[simp] theorem State.emit_at_rc (s : State) (e : Emit) (k : Nat) : (s.emit e).rc k = s.rc k := rfl
@[simp] theorem State.emit_at_wc (s : State) (e : Emit) (k : Nat) : (s.emit e).wc k = s.wc k := rfl
@[simp] theorem State.emit_at_mport (s : State) (e : Emit) (k : Nat) : (s.emit e).mport k = s.mport k := rfl
@[simp] theorem State.emit_at_lg (s : State) (e : Emit) (k : Nat) : (s.emit e).lg k = s.lg k := rfl
@[simp] theorem State.emit_at_map (s : State) (e : Emit) (k : Nat) : (s.emit e).map k = s.map k := rfl
@[simp] theorem State.emit_at_q (s : State) (e : Emit) (k : Nat) : (s.emit e).q k = s.q k := rfl
@[simp] theorem State.emit_at_eng (s : State) (e : Emit) (k : Nat) : (s.emit e).eng k = s.eng k := rfl
@[simp] theorem State.emit_at_qp (s : State) (e : Emit) (k : Nat) : (s.emit e).qp k = s.qp k := rfl
@[simp] theorem State.emit_at_ifc (s : State) (e : Emit) (k : Nat) : (s.emit e).ifc k = s.ifc k := rfl
@[simp] theorem State.emit_at_ceng (s : State) (e : Emit) (k : Nat) : (s.emit e).ceng k = s.ceng k := rfl
@[simp] theorem State.emit_at_lane (s : State) (e : Emit) (k : Nat) : (s.emit e).lane k = s.lane k := rfl
@[simp] theorem State.emit_at_dom (s : State) (e : Emit) (k : Nat) : (s.emit e).dom k = s.dom k := rfl
@[simp] theorem State.emit_at_box (s : State) (e : Emit) (k : Bool) : (s.emit e).box k = s.box k := rfl
@[simp] theorem State.emit_at_modl (s : State) (e : Emit) (k : Nat) : (s.emit e).modl k = s.modl k := rfl
/-! ### State.emits -/
@[simp] theorem State.emits_pending (s : State) (l : List Emit) : (s.emits l).pending = s.pending := rfl
@[simp] theorem State.emits_free (s : State) (l : List Emit) : (s.emits l).free = s.free := rfl
@[simp] theorem State.emits_blocks (s : State) (l : List Emit) : (s.emits l).blocks = s.blocks := rfl
@[simp] theorem State.emits_coh (s : State) (l : List Emit) : (s.emits l).coh = s.coh := rfl
@[simp] theorem State.emits_stk (s : State) (l : List Emit) : (s.emits l).stk = s.stk := rfl
@[simp] theorem State.emits_hpt (s : State) (l : List Emit) : (s.emits l).hpt = s.hpt := rfl
@[simp] theorem State.emits_xlt (s : State) (l : List Emit) : (s.emits l).xlt = s.xlt := rfl
@[simp] theorem State.emits_que (s : State) (l : List Emit) : (s.emits l).que = s.que := rfl
@[simp] theorem State.emits_net (s : State) (l : List Emit) : (s.emits l).net = s.net := rfl
@[simp] theorem State.emits_col (s : State) (l : List Emit) : (s.emits l).col = s.col := rfl
@[simp] theorem State.emits_skm (s : State) (l : List Emit) : (s.emits l).skm = s.skm := rfl
@[simp] theorem State.emits_flt (s : State) (l : List Emit) : (s.emits l).flt = s.flt := rfl
@[simp] theorem State.emits_snag (s : State) (l : List Emit) : (s.emits l).snag = s.snag := rfl
@[simp] theorem State.emits_mail (s : State) (l : List Emit) : (s.emits l).mail = s.mail := rfl
@[simp] theorem State.emits_evt (s : State) (l : List Emit) : (s.emits l).evt = s.evt := rfl
@[simp] theorem State.emits_pwr (s : State) (l : List Emit) : (s.emits l).pwr = s.pwr := rfl
@[simp] theorem State.emits_rst (s : State) (l : List Emit) : (s.emits l).rst = s.rst := rfl
@[simp] theorem State.emits_idn (s : State) (l : List Emit) : (s.emits l).idn = s.idn := rfl
@[simp] theorem State.emits_at_blk (s : State) (l : List Emit) (k : Nat) : (s.emits l).blk k = s.blk k := rfl
@[simp] theorem State.emits_at_thr (s : State) (l : List Emit) (k j : Nat) : (s.emits l).thr k j = s.thr k j := rfl
@[simp] theorem State.emits_at_bc (s : State) (l : List Emit) (k : Nat) : (s.emits l).bc k = s.bc k := rfl
@[simp] theorem State.emits_at_rc (s : State) (l : List Emit) (k : Nat) : (s.emits l).rc k = s.rc k := rfl
@[simp] theorem State.emits_at_wc (s : State) (l : List Emit) (k : Nat) : (s.emits l).wc k = s.wc k := rfl
@[simp] theorem State.emits_at_mport (s : State) (l : List Emit) (k : Nat) : (s.emits l).mport k = s.mport k := rfl
@[simp] theorem State.emits_at_lg (s : State) (l : List Emit) (k : Nat) : (s.emits l).lg k = s.lg k := rfl
@[simp] theorem State.emits_at_map (s : State) (l : List Emit) (k : Nat) : (s.emits l).map k = s.map k := rfl
@[simp] theorem State.emits_at_q (s : State) (l : List Emit) (k : Nat) : (s.emits l).q k = s.q k := rfl
@[simp] theorem State.emits_at_eng (s : State) (l : List Emit) (k : Nat) : (s.emits l).eng k = s.eng k := rfl
@[simp] theorem State.emits_at_qp (s : State) (l : List Emit) (k : Nat) : (s.emits l).qp k = s.qp k := rfl
@[simp] theorem State.emits_at_ifc (s : State) (l : List Emit) (k : Nat) : (s.emits l).ifc k = s.ifc k := rfl
@[simp] theorem State.emits_at_ceng (s : State) (l : List Emit) (k : Nat) : (s.emits l).ceng k = s.ceng k := rfl
@[simp] theorem State.emits_at_lane (s : State) (l : List Emit) (k : Nat) : (s.emits l).lane k = s.lane k := rfl
@[simp] theorem State.emits_at_dom (s : State) (l : List Emit) (k : Nat) : (s.emits l).dom k = s.dom k := rfl
@[simp] theorem State.emits_at_box (s : State) (l : List Emit) (k : Bool) : (s.emits l).box k = s.box k := rfl
@[simp] theorem State.emits_at_modl (s : State) (l : List Emit) (k : Nat) : (s.emits l).modl k = s.modl k := rfl
/-! ### State.took -/
@[simp] theorem State.took_pending (s : State) (n : Nat) : (s.took n).pending = s.pending := rfl
@[simp] theorem State.took_sent (s : State) (n : Nat) : (s.took n).sent = s.sent := rfl
@[simp] theorem State.took_blocks (s : State) (n : Nat) : (s.took n).blocks = s.blocks := rfl
@[simp] theorem State.took_coh (s : State) (n : Nat) : (s.took n).coh = s.coh := rfl
@[simp] theorem State.took_stk (s : State) (n : Nat) : (s.took n).stk = s.stk := rfl
@[simp] theorem State.took_hpt (s : State) (n : Nat) : (s.took n).hpt = s.hpt := rfl
@[simp] theorem State.took_xlt (s : State) (n : Nat) : (s.took n).xlt = s.xlt := rfl
@[simp] theorem State.took_que (s : State) (n : Nat) : (s.took n).que = s.que := rfl
@[simp] theorem State.took_net (s : State) (n : Nat) : (s.took n).net = s.net := rfl
@[simp] theorem State.took_col (s : State) (n : Nat) : (s.took n).col = s.col := rfl
@[simp] theorem State.took_skm (s : State) (n : Nat) : (s.took n).skm = s.skm := rfl
@[simp] theorem State.took_flt (s : State) (n : Nat) : (s.took n).flt = s.flt := rfl
@[simp] theorem State.took_snag (s : State) (n : Nat) : (s.took n).snag = s.snag := rfl
@[simp] theorem State.took_mail (s : State) (n : Nat) : (s.took n).mail = s.mail := rfl
@[simp] theorem State.took_evt (s : State) (n : Nat) : (s.took n).evt = s.evt := rfl
@[simp] theorem State.took_pwr (s : State) (n : Nat) : (s.took n).pwr = s.pwr := rfl
@[simp] theorem State.took_rst (s : State) (n : Nat) : (s.took n).rst = s.rst := rfl
@[simp] theorem State.took_idn (s : State) (n : Nat) : (s.took n).idn = s.idn := rfl
@[simp] theorem State.took_at_blk (s : State) (n : Nat) (k : Nat) : (s.took n).blk k = s.blk k := rfl
@[simp] theorem State.took_at_thr (s : State) (n : Nat) (k j : Nat) : (s.took n).thr k j = s.thr k j := rfl
@[simp] theorem State.took_at_bc (s : State) (n : Nat) (k : Nat) : (s.took n).bc k = s.bc k := rfl
@[simp] theorem State.took_at_rc (s : State) (n : Nat) (k : Nat) : (s.took n).rc k = s.rc k := rfl
@[simp] theorem State.took_at_wc (s : State) (n : Nat) (k : Nat) : (s.took n).wc k = s.wc k := rfl
@[simp] theorem State.took_at_mport (s : State) (n : Nat) (k : Nat) : (s.took n).mport k = s.mport k := rfl
@[simp] theorem State.took_at_lg (s : State) (n : Nat) (k : Nat) : (s.took n).lg k = s.lg k := rfl
@[simp] theorem State.took_at_map (s : State) (n : Nat) (k : Nat) : (s.took n).map k = s.map k := rfl
@[simp] theorem State.took_at_q (s : State) (n : Nat) (k : Nat) : (s.took n).q k = s.q k := rfl
@[simp] theorem State.took_at_eng (s : State) (n : Nat) (k : Nat) : (s.took n).eng k = s.eng k := rfl
@[simp] theorem State.took_at_qp (s : State) (n : Nat) (k : Nat) : (s.took n).qp k = s.qp k := rfl
@[simp] theorem State.took_at_ifc (s : State) (n : Nat) (k : Nat) : (s.took n).ifc k = s.ifc k := rfl
@[simp] theorem State.took_at_ceng (s : State) (n : Nat) (k : Nat) : (s.took n).ceng k = s.ceng k := rfl
@[simp] theorem State.took_at_lane (s : State) (n : Nat) (k : Nat) : (s.took n).lane k = s.lane k := rfl
@[simp] theorem State.took_at_dom (s : State) (n : Nat) (k : Nat) : (s.took n).dom k = s.dom k := rfl
@[simp] theorem State.took_at_box (s : State) (n : Nat) (k : Bool) : (s.took n).box k = s.box k := rfl
@[simp] theorem State.took_at_modl (s : State) (n : Nat) (k : Nat) : (s.took n).modl k = s.modl k := rfl
/-! ### State.offered -/
@[simp] theorem State.offered_pending (s : State) (w : BitVec 512) : (s.offered w).pending = s.pending := rfl
@[simp] theorem State.offered_sent (s : State) (w : BitVec 512) : (s.offered w).sent = s.sent := rfl
@[simp] theorem State.offered_free (s : State) (w : BitVec 512) : (s.offered w).free = s.free := rfl
@[simp] theorem State.offered_blocks (s : State) (w : BitVec 512) : (s.offered w).blocks = s.blocks := rfl
@[simp] theorem State.offered_coh (s : State) (w : BitVec 512) : (s.offered w).coh = s.coh := rfl
@[simp] theorem State.offered_stk (s : State) (w : BitVec 512) : (s.offered w).stk = s.stk := rfl
@[simp] theorem State.offered_hpt (s : State) (w : BitVec 512) : (s.offered w).hpt = s.hpt := rfl
@[simp] theorem State.offered_xlt (s : State) (w : BitVec 512) : (s.offered w).xlt = s.xlt := rfl
@[simp] theorem State.offered_que (s : State) (w : BitVec 512) : (s.offered w).que = s.que := rfl
@[simp] theorem State.offered_net (s : State) (w : BitVec 512) : (s.offered w).net = s.net := rfl
@[simp] theorem State.offered_col (s : State) (w : BitVec 512) : (s.offered w).col = s.col := rfl
@[simp] theorem State.offered_skm (s : State) (w : BitVec 512) : (s.offered w).skm = s.skm := rfl
@[simp] theorem State.offered_snag (s : State) (w : BitVec 512) : (s.offered w).snag = s.snag := rfl
@[simp] theorem State.offered_mail (s : State) (w : BitVec 512) : (s.offered w).mail = s.mail := rfl
@[simp] theorem State.offered_evt (s : State) (w : BitVec 512) : (s.offered w).evt = s.evt := rfl
@[simp] theorem State.offered_pwr (s : State) (w : BitVec 512) : (s.offered w).pwr = s.pwr := rfl
@[simp] theorem State.offered_rst (s : State) (w : BitVec 512) : (s.offered w).rst = s.rst := rfl
@[simp] theorem State.offered_idn (s : State) (w : BitVec 512) : (s.offered w).idn = s.idn := rfl
@[simp] theorem State.offered_at_blk (s : State) (w : BitVec 512) (k : Nat) : (s.offered w).blk k = s.blk k := rfl
@[simp] theorem State.offered_at_thr (s : State) (w : BitVec 512) (k j : Nat) : (s.offered w).thr k j = s.thr k j := rfl
@[simp] theorem State.offered_at_bc (s : State) (w : BitVec 512) (k : Nat) : (s.offered w).bc k = s.bc k := rfl
@[simp] theorem State.offered_at_rc (s : State) (w : BitVec 512) (k : Nat) : (s.offered w).rc k = s.rc k := rfl
@[simp] theorem State.offered_at_wc (s : State) (w : BitVec 512) (k : Nat) : (s.offered w).wc k = s.wc k := rfl
@[simp] theorem State.offered_at_mport (s : State) (w : BitVec 512) (k : Nat) : (s.offered w).mport k = s.mport k := rfl
@[simp] theorem State.offered_at_lg (s : State) (w : BitVec 512) (k : Nat) : (s.offered w).lg k = s.lg k := rfl
@[simp] theorem State.offered_at_map (s : State) (w : BitVec 512) (k : Nat) : (s.offered w).map k = s.map k := rfl
@[simp] theorem State.offered_at_q (s : State) (w : BitVec 512) (k : Nat) : (s.offered w).q k = s.q k := rfl
@[simp] theorem State.offered_at_eng (s : State) (w : BitVec 512) (k : Nat) : (s.offered w).eng k = s.eng k := rfl
@[simp] theorem State.offered_at_qp (s : State) (w : BitVec 512) (k : Nat) : (s.offered w).qp k = s.qp k := rfl
@[simp] theorem State.offered_at_ifc (s : State) (w : BitVec 512) (k : Nat) : (s.offered w).ifc k = s.ifc k := rfl
@[simp] theorem State.offered_at_ceng (s : State) (w : BitVec 512) (k : Nat) : (s.offered w).ceng k = s.ceng k := rfl
@[simp] theorem State.offered_at_lane (s : State) (w : BitVec 512) (k : Nat) : (s.offered w).lane k = s.lane k := rfl
@[simp] theorem State.offered_at_dom (s : State) (w : BitVec 512) (k : Nat) : (s.offered w).dom k = s.dom k := rfl
@[simp] theorem State.offered_at_box (s : State) (w : BitVec 512) (k : Bool) : (s.offered w).box k = s.box k := rfl
@[simp] theorem State.offered_at_modl (s : State) (w : BitVec 512) (k : Nat) : (s.offered w).modl k = s.modl k := rfl
/-! ### State.snagLost -/
@[simp] theorem State.snagLost_pending (s : State) (c : Nat) : (s.snagLost c).pending = s.pending := rfl
@[simp] theorem State.snagLost_sent (s : State) (c : Nat) : (s.snagLost c).sent = s.sent := rfl
@[simp] theorem State.snagLost_free (s : State) (c : Nat) : (s.snagLost c).free = s.free := rfl
@[simp] theorem State.snagLost_blocks (s : State) (c : Nat) : (s.snagLost c).blocks = s.blocks := rfl
@[simp] theorem State.snagLost_coh (s : State) (c : Nat) : (s.snagLost c).coh = s.coh := rfl
@[simp] theorem State.snagLost_stk (s : State) (c : Nat) : (s.snagLost c).stk = s.stk := rfl
@[simp] theorem State.snagLost_hpt (s : State) (c : Nat) : (s.snagLost c).hpt = s.hpt := rfl
@[simp] theorem State.snagLost_xlt (s : State) (c : Nat) : (s.snagLost c).xlt = s.xlt := rfl
@[simp] theorem State.snagLost_que (s : State) (c : Nat) : (s.snagLost c).que = s.que := rfl
@[simp] theorem State.snagLost_net (s : State) (c : Nat) : (s.snagLost c).net = s.net := rfl
@[simp] theorem State.snagLost_col (s : State) (c : Nat) : (s.snagLost c).col = s.col := rfl
@[simp] theorem State.snagLost_skm (s : State) (c : Nat) : (s.snagLost c).skm = s.skm := rfl
@[simp] theorem State.snagLost_flt (s : State) (c : Nat) : (s.snagLost c).flt = s.flt := rfl
@[simp] theorem State.snagLost_mail (s : State) (c : Nat) : (s.snagLost c).mail = s.mail := rfl
@[simp] theorem State.snagLost_evt (s : State) (c : Nat) : (s.snagLost c).evt = s.evt := rfl
@[simp] theorem State.snagLost_pwr (s : State) (c : Nat) : (s.snagLost c).pwr = s.pwr := rfl
@[simp] theorem State.snagLost_rst (s : State) (c : Nat) : (s.snagLost c).rst = s.rst := rfl
@[simp] theorem State.snagLost_idn (s : State) (c : Nat) : (s.snagLost c).idn = s.idn := rfl
@[simp] theorem State.snagLost_at_blk (s : State) (c : Nat) (k : Nat) : (s.snagLost c).blk k = s.blk k := rfl
@[simp] theorem State.snagLost_at_thr (s : State) (c : Nat) (k j : Nat) : (s.snagLost c).thr k j = s.thr k j := rfl
@[simp] theorem State.snagLost_at_bc (s : State) (c : Nat) (k : Nat) : (s.snagLost c).bc k = s.bc k := rfl
@[simp] theorem State.snagLost_at_rc (s : State) (c : Nat) (k : Nat) : (s.snagLost c).rc k = s.rc k := rfl
@[simp] theorem State.snagLost_at_wc (s : State) (c : Nat) (k : Nat) : (s.snagLost c).wc k = s.wc k := rfl
@[simp] theorem State.snagLost_at_mport (s : State) (c : Nat) (k : Nat) : (s.snagLost c).mport k = s.mport k := rfl
@[simp] theorem State.snagLost_at_lg (s : State) (c : Nat) (k : Nat) : (s.snagLost c).lg k = s.lg k := rfl
@[simp] theorem State.snagLost_at_map (s : State) (c : Nat) (k : Nat) : (s.snagLost c).map k = s.map k := rfl
@[simp] theorem State.snagLost_at_q (s : State) (c : Nat) (k : Nat) : (s.snagLost c).q k = s.q k := rfl
@[simp] theorem State.snagLost_at_eng (s : State) (c : Nat) (k : Nat) : (s.snagLost c).eng k = s.eng k := rfl
@[simp] theorem State.snagLost_at_qp (s : State) (c : Nat) (k : Nat) : (s.snagLost c).qp k = s.qp k := rfl
@[simp] theorem State.snagLost_at_ifc (s : State) (c : Nat) (k : Nat) : (s.snagLost c).ifc k = s.ifc k := rfl
@[simp] theorem State.snagLost_at_ceng (s : State) (c : Nat) (k : Nat) : (s.snagLost c).ceng k = s.ceng k := rfl
@[simp] theorem State.snagLost_at_lane (s : State) (c : Nat) (k : Nat) : (s.snagLost c).lane k = s.lane k := rfl
@[simp] theorem State.snagLost_at_dom (s : State) (c : Nat) (k : Nat) : (s.snagLost c).dom k = s.dom k := rfl
@[simp] theorem State.snagLost_at_box (s : State) (c : Nat) (k : Bool) : (s.snagLost c).box k = s.box k := rfl
@[simp] theorem State.snagLost_at_modl (s : State) (c : Nat) (k : Nat) : (s.snagLost c).modl k = s.modl k := rfl

/-! ### What an update writes -/
@[simp] theorem State.blk_setBlk (s : State) (k : Nat) (x : Block) : (s.setBlk k x).blk k = x := Tab.get_set_same _ _ _ _
theorem State.blk_setBlk_ne (s : State) (k j : Nat) (x : Block) (h : j ≠ k) : (s.setBlk k x).blk j = s.blk j := Tab.get_set_ne _ _ _ _ _ h
@[simp] theorem State.thr_setThr (s : State) (b n : Nat) (x : Thread) : (s.setThr b n x).thr b n = x := Tab.get_set_same _ _ _ _
theorem State.thr_setThr_ne (s : State) (b n b' n' : Nat) (x : Thread) (h : 128 * b' + n' ≠ 128 * b + n) :
    (s.setThr b n x).thr b' n' = s.thr b' n' := Tab.get_set_ne _ _ _ _ _ h
@[simp] theorem State.bc_setBc (s : State) (k : Nat) (x : BCache) : (s.setBc k x).bc k = x := Tab.get_set_same _ _ _ _
theorem State.bc_setBc_ne (s : State) (k j : Nat) (x : BCache) (h : j ≠ k) : (s.setBc k x).bc j = s.bc j := Tab.get_set_ne _ _ _ _ _ h
@[simp] theorem State.rc_setRc (s : State) (k : Nat) (x : RCache) : (s.setRc k x).rc k = x := Tab.get_set_same _ _ _ _
theorem State.rc_setRc_ne (s : State) (k j : Nat) (x : RCache) (h : j ≠ k) : (s.setRc k x).rc j = s.rc j := Tab.get_set_ne _ _ _ _ _ h
@[simp] theorem State.wc_setWc (s : State) (k : Nat) (x : List WLine) : (s.setWc k x).wc k = x := Tab.get_set_same _ _ _ _
theorem State.wc_setWc_ne (s : State) (k j : Nat) (x : List WLine) (h : j ≠ k) : (s.setWc k x).wc j = s.wc j := Tab.get_set_ne _ _ _ _ _ h
@[simp] theorem State.mport_setMport (s : State) (k : Nat) (x : Port) : (s.setMport k x).mport k = x := Tab.get_set_same _ _ _ _
theorem State.mport_setMport_ne (s : State) (k j : Nat) (x : Port) (h : j ≠ k) : (s.setMport k x).mport j = s.mport j := Tab.get_set_ne _ _ _ _ _ h
@[simp] theorem State.lg_setLg (s : State) (k : Nat) (x : LinkGroup) : (s.setLg k x).lg k = x := Tab.get_set_same _ _ _ _
theorem State.lg_setLg_ne (s : State) (k j : Nat) (x : LinkGroup) (h : j ≠ k) : (s.setLg k x).lg j = s.lg j := Tab.get_set_ne _ _ _ _ _ h
@[simp] theorem State.map_setMap (s : State) (k : Nat) (x : MapReg) : (s.setMap k x).map k = x := Tab.get_set_same _ _ _ _
theorem State.map_setMap_ne (s : State) (k j : Nat) (x : MapReg) (h : j ≠ k) : (s.setMap k x).map j = s.map j := Tab.get_set_ne _ _ _ _ _ h
@[simp] theorem State.q_setQ (s : State) (k : Nat) (x : Queue) : (s.setQ k x).q k = x := Tab.get_set_same _ _ _ _
theorem State.q_setQ_ne (s : State) (k j : Nat) (x : Queue) (h : j ≠ k) : (s.setQ k x).q j = s.q j := Tab.get_set_ne _ _ _ _ _ h
@[simp] theorem State.eng_setEng (s : State) (k : Nat) (x : Engine) : (s.setEng k x).eng k = x := Tab.get_set_same _ _ _ _
theorem State.eng_setEng_ne (s : State) (k j : Nat) (x : Engine) (h : j ≠ k) : (s.setEng k x).eng j = s.eng j := Tab.get_set_ne _ _ _ _ _ h
@[simp] theorem State.qp_setQp (s : State) (k : Nat) (x : Qp) : (s.setQp k x).qp k = x := Tab.get_set_same _ _ _ _
theorem State.qp_setQp_ne (s : State) (k j : Nat) (x : Qp) (h : j ≠ k) : (s.setQp k x).qp j = s.qp j := Tab.get_set_ne _ _ _ _ _ h
@[simp] theorem State.ifc_setIfc (s : State) (k : Nat) (x : Ifc) : (s.setIfc k x).ifc k = x := Tab.get_set_same _ _ _ _
theorem State.ifc_setIfc_ne (s : State) (k j : Nat) (x : Ifc) (h : j ≠ k) : (s.setIfc k x).ifc j = s.ifc j := Tab.get_set_ne _ _ _ _ _ h
@[simp] theorem State.ceng_setCeng (s : State) (k : Nat) (x : CollEngine) : (s.setCeng k x).ceng k = x := Tab.get_set_same _ _ _ _
theorem State.ceng_setCeng_ne (s : State) (k j : Nat) (x : CollEngine) (h : j ≠ k) : (s.setCeng k x).ceng j = s.ceng j := Tab.get_set_ne _ _ _ _ _ h
@[simp] theorem State.lane_setLane (s : State) (k : Nat) (x : Lane) : (s.setLane k x).lane k = x := Tab.get_set_same _ _ _ _
theorem State.lane_setLane_ne (s : State) (k j : Nat) (x : Lane) (h : j ≠ k) : (s.setLane k x).lane j = s.lane j := Tab.get_set_ne _ _ _ _ _ h
@[simp] theorem State.dom_setDom (s : State) (k : Nat) (x : Dom) : (s.setDom k x).dom k = x := Tab.get_set_same _ _ _ _
theorem State.dom_setDom_ne (s : State) (k j : Nat) (x : Dom) (h : j ≠ k) : (s.setDom k x).dom j = s.dom j := Tab.get_set_ne _ _ _ _ _ h
@[simp] theorem State.box_setBox (s : State) (m : Bool) (x : Mailbox) : (s.setBox m x).box m = x := Tab.get_set_same _ _ _ _
theorem State.box_setBox_ne (s : State) (m k : Bool) (x : Mailbox) (h : k ≠ m) : (s.setBox m x).box k = s.box k :=
  Tab.get_set_ne _ _ _ _ _ (by cases m <;> cases k <;> simp_all [b2n])
@[simp] theorem State.modl_setModl (s : State) (k : Nat) (x : Module) : (s.setModl k x).modl k = x := Tab.get_set_same _ _ _ _
theorem State.modl_setModl_ne (s : State) (k j : Nat) (x : Module) (h : j ≠ k) : (s.setModl k x).modl j = s.modl j := Tab.get_set_ne _ _ _ _ _ h

/-! ### Two writes of one part -/
@[simp] theorem State.setBlk_twice (s : State) (b : Nat) (x y : Block) : (s.setBlk b x).setBlk b y = s.setBlk b y := by
  simp [State.setBlk]
@[simp] theorem State.setThr_twice (s : State) (b n : Nat) (x y : Thread) : (s.setThr b n x).setThr b n y = s.setThr b n y := by
  simp [State.setThr]
@[simp] theorem State.setBc_twice (s : State) (b : Nat) (x y : BCache) : (s.setBc b x).setBc b y = s.setBc b y := by
  simp [State.setBc]
@[simp] theorem State.setRc_twice (s : State) (r : Nat) (x y : RCache) : (s.setRc r x).setRc r y = s.setRc r y := by
  simp [State.setRc]
@[simp] theorem State.setWc_twice (s : State) (r : Nat) (x y : List WLine) : (s.setWc r x).setWc r y = s.setWc r y := by
  simp [State.setWc]
@[simp] theorem State.setMport_twice (s : State) (p : Nat) (x y : Port) : (s.setMport p x).setMport p y = s.setMport p y := by
  simp [State.setMport]
@[simp] theorem State.setLg_twice (s : State) (g : Nat) (x y : LinkGroup) : (s.setLg g x).setLg g y = s.setLg g y := by
  simp [State.setLg]
@[simp] theorem State.setMap_twice (s : State) (r : Nat) (x y : MapReg) : (s.setMap r x).setMap r y = s.setMap r y := by
  simp [State.setMap]
@[simp] theorem State.setQ_twice (s : State) (q : Nat) (x y : Queue) : (s.setQ q x).setQ q y = s.setQ q y := by
  simp [State.setQ]
@[simp] theorem State.setEng_twice (s : State) (e : Nat) (x y : Engine) : (s.setEng e x).setEng e y = s.setEng e y := by
  simp [State.setEng]
@[simp] theorem State.setQp_twice (s : State) (n : Nat) (x y : Qp) : (s.setQp n x).setQp n y = s.setQp n y := by
  simp [State.setQp]
@[simp] theorem State.setIfc_twice (s : State) (i : Nat) (x y : Ifc) : (s.setIfc i x).setIfc i y = s.setIfc i y := by
  simp [State.setIfc]
@[simp] theorem State.setCeng_twice (s : State) (r : Nat) (x y : CollEngine) : (s.setCeng r x).setCeng r y = s.setCeng r y := by
  simp [State.setCeng]
@[simp] theorem State.setLane_twice (s : State) (l : Nat) (x y : Lane) : (s.setLane l x).setLane l y = s.setLane l y := by
  simp [State.setLane]
@[simp] theorem State.setDom_twice (s : State) (d : Nat) (x y : Dom) : (s.setDom d x).setDom d y = s.setDom d y := by
  simp [State.setDom]
@[simp] theorem State.setBox_twice (s : State) (m : Bool) (x y : Mailbox) : (s.setBox m x).setBox m y = s.setBox m y := by
  simp [State.setBox]
@[simp] theorem State.setModl_twice (s : State) (p : Nat) (x y : Module) : (s.setModl p x).setModl p y = s.setModl p y := by
  simp [State.setModl]

@[simp] theorem State.emit_sent (s : State) (e : Emit) : (s.emit e).sent = s.sent ++ [e] := rfl
@[simp] theorem State.emits_sent (s : State) (l : List Emit) : (s.emits l).sent = s.sent ++ l := rfl
@[simp] theorem State.took_free (s : State) (n : Nat) : (s.took n).free = s.free + n := rfl

end Sys2Proof.Machine
end

