-- ==== Sys2Proof/Laws/Xlate.lean ====
section
/-! SUPPORT. What the translation of an address may change: a lookup changes the translation logic only, and an access that
translates changes nothing else (10_translation.md R265 to R274). -/
namespace Sys2Proof.Machine

/-- Two states that agree but for the translation logic. -/
def State.sameButXlt (s t : State) : Prop := t = { s with xlt := t.xlt }

theorem State.sameButXlt_refl (s : State) : s.sameButXlt s := rfl

theorem State.sameButXlt_trans {s t u : State} (h : s.sameButXlt t) (k : t.sameButXlt u) : s.sameButXlt u := by
  unfold State.sameButXlt at *; rw [k, h]

theorem State.sameButXlt_mk (s : State) (x : Xlt) : s.sameButXlt { s with xlt := x } := rfl

theorem State.holdCtx_same (s : State) (u : Nat) (p : BitVec 20) : s.sameButXlt (s.holdCtx u p) := by
  unfold State.holdCtx; split
  · rfl
  · split <;> rfl

theorem State.lookup_same (s : State) (u : Nat) (p : BitVec 20) (va : W64) : s.sameButXlt (s.lookup u p va).2 := by
  unfold State.lookup
  split
  · rfl
  · rfl
  · rfl
  · have huse : ∀ (e : Tlb) (t : State), s.sameButXlt t →
        s.sameButXlt (match t.unusable u (e.target va) with
          | some k => (Look.absent k false, t)
          | none => match e.target va with
            | .dev o => (t.localLook o e.w, t)
            | g => (Look.hit g e.w, t)).2 := by
      intro e t h
      split
      · exact h
      · split <;> exact h
    simp only []
    split
    · exact huse _ _ rfl
    · split
      · exact huse _ _ rfl
      · have hc := s.holdCtx_same (s.unitOf u) p
        split
        · exact hc
        · exact State.sameButXlt_trans hc rfl

theorem State.forgetPage_same (s : State) (w : Want) : s.sameButXlt (s.forgetPage w) := rfl

/-- An access that nothing translates is never granted. -/
theorem State.untranslated_ne (t s1 : State) (w : Want) (c : Nat) (g : Target) : t.untranslated w c ≠ .ok g s1 := by
  unfold State.untranslated
  repeat' split
  all_goals intro h; cases h

/-- An access that translates changes nothing but the translation logic. -/
theorem State.translate_ok {s s1 : State} {w : Want} {g : Target} (h : s.translate w = .ok g s1) : s1 = { s with xlt := s1.xlt } := by
  unfold State.translate at h
  simp only [] at h
  split at h
  · cases h
  · split at h
    · split at h
      · cases h
      · cases h; rfl
    · split at h
      · cases h
      · split at h
        · rename_i hl
          split at h
          · cases h
          · cases h
            have := s.lookup_same w.unit w.pasid w.va
            rw [hl] at this
            exact State.sameButXlt_trans this (State.forgetPage_same _ _)
        · cases h
        · split at h
          · exact absurd h (State.untranslated_ne _ _ _ _ _)
          · split at h <;> cases h
        · exact absurd h (State.untranslated_ne _ _ _ _ _)

end Sys2Proof.Machine
end

