-- ==== Sys2Proof/Laws/Issue.lean ====
section
/-! SUPPORT. What the issue of an instruction comes to for a thread that executes it: one lemma for each outcome of the
instruction's own rule (05_veltur_instructions.md R122 to R126, R155). -/
namespace Sys2Proof.Machine

/-- The fetch of a word that is translated leaves the translation logic and nothing else. -/
theorem fetchedWord_ok {s : State} {t : Th} {va : W64} {x : Xlt} (h : fetchedWord s t va = some x) :
    ∃ g, s.translate (fetchWant s t va) = .ok g { s with xlt := x } := by
  unfold fetchedWord at h
  split at h
  · rename_i g s1 hs
    cases h
    exact ⟨g, by rw [hs, ← State.translate_ok hs]⟩
  · cases h

/-- The fetch of a whole instruction that is translated hands on the state with the translation logic that it left. -/
theorem fetch_ok {s : State} {t : Th} {long : Bool} {x : Xlt} (next : W64) (k : State → State) (h : fetched s t long = some x) :
    s.fetch t.blk.val t.thr.val next long k = k { s with xlt := x } := by
  unfold fetched at h
  simp only [] at h
  split at h
  · cases h
  · rename_i y hy
    obtain ⟨g, hg⟩ := fetchedWord_ok hy
    unfold fetchWant at hg
    unfold State.fetch
    simp only [hg]
    split at h
    · rename_i hp
      obtain ⟨g2, hg2⟩ := fetchedWord_ok h
      unfold fetchWant at hg2
      have hthr : State.thr { s with xlt := y } t.blk.val t.thr.val = s.thr t.blk.val t.thr.val := rfl
      rw [hthr] at hg2
      rw [if_pos hp, hg2]
    · rename_i hp
      cases h
      rw [if_neg hp]

/-- The instruction of a thread that executes comes to what its own rule makes of it. -/
theorem issue_executes {s : State} {t : Th} {w : W0} {f : Form} {x : Xlt} (body : State → Thread → Res) (h : Executes s t w f x) :
    issue t w f body s =
      State.settle { s with xlt := x } t.blk.val t.thr.val f
        (body { s with xlt := x } (s.thr t.blk.val t.thr.val)) := by
  obtain ⟨hr, hp, hd, hx, hb, hi, hl, hg, hf, ha, hk⟩ := h
  have hw : (f.long && w.l) = f.long := by rw [hl, Bool.and_self]
  unfold issue
  simp only [hr, hp, hd, hw, List.isEmpty_nil, if_true, ne_eq, not_true_eq_false, Bool.true_eq_false, or_self, if_false]
  rw [fetch_ok _ _ hx]
  unfold State.judge
  simp [hb, hi, hl, hg, hf, ha, hk]

/-- An instruction that only changes its thread is complete with that change. -/
theorem issueThread_executes {s : State} {t : Th} {w : W0} {f : Form} {x : Xlt} (g : Thread → Thread) (h : Executes s t w f x)
    (hi : f.iof = false) :
    issueThread t w f g s = State.setThr { s with xlt := x } t.blk.val t.thr.val
      ((g (s.thr t.blk.val t.thr.val)).passed ((s.thr t.blk.val t.thr.val).pc + (if f.long then 16 else 8))) := by
  unfold issueThread
  rw [issue_executes _ h]
  obtain ⟨_, _, hd, _⟩ := h
  have hthr : State.thr { s with xlt := x } t.blk.val t.thr.val = s.thr t.blk.val t.thr.val := rfl
  unfold State.settle State.retire
  simp only [hthr, hd, hi, State.thr_setThr, State.setThr_twice]
  unfold Thread.passed Thread.sts
  by_cases hb : bit (g (s.thr t.blk.val t.thr.val)).sts0 43 <;> simp [hb]

end Sys2Proof.Machine
end

