-- ==== Sys2Proof/Laws/Memory.lean ====
section
/-! SUPPORT. The laws of a memory: what a byte reads as after a write, and that every memory operation keeps the canonical
form. -/
namespace Sys2Proof.Machine

/-- The canonical form, part by part. -/
theorem Memory.wf_iff (m : Memory) : m.wf = true ↔
    Tab.rising m.cells = true ∧ Tab.rising m.pois = true ∧ (m.era ≠ 0 ∨ ∀ c ∈ m.cells, c.2 ≠ 0) ∧ ∀ c ∈ m.pois, c.2 = true := by
  simp [Memory.wf, and_assoc]

@[simp] theorem Memory.put_era (m : Memory) (a : Nat) (b : Byte) : (m.put a b).era = m.era := rfl
@[simp] theorem Memory.put_pois (m : Memory) (a : Nat) (b : Byte) : (m.put a b).pois = m.pois := rfl
@[simp] theorem Memory.put_blank (m : Memory) (a : Nat) (b : Byte) (k : Nat) : (m.put a b).blank k = m.blank k := rfl
@[simp] theorem Memory.setBad_era (m : Memory) (u : Nat) (x : Bool) : (m.setBad u x).era = m.era := rfl
@[simp] theorem Memory.setBad_cells (m : Memory) (u : Nat) (x : Bool) : (m.setBad u x).cells = m.cells := rfl
@[simp] theorem Memory.setBad_get (m : Memory) (u : Nat) (x : Bool) (a : Nat) : (m.setBad u x).get a = m.get a := rfl
@[simp] theorem Memory.put_bad (m : Memory) (a : Nat) (b : Byte) (u : Nat) : (m.put a b).bad u = m.bad u := rfl

/-- The cells of a memory with one byte written. -/
theorem Memory.put_cells (m : Memory) (a : Nat) (b : Byte) :
    (m.put a b).cells = if m.era = 0 ∧ b = 0 then Tab.del m.cells a else Tab.ins (Tab.del m.cells a) a b := rfl

/-- A byte reads as what was written last, and every other byte as before. -/
theorem Memory.get_put (m : Memory) (a : Nat) (b : Byte) (k : Nat) : (m.put a b).get k = if k = a then b else m.get k := by
  unfold Memory.get
  rw [Memory.put_blank, Memory.put_cells]
  by_cases h : m.era = 0 ∧ b = 0
  · rw [if_pos h]
    split
    · subst k; rw [Tab.get_del_same, h.2]; simp [Memory.blank, h.1]
    · rw [Tab.get_del_ne _ _ _ _ (by assumption)]
  · rw [if_neg h]
    split
    · subst k; exact Tab.get_ins_same _ _ _ _ (fun c hc => ((Tab.mem_del _ _ c).mp hc).2)
    · rw [Tab.get_ins_ne _ _ _ _ _ (by assumption), Tab.get_del_ne _ _ _ _ (by assumption)]

/-- The poison of a unit is what was set last, and that of every other unit is as before. -/
theorem Memory.bad_setBad (m : Memory) (u : Nat) (x : Bool) (k : Nat) :
    (m.setBad u x).bad k = if k = u then x else m.bad k := by
  unfold Memory.bad Memory.setBad
  exact Tab.get_set _ _ _ _ _

theorem Memory.empty_wf : Memory.empty.wf = true := rfl

theorem Memory.put_wf (m : Memory) (a : Nat) (b : Byte) (h : m.wf = true) : (m.put a b).wf = true := by
  rw [Memory.wf_iff] at *
  obtain ⟨h1, h2, h3, h4⟩ := h
  rw [Memory.put_cells, Memory.put_era, Memory.put_pois]
  have hne : ∀ c ∈ Tab.del m.cells a, c.1 ≠ a := fun c hc => ((Tab.mem_del _ _ c).mp hc).2
  refine ⟨?_, h2, ?_, h4⟩
  · split
    · exact Tab.del_rising _ _ h1
    · exact Tab.ins_rising _ _ _ hne (Tab.del_rising _ _ h1)
  · rcases h3 with h3 | h3
    · exact .inl h3
    · by_cases he : m.era = 0
      · refine .inr fun c hc => ?_
        split at hc
        · exact h3 c ((Tab.mem_del _ _ c).mp hc).1
        · rename_i hz
          rcases (Tab.mem_ins _ _ _ c).mp hc with rfl | hc
          · exact fun hb => hz ⟨he, hb⟩
          · exact h3 c ((Tab.mem_del _ _ c).mp hc).1
      · exact .inl he

theorem Memory.setBad_wf (m : Memory) (u : Nat) (x : Bool) (h : m.wf = true) : (m.setBad u x).wf = true := by
  rw [Memory.wf_iff] at *
  obtain ⟨h1, h2, h3, h4⟩ := h
  refine ⟨h1, Tab.set_rising _ _ _ _ h2, h3, fun c hc => ?_⟩
  rcases Tab.mem_set _ _ _ _ c hc with ⟨rfl, hx⟩ | hc
  · simpa using hx
  · exact h4 c hc

theorem Memory.write_wf (m : Memory) (a : Nat) (bs : List Byte) (h : m.wf = true) : (m.write a bs).wf = true := by
  induction bs generalizing m a with
  | nil => exact h
  | cons b t ih => exact ih _ _ (Memory.put_wf m a b h)

/-- A fold of an operation that keeps the canonical form keeps it. -/
theorem Memory.foldl_wf {α : Type} (f : Memory → α → Memory) (hf : ∀ m x, m.wf = true → (f m x).wf = true) (l : List α) (m : Memory)
    (h : m.wf = true) : (l.foldl f m).wf = true := by
  induction l generalizing m with
  | nil => exact h
  | cons x l ih => exact ih _ (hf m x h)

theorem Memory.putLine_wf (m : Memory) (l : Nat) (mask : LineMask) (d : Line) (p : BitVec 4) (h : m.wf = true) :
    (m.putLine l mask d p).wf = true := by
  unfold Memory.putLine
  refine Memory.foldl_wf _ (fun a k ha => ?_) _ _ (Memory.foldl_wf _ (fun a k ha => ?_) _ _ h)
  · split
    · exact Memory.setBad_wf _ _ _ ha
    · split
      · exact Memory.setBad_wf _ _ _ ha
      · exact ha
  · split
    · exact Memory.put_wf _ _ _ ha
    · exact ha

/-! ### The bytes of a line -/

theorem lineByte_lineSet (l : Line) (k j : Nat) (b : Byte) (hk : k < 256) (hj : j < 256) :
    lineByte (lineSet l k b) j = if j = k then b else lineByte l j := by
  have h255 : ∀ n (h : n < 2048), (255#2048)[n] = decide (n < 8) := by
    intro n h
    have hs : (255 : Nat) < 2 ^ 2048 := Nat.lt_of_lt_of_le (by decide : 255 < 2 ^ 8) (Nat.pow_le_pow_right (by decide) (by omega))
    rw [BitVec.getElem_eq_testBit_toNat, BitVec.toNat_ofNat, Nat.mod_eq_of_lt hs]
    exact Nat.testBit_two_pow_sub_one 8 n
  apply BitVec.eq_of_getLsbD_eq
  intro i hi
  unfold lineByte lineSet
  split
  · rename_i h
    subst h
    simp [hi, show 8 * j + i < 2048 by omega, h255, show ¬ (8 * j + i < 8 * j) by omega]
  · rename_i h
    simp [hi, show 8 * j + i < 2048 by omega, h255]
    by_cases hlt : 8 * j + i < 8 * k
    · simp [hlt]
    · have : 8 ≤ 8 * j + i - 8 * k := by omega
      simp [hlt, this]

theorem lineByte_linePut (l : Line) (k j : Nat) (bs : List Byte) (hk : k + bs.length ≤ 256) (hj : j < 256) :
    lineByte (linePut l k bs) j = if k ≤ j ∧ j < k + bs.length then bs.getD (j - k) 0 else lineByte l j := by
  induction bs generalizing l k with
  | nil => rw [if_neg (by simp)]; rfl
  | cons b t ih =>
    rw [List.length_cons] at hk
    show lineByte (linePut (lineSet l k b) (k + 1) t) j = _
    rw [ih (lineSet l k b) (k + 1) (by omega), lineByte_lineSet l k j b (by omega) hj, List.length_cons]
    by_cases h : k + 1 ≤ j ∧ j < k + 1 + t.length
    · rw [if_pos h, if_pos (by omega), show j - k = (j - (k + 1)) + 1 by omega]; rfl
    · rw [if_neg h]
      by_cases hjk : j = k
      · subst hjk; rw [if_pos rfl, if_pos (by omega), Nat.sub_self]; rfl
      · rw [if_neg hjk, if_neg (by omega)]

/-- A byte of a line of a memory is the byte of the memory there. -/
theorem Memory.lineByte_line (m : Memory) (l k : Nat) (hk : k < 256) : lineByte (m.line l) k = m.get (l * 256 + k) := by
  unfold Memory.line lineOf
  have hl : (m.read (l * 256) 256).length = 256 := by simp [Memory.read]
  rw [lineByte_linePut 0 0 k _ (by omega) hk, if_pos (by omega)]
  simp [Memory.read, List.getD, hk]

end Sys2Proof.Machine
end

