-- ==== Sys2Proof/WellFormed.lean ====
section
/-! DEFINITION. What a command's operands must keep to that their types do not say already. The meanings are total:
a command that is not well formed has the effect its meaning gives it all the same. -/
namespace Sys2Proof

/-- The opcodes that no row of Tables 5-6 to 5-11 and R131, R134 assigns (05_veltur_instructions.md R125 to R134). -/
def reservedOpcode (o : Byte) : Bool :=
  let n := o.toNat
  decide ((0x1C ≤ n ∧ n ≤ 0x1F) ∨ (0x2E ≤ n ∧ n ≤ 0x2F) ∨ (0x35 ≤ n ∧ n ≤ 0x3F) ∨ (0x49 ≤ n ∧ n ≤ 0x5F) ∨
    (0x67 ≤ n ∧ n ≤ 0x7F) ∨ (0x86 ≤ n ∧ n ≤ 0x9F) ∨ (0xA4 ≤ n ∧ n ≤ 0xBF) ∨ (0xD4 ≤ n ∧ n ≤ 0xDF) ∨ 0xE6 ≤ n)

/-- The payload of a UMT packet keeps to the class limit (12_umakin_transport.md R315). -/
def Pkt.lenOk (p : Pkt) (limit : Nat) : Bool := decide (p.payload.length ≤ limit)

/-- A command is well formed. -/
def wellFormed (i : Instr) : Bool :=
  match i with
  | .registerWrite _ _ size _ => decide (size = 1 ∨ size = 2 ∨ size = 4 ∨ size = 8)
  | .rcCounterRead _ size => decide (size = 1 ∨ size = 2 ∨ size = 4 ∨ size = 8)
  | .nop _ _ opc => opc == 0x40 || reservedOpcode opc
  | .hostGo hpa _ _ => decide (hpa.toNat % 64 = 0)
  | .goWritepull hpa => decide (hpa.toNat % 64 = 0)
  | .goWritepulldrop hpa => decide (hpa.toNat % 64 = 0)
  | .remoteWrite _ _ bytes => decide (bytes.length ≤ 4096)
  | .configRequest _ _ size _ => decide (size = 1 ∨ size = 2 ∨ size = 4)
  | .cxlIoCompletion _ _ data => decide (data.length ≤ 4096)
  | .umtWrite p => p.lenOk 4096
  | .umtReadResp p => p.lenOk 4096
  | .umtSend p => p.lenOk 4096
  | .umtAtomic p => decide (p.payload.length = 16)
  | .umtAtomicResp p => decide (p.payload.length = 8)
  | .umtAck p => decide (p.payload.length = 32)
  | .umtReadReq p => p.lenOk 0
  | .umtNotify p => p.lenOk 0
  | .powerCapStep currents _ => decide (currents.length = 50)
  | .thermalStep raw => decide (raw.length = 64)
  | .makeGoodTestComplete _ passed _ bad => passed || decide (bad.length ≤ 1700)
  | _ => true

end Sys2Proof
end

