-- ==== Sys2Proof/Tests/Slice0.lean ====
section
/-! SUPPORT. Tests of the model: ill-formed commands are refused by the check, small single steps come out as the spec's tables
and worked figures say, and every statement with hypotheses has a state and operands that meet them. -/
namespace Sys2Proof.Tests
open Sys2Proof Sys2Proof.Machine

set_option Elab.async false

/-! ### Ill-formed commands -/

theorem test_wf_register_write : wellFormed (.registerWrite .bar0 0 3 0) = false := by decide
theorem test_wf_nop : wellFormed (.nop ⟨0, 0⟩ ⟨0, 0, 0, 0, 0, false, false, 0, false⟩ 0x41) = false := by decide
theorem test_wf_nop_ok : wellFormed (.nop ⟨0, 0⟩ ⟨0, 0, 0, 0, 0, false, false, 0, false⟩ 0x49) = true := by decide

/-! ### States for the tests -/

/-- A thread of block 0. -/
def t0 : Th := { blk := 0, thr := 0 }

/-- A state whose thread 0 of block 0 is ready at 0x1000, in global mode with the aperture at 0 and PASID 0, so that its addresses
are device offsets. -/
def base (f : Thread → Thread) : State :=
  State.setThr { State.reset with xlt := { Xlt.init with gctl := 1 } } 0 0 (f { Thread.init with stat := .ready, pc := 0x1000 })

/-- A first word with g[A] = g1, g[B] = g2, g[C] = g0 and g[D] = g3. -/
def w0 (x : BitVec 26) (l : Bool) : W0 := { x := x, c := 0, b := 2, a := 1, d := 3, pn := false, pe := false, pr := 0, l := l }

theorem tab_all {α : Type} (d : α) (t : Tab α) (P : α → Prop) (hd : P d) (ht : ∀ c ∈ t, P c.2) (k : Nat) : P (Tab.get d t k) := by
  induction t with
  | nil => exact hd
  | cons c t ih =>
    show P (if c.1 = k then c.2 else Tab.get d t k)
    split
    · exact ht c (List.mem_cons_self ..)
    · exact ih (fun x hx => ht x (List.mem_cons_of_mem _ hx))

theorem tab_but {α : Type} (d : α) (t : Tab α) (P : α → Prop) (a : Nat) (hd : P d) (ht : ∀ c ∈ t, c.1 ≠ a → P c.2) (k : Nat) (hk : k ≠ a) :
    P (Tab.get d t k) := by
  induction t with
  | nil => exact hd
  | cons c t ih =>
    show P (if c.1 = k then c.2 else Tab.get d t k)
    split
    · rename_i h; exact ht c (List.mem_cons_self ..) (h ▸ hk)
    · exact ih (fun x hx => ht x (List.mem_cons_of_mem _ hx))

theorem rc_all (s : State) (P : RCache → Prop) (hd : P RCache.init) (ht : ∀ c ∈ s.coh.rc, P c.2) (r : Nat) : P (s.rc r) :=
  tab_all RCache.init s.coh.rc P hd ht r

theorem bc_all (s : State) (P : BCache → Prop) (hd : P BCache.init) (ht : ∀ c ∈ s.coh.bc, P c.2) (b : Nat) : P (s.bc b) :=
  tab_all BCache.init s.coh.bc P hd ht b

theorem bc_but (s : State) (P : BCache → Prop) (a : Nat) (hd : P BCache.init) (ht : ∀ c ∈ s.coh.bc, c.1 ≠ a → P c.2) (b : Nat)
    (hb : b ≠ a) : P (s.bc b) :=
  tab_but BCache.init s.coh.bc P a hd ht b hb

theorem thr_all (s : State) (P : Thread → Prop) (hd : P Thread.init) (ht : ∀ c ∈ s.blocks.thr, P c.2) (b t : Nat) : P (s.thr b t) :=
  tab_all Thread.init s.blocks.thr P hd ht (128 * b + t)

/-- The tile stores of a thread that have not been performed. -/
def moving (th : Thread) : List Acc := th.accs.filter (fun a => match a.kind with
  | .tst _ _ _ _ => !a.performed
  | _ => false)

theorem noStores (s : State) (h0 : moving Thread.init = []) (h : ∀ c ∈ s.blocks.thr, moving c.2 = []) (b : Nat) : s.storesWaiting b = 0 := by
  have hm : ∀ t, moving (s.thr b t) = [] := thr_all s (fun th => moving th = []) h0 h b
  unfold State.storesWaiting
  refine Eq.trans (congrArg (List.foldl Nat.add 0) (List.map_congr_left (g := fun _ => 0) fun t _ =>
    (congrArg List.length (hm t) : (moving (s.thr b t)).length = 0))) ?_
  rfl

/-! ### Scalar instructions -/

theorem witness_IntegerResults : Executes (base id) t0 (w0 0 false) { regs := [1, 2, 3] } (base id).xlt := by
  unfold Executes; decide

theorem witness_IntegerResults_forms :
    Executes (base id) t0 (w0 0 false) { regs := [1, 3] } (base id).xlt ∧
    Executes (base id) t0 (w0 0 false) { regs := [1, 2, 3] } (base id).xlt ∧
    Executes (base id) t0 (w0 0 false) { regs := [1, 2, 0, 3] } (base id).xlt ∧
    Executes (base id) t0 (w0 0 true) { long := true, regs := [3] } (base id).xlt := by
  unfold Executes; decide

theorem witness_CompareAndPredicateResults :
    (w0 5 false).x.toNat % 8 < 6 ∧ Executes (base id) t0 (w0 5 false) { regs := [1, 2] } (base id).xlt ∧
    Executes (base id) t0 (w0 0 false) {} (base id).xlt ∧
    ((w0 1 false).x.getLsbD 0 = true ∧ Executes (base id) t0 (w0 1 false) { regs := [1] } (base id).xlt) ∧
    ((w0 0 false).x.getLsbD 0 = false ∧ Executes (base id) t0 (w0 0 false) { regs := [3] } (base id).xlt) := by
  unfold Executes; decide

theorem witness_FloatResults :
    (w0 2 false).x.toNat % 4 ≠ 3 ∧ Executes (base id) t0 (w0 2 false) { regs := [3, 1, 2] } (base id).xlt ∧
    Executes (base id) t0 (w0 2 false) { regs := [3, 1, 2, 0] } (base id).xlt ∧
    Executes (base id) t0 (w0 2 false) { regs := [3, 1] } (base id).xlt ∧
    Executes (base id) t0 (w0 7 false) { regs := [1, 2] } (base id).xlt ∧
    fmtOf ((w0 0x117 false).x.toNat % 16) = some e2m1 ∧ fmtOf ((w0 0x117 false).x.toNat / 16 % 16) = some fp16 ∧
    (w0 0x117 false).x.toNat / 256 % 4 < 2 ∧ Executes (base id) t0 (w0 0x117 false) { regs := [3, 1] } (base id).xlt := by
  unfold Executes; decide

theorem witness_FloatResults_codes :
    0x7F7FFFFF < 2 ^ 32 ∧ (decodeVal fp32 0x7F7FFFFF).isNan = false ∧ (decodeVal fp32 0xFF800000).isNan = false ∧
    (decodeVal fp32 0x80000001).isNan = false := by decide

/-- 1.5 × 2 rounds to 3 with no flag (02_formats_and_coats.md R36, R46). -/
theorem test_fmul : finish fp32 0 false (mulV (decodeVal fp32 0x3FC00000) (decodeVal fp32 0x40000000)) = (0x40400000, 0) := by decide
/-- 1 divided by 3 is inexact and rounds to the nearest, up (02_formats_and_coats.md R46). -/
theorem test_fdiv : finish fp32 0 false (divV (decodeVal fp32 0x3F800000) (decodeVal fp32 0x40400000)) = (0x3EAAAAAB, fNX) := by decide
/-- −2^63 divided by −1 gives −2^63 (05_veltur_instructions.md R127). -/
theorem test_divs_overflow : divSigned 0x8000000000000000 (BitVec.allOnes 64) = 0x8000000000000000 := by decide

theorem witness_ControlResults :
    Executes (base id) t0 (w0 0 false) {} (base id).xlt ∧
    ((base id).self t0).sts1.toNat % 8 = 0 ∧ (((base id).self t0).reg 1).toNat % 8 = 0 ∧
    Executes (base id) t0 (w0 0 false) { regs := [1] } (base id).xlt ∧ Executes (base id) t0 (w0 0 false) { regs := [3] } (base id).xlt ∧
    Executes (base id) t0 (w0 0 false) { brk := true } (base id).xlt ∧
    (w0 6 false).x.toNat % 16 < 7 ∧ (base id).srWait t0 6 true = false ∧ (base id).srWait t0 0 false = false ∧
    Executes (base id) t0 (w0 6 false) { regs := [3] } (base id).xlt := by
  unfold Executes; decide

/-- A branch with IMM38 = −1 goes back by 8 (05_veltur_instructions.md R130). -/
theorem test_bra_back : imm38 { w0 0x3FFFFFF false with b := 63, c := 63 } = -1 := by decide

theorem witness_TrapEntersHandler :
    Executes (base fun th => { th with tha := 0x2000 }) t0 (w0 7 false) {} (base id).xlt ∧
    ((base fun th => { th with tha := 0x2000 }).self t0).tha ≠ 0 ∧ bit ((base fun th => { th with tha := 0x2000 }).self t0).sts0 38 = false ∧
    ((base fun th => { th with tha := 0x2000 }).self t0).resv = none := by
  unfold Executes; decide

theorem witness_IllegalInstructionsEndTheThread :
    (0x49 : Byte) ≠ 0x40 ∧ Executes (base id) t0 (w0 6 false) { long := false } (base id).xlt ∧
    ((w0 6 false).x.toNat % 8 ≥ 6 ∧ Executes (base id) t0 (w0 6 false) { regs := [1, 2] } (base id).xlt) ∧
    ((w0 7 false).x.toNat % 16 ≥ 7 ∧ Executes (base id) t0 (w0 7 false) { regs := [3] } (base id).xlt) ∧
    Executes (base id) t0 (w0 7 false) { regs := [1] } (base id).xlt ∧
    (((base fun th => th.setReg 1 0x1004).self t0).reg 1).toNat % 8 ≠ 0 ∧
    Executes (base fun th => th.setReg 1 0x1004) t0 (w0 0 false) { regs := [1] } (base id).xlt := by
  unfold Executes; decide

/-! ### Scalar memory instructions -/

theorem witness_BlockStoreAccesses :
    let s := base fun th => th.setReg 1 0x1FFFF8
    (w0 0xB false).x.getLsbD 3 = true ∧ (0x1FFFF8 : W64).toNat % 2 ^ (11 % 4) = 0 ∧ (0x1FFFF8 : W64).toNat + 2 ^ (11 % 4) ≤ 2 ^ 21 ∧
    (s.self t0).tileBusy = false ∧ (s.blk 0).store.bad (0x1FFFF8 / 8) = false ∧
    Executes s t0 (w0 0xB false) (memForm false false [1, 3]) s.xlt ∧ Executes s t0 (w0 0xB false) (memForm false true [1, 2]) s.xlt ∧
    (w0 0x2A false).x.getLsbD 5 = true ∧ (w0 0x2A false).x.toNat % 32 = 10 ∧ (w0 0x39 false).x.toNat % 16 < 10 ∧
    Executes s t0 (w0 0x2A false) (memForm false true [1, 2, 0, 3]) s.xlt := by
  unfold Executes; decide

/-- The state of the memory witnesses: g1 holds a device offset. -/
def mem0 : State := base fun th => { th.setReg 1 0x2000 with resv := none }

/-- An access that has taken effect. -/
def acc0 (k : AccKind) (bad refused : Bool) : Acc :=
  { id := 0, ia := 0x1000, kind := k, va := 0x2000, tgt := .dev 0x2000, size := 4, data := 0, res := 0x80000000, asked := none, homed := false,
    performed := true, refused := refused, left := 0, buf := [], bad := bad, pages := [], want := [], got := [] }

/-- A line of a block cache, the sectors given held alone. -/
def bl0 (valid excl modi : BitVec 4) : BLine := { valid := valid, excl := excl, modi := modi, fwd := false, data := 0, pois := 0, way := 0, atoms := 0 }

/-- The line at device offset 0x2000. -/
def ln : LineId := lineFor false 0x2000

theorem resv_none (s : State) (h : ∀ c ∈ s.coh.rc, c.2.resv = []) (r : Nat) : (s.rc r).resv = [] :=
  tab_all RCache.init s.coh.rc (fun c => c.resv = []) rfl h r

theorem witness_MemoryAccessesAreAccepted :
    (w0 3 false).x.getLsbD 3 = false ∧ mapped mem0 t0 0x2000 false = some (.dev 0x2000, mem0.xlt) ∧
    mapped mem0 t0 0x2000 true = some (.dev 0x2000, mem0.xlt) ∧
    takes mem0 t0 (.dev 0x2000) false = true ∧ takes mem0 t0 (.dev 0x2000) true = true ∧ settled mem0 t0 ∧ mem0.hpt.hostLost = false ∧
    lineOfTgt (.dev 0x2000) = some (ln, 0) ∧ firstThere mem0 t0 false (.dev 0x2000) ∧ mem0.bline 0 ln = none ∧ mem0.outCount 0 < 64 ∧
    Executes mem0 t0 (w0 3 false) (memForm false false [1, 3]) mem0.xlt ∧ (mem0.self t0).resv = none ∧
    Executes mem0 t0 (w0 3 false) (memForm false true [1, 2]) mem0.xlt := by
  unfold Executes settled firstThere
  refine ⟨by decide, by decide, by decide, by decide, by decide, by decide, by decide, by decide, by decide, by decide, by decide, by decide,
    by decide, by decide⟩

theorem witness_MemoryAccessesAreAccepted_stc :
    let s := base fun th => { th.setReg 1 0x2000 with resv := some (.dev 0x2008) }
    Executes s t0 (w0 3 false) (memForm false true [1, 2, 3]) s.xlt ∧ sectorMeet false (.dev 0x2008) (.dev 0x2000) = true ∧
    (s.self t0).resv = some (.dev 0x2008) ∧ Executes mem0 t0 (w0 3 false) (memForm false true [1, 2, 3]) mem0.xlt ∧
    Executes mem0 t0 (w0 0x10 false) (memForm false true [1, 2, 0, 3]) mem0.xlt ∧
    Executes mem0 t0 (w0 0 false) (memForm false true [1]) mem0.xlt := by
  unfold Executes
  refine ⟨by decide, by decide, by decide, by decide, by decide, by decide⟩

theorem witness_MemoryAccessesAreAccepted_held :
    let s := mem0.setBline 0 ln (some (bl0 15 15 0))
    let u := mem0.setThr 0 0 { mem0.thr 0 0 with
      accs := [{ acc0 .st false false with performed := false, asked := some (.wrline 0 ln 15 0) }], nextId := 1 }
    let far := base fun th => th.setReg 1 0xC000400000002000
    Executes s t0 (w0 3 false) (memForm false false [1, 3]) s.xlt ∧ s.bline 0 ln = some (bl0 15 15 0) ∧ settled s t0 ∧
    firstThere s t0 false (.dev 0x2000) ∧ (∀ r, (s.rc r).resv = []) ∧ settled u t0 ∧ ¬ firstThere u t0 false (.dev 0x2000) ∧
    mapped far t0 0xC000400000002000 false = some (.remote 1 0x2000, far.xlt) ∧ takes far t0 (.remote 1 0x2000) false = true ∧
    Executes far t0 (w0 3 false) (memForm false false [1, 3]) far.xlt := by
  unfold Executes settled firstThere
  refine ⟨by decide, rfl, by decide, by decide, resv_none _ (by decide), by decide, by decide, by decide, by decide, by decide⟩

theorem witness_OutstandingAccessesEnd :
    let s := fun k b r => base fun th => { th with accs := [acc0 k b r], nextId := 1 }
    ((s (.ld 3 true) false false).self t0).accs.find? (fun z => z.id == 0) = some (acc0 (.ld 3 true) false false) ∧
    settled (s (.ld 3 true) false false) t0 ∧ settled (s .st false true) t0 ∧
    (s (.ld 3 true) false false).deadAt (.dev 0x2000) = none ∧ ((s (.stc 3) true false).self t0).stat = .ready ∧
    ((s (.amo 3 0 false 0) false true).self t0).accs.find? (fun z => z.id == 0) = some (acc0 (.amo 3 0 false 0) false true) ∧
    ((s .st false true).self t0).accs.find? (fun z => z.id == 0) = some (acc0 .st false true) := by
  unfold settled; decide

/-- A word load sign-extends when SX is 1 (05_veltur_instructions.md Table 5-5). -/
theorem test_load_sign : loadVal 4 true 0x80000000 = 0xFFFFFFFF80000000 := by decide

theorem witness_UncachedStoreWritesItsBytes :
    let c : Instr := .wrline t0.blk ln (maskOf 0 4) (linePut 0 0 (leBytes 4 0))
    let a := { acc0 .st false false with performed := false, asked := some c }
    let s := base fun th => { th with accs := [a], nextId := 1 }
    (s.self t0).accs = [a] ∧ a.size ∈ [1, 2, 4, 8] ∧ 0x2000 % a.size = 0 ∧ 0x2000 < 2 ^ 46 ∧ s.deadDev 0x2000 = none ∧
    s.home ln = some 0 ∧ (∀ b, s.bline b ln = none) ∧ (s.rc 0).lines = [] ∧ (s.rc 0).txns = [] ∧ s.blockDust 0 = false ∧
    (∀ i, i ≠ 0 → (s.thr 0 i).accs = []) ∧ (∀ b i, (s.thr b i).resv = none) ∧ ∀ q, (s.rc q).resv = [] := by
  refine ⟨rfl, by decide, by decide, by decide, by decide, by decide, fun b => rfl, rfl, rfl, by decide, ?_,
    thr_all _ (fun k => k.resv = none) rfl (by decide), resv_none _ (by decide)⟩
  intro i hi
  exact tab_but Thread.init _ (fun k => k.accs = []) 0 rfl (by decide) (128 * 0 + i) (by omega)

theorem witness_PrefetchesAndReservationHolds :
    Executes mem0 t0 (w0 0 false) (memForm false false [1]) mem0.xlt ∧ Executes mem0 t0 (w0 8 false) (memForm false false [1]) mem0.xlt ∧
    let want : Want := { unit := 0, who := .thread 0 0, pasid := mem0.pasidOf 0, va := 0x2000, write := false, fetch := false, tries := 0,
                         pri := false }
    (∃ y, mem0.translate want = .ok (.dev 0x2000) y) ∧
    lineOfTgt (.dev 0x2000) = some (ln, 0) ∧ mem0.mayKeep 0 ln = true ∧ mem0.deadAt (.dev 0x2000) = none ∧
    mem0.hasB 0 ln 0 = false ∧ (mem0.bc 0).out = [] := by
  unfold Executes
  exact ⟨by decide, by decide, ⟨_, rfl⟩, by decide, by decide, by decide, by decide, by decide⟩

theorem witness_PrefetchesAndReservationHolds_2 :
    let l := lineFor false 0x2000
    let h : HomeResv := { b := 0, t := 0, sector := .dev 0x2000, young := true, held := [] }
    let s := base id
    ((s.setBc 0 { s.bc 0 with held := [(lkey l, .snpinv 0 l)] }).bc 0).held.any (fun h => h.1 == lkey l) = true ∧
    ((s.setRc 0 { s.rc 0 with resv := [h] }).rc 0).resv.find? (fun h => h.young && resvHit l 15 h.sector) = some h := by decide

/-! ### Fences, barriers, semaphores, late reports -/

theorem witness_FencesStart :
    (w0 9 false).x.toNat / 4 % 4 < 3 ∧ Executes mem0 t0 (w0 9 false) { mem := true, brk := true } mem0.xlt ∧
    Executes mem0 t0 (w0 3 false) { mem := true, brk := false } mem0.xlt ∧
    (w0 3 false).x.toNat / 2 % 4 = 1 ∧ ((mem0.self t0).reg 1).toNat % 8 = 0 ∧
    mapped mem0 t0 0x2000 true = some (.dev 0x2000, mem0.xlt) ∧ mem0.deadAt (.dev 0x2000) = none ∧
    Executes mem0 t0 (w0 3 false) { regs := [1, 2], mem := true, wr := true, brk := true } mem0.xlt := by
  unfold Executes; decide

/-- A fence of scope 1 or 0 that covers the accesses given. -/
def fence0 (sc : BitVec 2) (cs : List Nat) : Fence := { ia := 0x1000, scope := sc, kind := 0, covers := cs, sem := none }

theorem witness_FencesEnd :
    let s := fun f => base fun th => { th with
      fences := [f], nextId := 1, accs := [{ acc0 (.ld 3 true) false false with performed := false, asked := some (.rdshared 0 ln 1) }] }
    ((s (fence0 2 [7])).self t0).fences = [fence0 2 [7]] ∧ (∀ a ∈ ((s (fence0 2 [7])).self t0).accs, a.id ∉ (fence0 2 [7]).covers) ∧
    settled (s (fence0 2 [7])) t0 ∧ (s (fence0 2 [7])).bufferedBy 0 0 = false ∧ (∀ c, (s (fence0 2 [7])).storesWaiting c = 0) ∧
    (∀ a ∈ ((s (fence0 1 [0])).self t0).accs, a.kind.isSig = false) ∧ (s (fence0 1 [0])).fenceDone 0 0 (fence0 1 [0]) = false := by
  unfold settled
  exact ⟨by decide, by decide, by decide, by decide, noStores _ rfl (by decide), by decide, by decide⟩

theorem witness_BarriersGatherThreads :
    let one := base fun th => th.setReg 1 2
    let s := one.setThr 0 1 { one.thr 0 0 with pc := 0x2000 }
    let u := s.setBlk 0 { s.blk 0 with bars := [(5, ({ waiting := [1], count := 2 } : Barrier))] }
    Executes s t0 (w0 5 false) { regs := [1], brk := true } s.xlt ∧ (s.self t0).resv = none ∧ (w0 5 false).x.getLsbD 4 = false ∧
    Nat.min ((s.self t0).reg 1).toNat (s.unended 0) = 2 ∧ (Tab.get Barrier.empty (s.blk 0).bars 5).waiting = [] ∧
    Executes u t0 (w0 5 false) { regs := [1], brk := true } u.xlt ∧ Nat.min 2 (u.unended 0) = 2 ∧
    (Tab.get Barrier.empty (u.blk 0).bars 5).waiting = [1] ∧ ([1] ++ [t0.thr.val]).Nodup := by
  unfold Executes; decide

theorem witness_SemaphoreWaits :
    let f : Form := { regs := [1, 2, 0, 3], mem := true, brk := true }
    let far := base fun th => th.setReg 1 0xC000400000002000
    let z : SemWait := { va := 0x2000, tgt := .dev 0x2000, cond := 0, scope := 1, value := 7, last := 0, d := 3, ia := 0x1000, asked := false, got := false }
    let w := base fun th => { th with stat := .semwait, sem := some z }
    Executes mem0 t0 (w0 4 false) f mem0.xlt ∧ (mem0.self t0).sem = none ∧ mem0.bufferedBy 0 0 = false ∧
    mapped mem0 t0 0x2000 false = some (.dev 0x2000, mem0.xlt) ∧ mem0.deadAt (.dev 0x2000) = none ∧ (∀ k, mem0.storesWaiting k = 0) ∧
    mem0.home ln = some 0 ∧ mem0.lineReady 0 ln 1 false (.rdcurr (.block 0) ln 1) = true ∧ (mem0.lineNow ln).2.getLsbD 0 = false ∧
    (let h := mem0.setRline 0 ln (some { RLine.fresh false false 3 with valid := 15, hst := 2 })
     Executes h t0 (w0 4 false) f h.xlt ∧ h.home ln = some 0 ∧ h.lineReady 0 ln 1 false (.rdcurr (.block 0) ln 1) = false) ∧
    Executes far t0 (w0 4 false) f far.xlt ∧ mapped far t0 0xC000400000002000 false = some (.remote 1 0x2000, far.xlt) ∧
    far.deadAt (.remote 1 0x2000) = none ∧ (w.self t0).sem = some z ∧ (w.self t0).stat = .semwait := by
  unfold Executes
  exact ⟨by decide +kernel, by decide +kernel, by decide +kernel, by decide +kernel, by decide +kernel, noStores _ rfl (by decide +kernel),
    by decide +kernel⟩

theorem witness_OutstandingAccessesEnd_late :
    let s := base fun th => { th with stat := .ending }
    ((base id).self t0).stat = .ready ∧ (s.self t0).stat = .ending ∧ (s.self t0).ends = none ∧ (s.self t0).accs = [] ∧
    (s.self t0).fences = [] ∧ (s.self t0).deferred = [] ∧ s.cellsBusy 0 0 = false ∧ (s.blk 0).bars = [] := by decide

theorem witness_ControlResults_window :
    let s := base fun th => { th.setReg 1 0x1100000 with sts0 := setBits 0 42 42 1 }
    let k : Task := { q := 0, slot := 0, x := 0, y := 0, z := 0, threads := 1, pasid := 0, prog := 0x1000, args := 0, cwmask := 0xFF,
                      clear := false, started := true }
    let u := s.setBlk 0 { s.blk 0 with task := some k }
    (w0 0 false).x.getLsbD 1 = false ∧ bit (u.self t0).sts0 42 = true ∧ bit (u.self t0).sts0 41 = false ∧
    u.cwAllows 0 0x1100000 = true ∧ Executes u t0 (w0 0 false) { regs := [1, 2, 3], mem := true, wr := true, brk := true } u.xlt ∧
    regsTouched 0x1100000 4 ≠ [] ∧ u.answers (regDom 0x1100000) 0x1100000 = true := by
  unfold Executes; decide

/-! ### Tiles and cells -/

theorem witness_CellInstructionsRun_descriptors :
    Executes (base id) t0 (w0 1 false) { regs := [1] } (base id).xlt ∧ Executes (base id) t0 (w0 1 false) { regs := [3] } (base id).xlt ∧
    Executes (base id) t0 (w0 1 false) { regs := [1, 2] } (base id).xlt := by
  unfold Executes; decide

theorem witness_CellInstructionsRun :
    let s := base id
    let m : W64 := 0x020000700000E000
    let ok : VOp → Bool := fun v => (v.reads 0 ++ v.writes 0).all (fun p => !(locBad p.1) && !(pastEnd p))
    (pairLimit (mAf m) (mBf m) = some 1024 ∧ mK m ≤ 1024 ∧ bits m 63 62 = 0 ∧ bits m 58 57 ≠ 0 ∧ bits m 60 59 ≠ 3 ∧
      (∀ p ∈ mReads m, p.row + p.rows ≤ 512) ∧ bits m 3 0 < (s.blk 0).cellsN ∧ (s.blk 0).failed (bits m 3 0) = false) ∧
    Executes s t0 (w0 0 true) { long := true } s.xlt ∧
    (bits (w0 0x2000 false).x 25 18 = 0 ∧ bits (w0 0x2000 false).x 14 13 ≠ 0 ∧ bits (w0 0x2000 false).x 16 15 ≠ 3 ∧
      bits (w0 0x2000 false).x 12 4 + 5 ≤ 512) ∧ Executes s t0 (w0 0x2000 false) {} s.xlt ∧
    Executes s t0 (w0 0 false) { regs := [1] } s.xlt ∧ s.cellsBusy 0 0 = false ∧
    (∀ v ∈ [VOp.add, .sub, .mul, .fma, .min, .max, .cmp, .abs, .neg, .scale, .div, .sqrt, .rcp, .rsq, .exp2, .exp, .rmax, .rsum, .cvt,
      .mov], ok v = true) ∧ vRnd 0 ≠ 3 ∧ vFmt 0 ≤ 9 := by
  unfold Executes; decide +kernel

theorem witness_CellInstructionsRun_2 :
    let e : CellEntry := { t := t0, ia := 0x1000, logical := 0, op := .tseed 5 }
    let s := base id
    let u := s.setBlk 0 { s.blk 0 with cells := [(0, { Cell.init 0 with queue := [e] })] }
    ((u.blk 0).cell 0).oldest = some e ∧ ((u.blk 0).cell 0).blocked e = false ∧ u.blockDust 0 = false ∧ u.storesWaiting 0 = 0 := by decide

/-- A tile of 32 FP8 elements at the address 0x2000: one dimension, in the address space of the task. -/
def tile0 : BitVec 512 := 0x2000#512 ||| (31#512 <<< 128) ||| (0x550000#512 <<< 192)

/-- A state whose g1 and g2 are 0 and whose descriptor 3 is the tile. -/
def tileS : State := base fun th => th.setDesc 3 tile0

theorem all_of (w : Walked) (f : List (Nat × Target) → Bool) (h : (match w with | .all p _ => f p | _ => false) = true) :
    ∃ p s, w = .all p s ∧ f p = true := by
  cases w with
  | all p s => exact ⟨p, s, rfl, h⟩
  | stop => cases h

theorem witness_TileAccessesAreAccepted :
    (∀ a ∈ (tileS.self t0).accs, a.id < (tileS.self t0).nextId) ∧ dSpace tile0 = 0 ∧ tileS.tileHeld 0 < 32 ∧
    (tileS.self t0).desc ((w0 0 true).d.setWidth 4) = tile0 ∧
    tBad false 1 = false ∧ descBad tile0 false none = false ∧ tCells false 1 = [0] ∧ 0 < (tileS.blk 0).cellsN ∧
    (tileS.blk 0).failed 0 = false ∧ tRowsBad 1 (dCellBytes tile0) (dScales tile0) = false ∧
    (touches tile0).all (fun y => !(tileS.tileRefused (tileS.pasidOf 0) y.addr)) = true ∧
    (∃ pages s2, tileWalk (tileS.tileWant 0 0 (tileS.self t0) false) (touchFrom tile0 0 (dBytes tile0 - 0)) [] tileS = .all pages s2 ∧
      (touches tile0).all (fun y => (tileS.deadAt (pageTarget tile0 pages y.addr)).isNone) = true) ∧
    Executes tileS t0 (w0 0 true) { long := true, regs := [1, 2], mem := true, brk := true, iof := true } tileS.xlt ∧
    tBad true 0 = false ∧ descBad tile0 true none = false ∧ tCells true 0 = [0] ∧ tRowsBad 0 (dBytes tile0) (dScales tile0) = false ∧
    (∃ pages s2, tileWalk (tileS.tileWant 0 0 (tileS.self t0) true) (touchFrom tile0 0 (dBytes tile0 - 0)) [] tileS = .all pages s2 ∧ (fun _ => true) pages = true) ∧
    (tileS.self t0).toff = 0 ∧
    Executes tileS t0 (w0 0 true) { long := true, regs := [1, 2], mem := true, wr := true, brk := true, iof := true } tileS.xlt ∧
    descBad (tile0 ||| (1#512 <<< 223)) false none = true ∧
    Executes tileS t0 (w0 0 true) { long := true, mem := true, iof := true } tileS.xlt ∧
    (let u := base fun th => th.setDesc 3 (tile0 ||| (2#512 <<< 219))
     let d := (u.self t0).desc ((w0 0 true).d.setWidth 4)
     dSpace d = 2 ∧ descBad d false none = false ∧ (u.self t0).tileBusy = false ∧
     Executes u t0 (w0 0 true) { long := true, mem := true, iof := true } u.xlt) := by
  unfold Executes
  refine ⟨by decide, by decide +kernel, by decide, by decide +kernel, by decide +kernel, by decide +kernel, by decide +kernel,
    by decide +kernel, by decide +kernel, by decide +kernel, by decide +kernel,
    all_of _ (fun p => (touches tile0).all (fun y => (tileS.deadAt (pageTarget tile0 p y.addr)).isNone)) (by decide +kernel),
    by decide +kernel, by decide +kernel, by decide +kernel, by decide +kernel, by decide +kernel, all_of _ (fun _ => true) (by decide +kernel),
    by decide +kernel, by decide +kernel, by decide +kernel, by decide +kernel, by decide +kernel⟩

theorem pages_of (w : Option (List (Nat × Target)) × State) (f : List (Nat × Target) → Bool)
    (h : (match w.1 with | some p => f p | none => false) = true) : ∃ p s, w = (some p, s) ∧ f p = true := by
  obtain ⟨o, s⟩ := w
  cases o with
  | some p => exact ⟨p, s, rfl, h⟩
  | none => cases h

theorem witness_TilePrefetchesAndLoads :
    let firsts : List W64 := (((touches tile0).map (fun y => y.addr.toNat / 4096)).eraseDups).map (fun k =>
      (((touches tile0).find? (fun y => y.addr.toNat / 4096 == k)).map (fun y => y.addr)).getD 0)
    descBad tile0 false none = false ∧ dSpace tile0 ≠ 2 ∧ (touches tile0).any (fun y => tileS.tileRefused (tileS.pasidOf 0) y.addr) = false ∧
    (∃ pages s2, prefWalk { tileS.tileWant 0 0 (tileS.self t0) false with pri := false } firsts [] tileS = (some pages, s2) ∧
      (decide (tileLines (((touches tile0).filter (fun y => pages.any (fun q => q.1 == y.addr.toNat / 4096))).map (fun y =>
        pageTarget tile0 pages y.addr)) = [(ln, 1)])) = true) ∧
    tileS.home ln = some 0 ∧ (tileS.place (ln.line.toNat * 256)).map (fun p => (tileS.mport p.port).reqs) = some [] ∧
    tileS.deadDev (ln.line.toNat * 256) = none ∧ (tileS.rc 0).lines = [] ∧ (tileS.rc 0).txns = [] ∧
    (tileS.rc 0).allocates (rset ln) = true := by
  exact ⟨by decide +kernel, by decide +kernel, by decide +kernel, pages_of _ _ (by decide +kernel), by decide +kernel, by decide +kernel,
    by decide +kernel, by decide +kernel, by decide +kernel, by decide +kernel⟩

theorem witness_TilePrefetchesAndLoads_2 :
    let a : Acc := { acc0 (.tld 1 0x2000 0 tile0) false false with left := 0, pages := [(2, .dev 0x2000)] }
    let s := base fun th => { th with accs := [a] }
    (s.self t0).accs.find? (fun z => z.id == 0) = some a ∧ tCells false 1 = [0] ∧
    ((s.blk 0).cell ((s.blk 0).phys 0)).markFree 0 0 = true ∧ (s.blk 0).failed 0 = false ∧
    (touches tile0).all (fun y => (s.deadAt (pageTarget tile0 a.pages y.addr)).isNone) = true ∧ s.storesWaiting 0 = 0 ∧
    dSp tile0 = false ∧ dMfmt tile0 = dCfmt tile0 ∧ tKind 1 ≠ 2 ∧ tKind 0x20000 = 2 := by
  decide +kernel

/-! ### Tasks and kernels -/

/-- A kernel of two tasks of two threads each, in slot 4 of queue 0. -/
def kern0 : Kernel :=
  { q := 0, slot := 4, prog := 0x1000, args := 0x9000, gx := 2, gy := 1, gz := 1, threads := 2, rmask := 31, cwmask := 0, tlimit := 5,
    pasid := 0, mode := none, next := 1, blocks := [0], aborted := false, status := none, info := 0, lostBlocks := 0 }

/-- The kernel's first task. -/
def task0 : Task :=
  { q := 0, slot := 4, x := 0, y := 0, z := 0, threads := 2, pasid := 0, prog := 0x1000, args := 0x9000, cwmask := 0, clear := true,
    started := false }

/-- A state with the kernel, whose task block 0 has in the state given. -/
def taskS (k : Kernel) (t : Task) (st : BlkState) : State :=
  let s := { base id with blocks := { (base id).blocks with kernels := [k] } }
  s.setBlk 0 { s.blk 0 with task := some t, state := st }

theorem witness_TasksArePlacedAndStart :
    let s := taskS kern0 task0 .running
    s.kernel 0 4 = some kern0 ∧ kern0.next < kern0.total ∧ s.modeHolds kern0 = false ∧ s.dispatches = true ∧
    (s.pickBlock kern0).isSome = true ∧
    (s.blk 0).task = some task0 ∧ (s.blk 0).state = .running ∧ task0.threads ≤ 128 := by decide +kernel

theorem witness_TasksEndAndAbort :
    let t := { task0 with started := true }
    let s := (taskS kern0 t .running).setThr 0 0 { Thread.init with stat := .ended }
    let s1 := s.setThr 0 1 { Thread.init with stat := .ended }
    let u := taskS { kern0 with aborted := true } t .running
    let v := taskS { kern0 with aborted := true } t .aborting
    ((s1.blk 0).task = some t ∧ (s1.blk 0).state = .running ∧ s1.allEnded 0 t = true) ∧
    ((u.blk 0).task = some t ∧ (u.kernel 0 4).map (fun y => y.aborted) = some true ∧ (u.blk 0).state = .running) ∧
    ((v.blk 0).state = .aborting ∧ (∀ p < 17, ((v.blk 0).cell p).queue = []) ∧ v.stillDrains 0 = false ∧ (∀ c, v.storesWaiting c = 0) ∧
      ∀ i : Fin 128, settled v ⟨0, i⟩) ∧
    s.kernel 0 4 = some kern0 ∧ kern0.tlimit ≠ 0 := by
  unfold settled
  exact ⟨by decide +kernel, by decide +kernel, ⟨by decide +kernel, by decide +kernel, by decide +kernel, noStores _ rfl (by decide +kernel),
    by decide +kernel⟩, by decide +kernel⟩

/-! ### Caches and coherence -/

/-- The tag of the line at 0x2000 at its home when the blocks of the presence bits have it. -/
def tag0 (pres : BitVec 400) (own : Option Nat) (hst : BitVec 2) : RLine :=
  { RLine.fresh false false 3 with valid := 15, pres := pres, own := own, hst := hst, data := 0x55 }

/-- The state whose one cached line is that. -/
def lineS (e : RLine) : State := (base id).setRline 0 ln (some e)

theorem atRest_lineS : ∀ e ∈ [tag0 0 none 0, tag0 1 none 0, tag0 2 none 0, tag0 2 (some 1) 0], atRest (lineS e) 0 ln e := by
  intro e he
  simp only [List.mem_cons, List.not_mem_nil, or_false] at he
  unfold atRest
  rcases he with rfl | rfl | rfl | rfl <;>
    exact ⟨by decide +kernel, by decide +kernel, by decide +kernel, by decide +kernel, by decide +kernel, by decide +kernel,
      by decide +kernel, by decide +kernel, fun b => rfl, by decide +kernel, by decide +kernel,
      rc_all _ (fun c => c.resv = []) rfl (by decide +kernel)⟩

theorem quiet0 (e : RLine) (b : Nat) : quietBlock (lineS e) b :=
  ⟨rfl, thr_all (lineS e) (fun th => th.accs = []) rfl (fun c hc => by
    have : c = (0, ((base id).self t0)) := List.mem_singleton.mp hc
    rw [this]; rfl) b⟩

theorem witness_HomesServeRequests :
    atRest (lineS (tag0 1 none 0)) 0 ln (tag0 1 none 0) ∧ t0.blk = 0 ∧ quietBlock (lineS (tag0 1 none 0)) 0 ∧
    (tag0 1 none 0).own = none ∧ (∀ k < 100, k ≠ 0 → (tag0 1 none 0).pres.getLsbD k = false) ∧ (lineS (tag0 1 none 0)).bcOn 0 = true ∧
    (lineS (tag0 1 none 0)).blockDust 0 = false ∧ ((lineS (tag0 1 none 0)).bc 0).held = [] ∧
    (let v := (lineS (tag0 1 none 0)).setThr 0 0 { (base id).self t0 with resv := some (.dev 0x2000) }
     (v.self t0).resv = some (.dev 0x2000) ∧ resvHit ln (maskSecs (maskOf 0 4)) (.dev 0x2000) = true) ∧ ((lineS (tag0 1 none 0)).self t0).resv = none ∧
    atRest (lineS (tag0 0 none 0)) 0 ln (tag0 0 none 0) ∧ (tag0 0 none 0).pres = 0 ∧ (lineS (tag0 0 none 0)).wc 0 = [] ∧
    atRest (lineS (tag0 2 none 0)) 0 ln (tag0 2 none 0) ∧ (tag0 2 none 0).pres = BitVec.ofNat 400 (2 ^ 1) ∧
    atRest (lineS (tag0 2 (some 1) 0)) 0 ln (tag0 2 (some 1) 0) ∧ quietBlock (lineS (tag0 2 (some 1) 0)) 0 := by
  refine ⟨atRest_lineS _ (by decide +kernel), rfl, quiet0 _ _, rfl, by decide +kernel, by decide +kernel, by decide +kernel, rfl, by decide +kernel, rfl,
    atRest_lineS _ (by decide +kernel), rfl, rfl, atRest_lineS _ (by decide +kernel), rfl, atRest_lineS _ (by decide +kernel), quiet0 _ _⟩

/-- A block's copy of the line, written in sector 1. -/
def copy0 : BLine := { valid := 15, excl := 15, modi := 2, fwd := false, data := 0xFF, pois := 0, way := 0, atoms := 0 }

theorem witness_BlocksAnswerSnoops :
    let s := (lineS (tag0 1 (some 0) 0)).setBline 0 ln (some copy0)
    let d : State := { s with flt := { s.flt with dust := [.block 0] } }
    (s.blockDust 0 = false ∧ s.reserved 0 ln = false ∧ s.bline 0 ln = some copy0 ∧ s.home ln ≠ none ∧
      (ln.host = false → s.deadDev (ln.line.toNat * 256) = none) ∧ ∀ c, c ≠ 0 → s.bline c ln = none) ∧
    (lineS (tag0 0 none 0)).bline 0 ln = none ∧
    (mem0.setThr 0 0 { mem0.self t0 with resv := some (.dev 0x2000) }).reserved 0 ln = true ∧ d.blockDust 0 = true := by
  refine ⟨⟨by decide +kernel, by decide +kernel, by decide +kernel, by decide +kernel, by decide +kernel, ?_⟩, by decide +kernel,
    by decide +kernel, by decide +kernel⟩
  intro c hc
  exact bc_but _ (fun y => Tab.get none y.lines (lkey ln) = none) 0 rfl (by decide +kernel) c hc

/-- The line's transaction at its home, of a request that waits. -/
def txn0 (w : List Expect) (served : Bool) (q : Instr) : Txn :=
  { line := lkey ln, req := .msg q, waits := w, asked := true, served := served, fwdData := none, queued := [] }

/-- A state whose line has a transaction. -/
def txnS (s : State) (x : Txn) : State := s.setRc 0 { s.rc 0 with txns := [x] }

theorem witness_HomesTakeResponses :
    let q : Instr := .zero 1 ln
    let s := fun w => txnS (lineS (tag0 1 none 0)) (txn0 (w :: [.inv 5]) false q)
    let k := fun w => txnS (lineS (tag0 1 (some 0) 0)) (txn0 [w] true q)
    let dead : State := { (s (.recall 0)).setBline 0 ln (some copy0) with flt := { (base id).flt with dust := [.block 0] } }
    let wb := (k (.ack 1)).setBc 0 { (base id).bc 0 with wb := [(lkey ln, copy0)] }
    ((s (.inv 0)).home ln = some 0 ∧ ((s (.inv 0)).txn 0 ln).map (fun x => x.waits) = some [.inv 0, .inv 5] ∧
      ((s (.inv 0)).rline 0 ln).map (fun e => e.own) = some none) ∧
    ((s (.recall 0)).txn 0 ln).map (fun x => x.waits) = some [.recall 0, .inv 5] ∧
    ((s (.cur 0)).txn 0 ln).map (fun x => x.waits) = some [.cur 0, .inv 5] ∧
    (let h := (s .host).setRc 0 { (s .host).rc 0 with bi := [lkey ln] }
     (h.rc 0).bi = [lkey ln] ∧ (h.rc 0).late = [] ∧ (h.txn 0 ln).map (fun x => x.waits) = some [.host, .inv 5] ∧
       ∀ y ∈ (h.rc 0).txns, y.waits ≠ [.slot]) ∧
    (dead.blockDust 0 = true ∧ dead.bline 0 ln = some copy0 ∧ copy0.modi ≠ 0 ∧
      (dead.rline 0 ln).map (fun e => e.dirOnly) = some false ∧ (dead.txn 0 ln).map (fun x => x.waits) = some [.recall 0, .inv 5]) ∧
    (((k (.ack 0)).rc 0).txns = [txn0 [.ack 0] true q]) ∧
    (wb.bc 0).wb = [(lkey ln, copy0)] ∧ (wb.rline 0 ln).map (fun e => e.own) = some (some 0) := by
  exact ⟨by decide +kernel, by decide +kernel, by decide +kernel, by decide +kernel, by decide +kernel, rfl, rfl, by decide +kernel⟩

theorem witness_BlocksTakeAnswers :
    let acc := fun (k : AccKind) (i : Instr) (h : Bool) => { acc0 k false false with performed := false, asked := some i, homed := h }
    let st := fun (k : AccKind) (e : RLine) (x : Txn) (i : Instr) (h : Bool) =>
      let s := txnS ((base fun th => { th with accs := [acc k i h] }).setRline 0 ln (some e)) x
      s.setBc 0 { s.bc 0 with out := [{ line := lkey ln, req := i }] }
    let q : Instr := .rdshared 0 ln 1
    let o : Instr := .rdown 0 ln 1
    let z : Instr := .zero 0 ln
    let c : Instr := .wrcond t0 ln 1 1
    let s := st (.ld 3 false) (tag0 1 none 0) (txn0 [.ack 0] true q) q false
    let u := st (.amo 3 0 false 0) (tag0 1 none 0) (txn0 [.ack 0] true o) o false
    let f := st (.ld 3 false) { tag0 1 none 0 with dirOnly := true } (txn0 [.fwd 5] false q) q false
    let w := st .zline (tag0 1 none 0) (txn0 [.ack 0] true z) z true
    let v := st (.stc 3) (tag0 1 none 0) (txn0 [.inv 5] false c) c false
    (s.home ln = some 0 ∧ s.deadDev 0x2000 = none ∧ (s.bc 0).lines = [] ∧ (s.bc 0).ways = 0 ∧ (s.bc 0).retired = [] ∧ s.canHold 0 ln = true ∧
      (∀ b, s.bline b ln = none) ∧ (∀ i, i ≠ 0 → (s.thr 0 i).accs = []) ∧ (s.self t0).accs = [acc (.ld 3 false) q false]) ∧
    (s.txn 0 ln = some (txn0 [.ack 0] true q) ∧ s.rline 0 ln = some (tag0 1 none 0) ∧ (s.bc 0).out = [{ line := lkey ln, req := q }]) ∧
    ((u.bc 0).out = [{ line := lkey ln, req := o }] ∧ (u.lineNow ln).2.getLsbD 0 = false ∧ (∀ r, (u.rc r).resv = []) ∧
      (u.self t0).accs = [acc (.amo 3 0 false 0) o false]) ∧
    (f.txn 0 ln = some (txn0 [.fwd 5] false q) ∧ (f.rline 0 ln).map (fun e => e.dirOnly) = some true) ∧
    (w.txn 0 ln = some (txn0 [.ack 0] true z) ∧ (w.bc 0).out = [{ line := lkey ln, req := z }] ∧ (w.self t0).accs = [acc .zline z true]) ∧
    ((v.bc 0).out = [{ line := lkey ln, req := c }] ∧ (v.self t0).resv = none ∧ v.awaitsAck ln 0 c = false ∧
      (v.self t0).accs = [acc (.stc 3) c false]) := by
  refine ⟨⟨by decide +kernel, by decide +kernel, by decide +kernel, by decide +kernel, by decide +kernel, by decide +kernel, ?_, ?_, rfl⟩,
    ⟨rfl, rfl, rfl⟩, ⟨rfl, by decide +kernel, rc_all _ (fun c => c.resv = []) rfl (by decide +kernel), rfl⟩, ⟨rfl, by decide +kernel⟩,
    ⟨rfl, rfl, rfl⟩, rfl, by decide +kernel, by decide +kernel, rfl⟩
  · exact bc_all _ (fun y => Tab.get none y.lines (lkey ln) = none) rfl (by decide +kernel)
  · intro i hi
    exact tab_but Thread.init _ (fun th => th.accs = []) 0 rfl (by decide +kernel) (128 * 0 + i) (by omega)

/-- The host's decoder 0 covers device memory from 0 on, at host address 4 GiB. -/
def hdmS (s : State) : State :=
  { s with hpt := { s.hpt with
      memActive := true, linkUp := true,
      hdm := [(0, { Hdm.init with base := 0x100000000, size := 0x10000000, ways := 1, gran := 256, committed := true })] } }

/-- A line of host memory. -/
def hln : LineId := lineFor true 0x3040

theorem witness_HostReachesAndCaches :
    let s := hdmS (lineS (tag0 0 none 0))
    let b := s.setRc 0 { (lineS (tag0 0 none 2)).rc 0 with bi := [lkey ln] }
    (s.hostTarget 0x100002000 = some 0x2000 ∧ atRest s 0 ln (tag0 0 none 0) ∧ s.flt.readonly = false) ∧
    s.hostTarget 0x90000000 = none ∧
    (b.home ln = some 0 ∧ (b.rc 0).bi = [lkey ln] ∧ (b.rc 0).late = [] ∧ b.rline 0 ln = some (tag0 0 none 2) ∧ (b.rc 0).txns = []) := by
  refine ⟨⟨by decide +kernel, ?_, by decide +kernel⟩, by decide +kernel, by decide +kernel⟩
  exact ⟨by decide +kernel, by decide +kernel, by decide +kernel, by decide +kernel, by decide +kernel, by decide +kernel,
      by decide +kernel, by decide +kernel, fun b => rfl, by decide +kernel, by decide +kernel,
      rc_all _ (fun c => c.resv = []) rfl (by decide +kernel)⟩

theorem witness_HostReachesAndCaches_2 :
    let e : RLine := { RLine.fresh true false 3 with valid := 15, dirty := 2, excl := 2, data := 0x55 }
    let s := (base id).setRline 3 hln (some e)
    let g := s.setRc 3 { s.rc 3 with txns := [{ line := lkey hln, req := .msg (.rdshared 0 hln 2), waits := [.go 1, .go 2],
                                                asked := false, served := false, fwdData := none, queued := [] }] }
    (s.home hln = some 3 ∧ (∀ q, (s.rc q).evict = []) ∧ s.txn 3 hln = none ∧ (s.rc 3).hsnp = [] ∧ s.rline 3 hln = some e ∧ e.dirOnly = false ∧
      e.pres = 0 ∧ e.own = none ∧ (∀ b, s.bline b hln = none) ∧ ∀ q, (s.rc q).resv = []) ∧
    (g.hpt.hostLost = false ∧ g.home hln = some 3 ∧ (g.txn 3 hln).map (fun x => x.waits) = some [.go 1, .go 2] ∧
      g.rline 3 hln = some e ∧ 0x3040 % 256 / 64 = 1) := by
  refine ⟨⟨by decide +kernel, rc_all _ (fun c => c.evict = []) rfl (by decide +kernel), by decide +kernel, by decide +kernel, by decide +kernel,
    by decide +kernel, by decide +kernel, by decide +kernel, fun b => rfl, ?_⟩, by decide +kernel⟩
  exact rc_all _ (fun c => c.resv = []) rfl (by decide +kernel)

theorem witness_RemoteAccessesAtTheirHome :
    let s := base id
    s.place (2 ^ 45) = none ∧
    (s.home ln = some 0 ∧ (s.place 0x2000).isSome = true ∧ s.deadDev 0x2000 = none ∧ s.deadDev (0x2000 / 256 * 256) = none ∧
      (∀ b, s.bline b ln = none) ∧ s.rline 0 ln = none ∧ s.txn 0 ln = none ∧ (∀ q, (s.rc q).resv = []) ∧ 0x2000 % 256 + 8 ≤ 256 ∧ (s.place 0x2007).isSome = true ∧
      s.cohBad false 0x2000 8 = false) := by
  exact ⟨by decide +kernel, by decide +kernel, by decide +kernel, by decide +kernel, by decide +kernel, fun b => rfl, by decide +kernel,
    by decide +kernel, fun q => rfl, by decide +kernel, by decide +kernel, by decide +kernel⟩

theorem empty0 : cachesEmpty (base id) :=
  ⟨fun _ => rfl, fun _ => ⟨rfl, rfl, rfl, rfl⟩, fun b t =>
    thr_all (base id) (fun th => th.accs = [] ∧ th.resv = none) ⟨rfl, rfl⟩ (by decide +kernel) b t⟩

theorem witness_CacheControlsAndDrains :
    let s := base id
    let a := lineS { tag0 0 none 0 with dirty := 1 }
    let w := s.setRc 0 { s.rc 0 with walk := true, latched := some 1 }
    let d : State := { (lineS (tag0 1 (some 0) 0)).setBline 0 ln (some copy0) with flt := { s.flt with dust := [.block 0] } }
    let h := (lineS (tag0 0 none 2)).setRc 0 { (lineS (tag0 0 none 2)).rc 0 with hostDead := true, evict := [(1, 1)] }
    let x : WLine := { tgt := .dev 0x2000, mask := 3, data := 0xABCD, pois := 0, who := [], out := false }
    let c := (lineS (tag0 0 none 0)).setWc 0 [x]
    (writeTaken s 10 0x1100000 ∧ (s.rc 0).walk = false ∧ cachesEmpty s ∧ writeTaken s 10 0x1100018 ∧ writeTaken s 10 0x1100010) ∧
    ((a.rc 0).lines = [(lkey ln, some { tag0 0 none 0 with dirty := 1 })] ∧ a.home ln = some 0 ∧ a.deadDev (ln.line.toNat * 256) = none ∧
      (a.rc 0).txns = [] ∧ (∀ q, a.bline q ln = none) ∧ (∀ q, (a.rc q).resv = [])) ∧
    ((lineS (tag0 0 none 0)).rc 0).lines = [(lkey ln, some (tag0 0 none 0))] ∧ (0x8#32).getLsbD 3 = true ∧
    ((w.rc 0).walk = true ∧ (w.rc 0).latched = some 1 ∧ cachesEmpty w) ∧
    (d.blockDust 0 = true ∧ (d.rc 0).lines = [(lkey ln, some (tag0 1 (some 0) 0))] ∧ d.bline 0 ln = some copy0 ∧ copy0.modi ≠ 0) ∧
    ((h.rc 0).hostDead = true ∧ (h.rc 0).lines = [(lkey ln, some (tag0 0 none 2))] ∧ (h.rc 0).txns = []) ∧
    (atRest c 0 ln (tag0 0 none 0) ∧ (∀ b, c.storesWaiting b = 0) ∧ c.wc 0 = [x] ∧ x.tgt = .dev (ln.line.toNat * 256)) := by
  refine ⟨⟨by unfold writeTaken; decide +kernel, rfl, empty0, by unfold writeTaken; decide +kernel, by unfold writeTaken; decide +kernel⟩,
    ⟨by decide +kernel, by decide +kernel, by decide +kernel, by decide +kernel, fun q => rfl, ?_⟩, by decide +kernel, by decide +kernel,
    ⟨by decide +kernel, by decide +kernel, ?_⟩, by decide +kernel, by decide +kernel, ?_, ?_, by decide +kernel, by decide +kernel⟩
  · exact rc_all _ (fun c => c.resv = []) rfl (by decide +kernel)
  · exact ⟨fun _ => rfl, fun r => ⟨rc_all _ (fun c => c.lines = []) rfl (by decide +kernel) r,
      rc_all _ (fun c => c.resv = []) rfl (by decide +kernel) r, rc_all _ (fun c => c.txns = []) rfl (by decide +kernel) r, rfl⟩, empty0.2.2⟩
  · exact ⟨by decide +kernel, by decide +kernel, by decide +kernel, by decide +kernel, by decide +kernel, by decide +kernel,
      by decide +kernel, by decide +kernel, fun b => rfl, by decide +kernel, by decide +kernel,
      rc_all _ (fun c => c.resv = []) rfl (by decide +kernel)⟩
  · exact noStores _ rfl (by decide +kernel)

/-! ### Memory stacks -/

/-- A read of the line that a port has sent, or its write, or a maintenance access. -/
def req0 (op : StackOp) (again : Bool) : StackReq := { id := 7, tag := 5, op := op, modl := 0, reissued := again, heard := false }

/-- A state whose port 0, or another, has that request outstanding. -/
def portS (p : Nat) (op : StackOp) (again : Bool) : State := (base id).setMport p { Port.init with reqs := [req0 op again] }

theorem emptyPort (p : Nat) (op : StackOp) (again : Bool) : cachesEmpty (portS p op again) := empty0

theorem witness_StackAnswers :
    let s := txnS (portS 0 (.rd256 32) false) (txn0 [.stack 0 7, .inv 3] false (.rdcurr .queue ln 15))
    let d := portS 1 (.rd256 32) true
    let v := portS 0 (.rd256 32) true
    let two := (portS 0 (.wr 32 1 0 0) false).setMport 0 { Port.init with reqs := [req0 (.wr 32 1 0 0) false], ready := [(8, .rd64 40 1)] }
    (((s.mport 0).reqs = [req0 (.rd256 32) false]) ∧ (s.mport 0).ready = [] ∧ (StackOp.rd256 32).reads = some (32, 15) ∧ s.home ln = some 0 ∧
      s.txn 0 ln = some (txn0 [.stack 0 7, .inv 3] false (.rdcurr .queue ln 15))) ∧
    ((portS 0 (.wr 32 1 0 0) false).mport 0).reqs = [req0 (.wr 32 1 0 0) false] ∧ (two.mport 0).ready = [(8, .rd64 40 1)] ∧
    ((portS 0 (.mnt 0 true 0) false).mport 0).reqs = [req0 (.mnt 0 true 0) false] ∧
    ((d.mport 1).reqs = [req0 (.rd256 32) true] ∧ (d.mport 1).state = 2 ∧ d.baseSilent 1 (req0 (.rd256 32) true) = false ∧ cachesEmpty d) ∧
    (v.baseSilent 0 (req0 (.rd256 32) true) = true ∧ (v.mport 0).state = 2 ∧ (v.mport 1).state = 2 ∧ cachesEmpty v) ∧
    (((base id).mport 0).state = 2 ∧ ((base id).map 0).lostLines = 0 ∧ ((base id).mport 1).state = 2 ∧ cachesEmpty (base id)) ∧
    ((base id).domOn 11 = true ∧ ((base id).lg 0).modules.getLsbD 0 = true ∧
      ((base id).lg 0).modules &&& ~~~(1#10 <<< 0) ≠ 0 ∧ ((portS 0 (.rd256 32) false).mport 1).reqs = []) ∧
    (let u := (base id).setLg 0 { LinkGroup.init with modules := 1 }
     (u.lg 0).modules &&& ~~~(1#10 <<< 0) = 0 ∧ (u.lg 0).modules.getLsbD 0 = true ∧ (u.mport 0).state = 2 ∧ (u.mport 1).state = 2) := by
  exact ⟨by decide +kernel, by decide +kernel, by decide +kernel, by decide +kernel,
    ⟨by decide +kernel, by decide +kernel, by decide +kernel, emptyPort _ _ _⟩,
    ⟨by decide +kernel, by decide +kernel, by decide +kernel, emptyPort _ _ _⟩,
    ⟨by decide +kernel, by decide +kernel, by decide +kernel, empty0⟩, by decide +kernel, by decide +kernel⟩

theorem witness_TrainingBuildsTheMap :
    let s := ((base id).setMport 0 { Port.init with state := 1 }).setMport 1 { Port.init with state := 1 }
    let t := s.setLg 0 { LinkGroup.init with training := true }
    let u : State := { s with hpt := { s.hpt with memActive := false } }
    (t.lg 0).training = true ∧ (t.lg 0).modules &&& ~~~1 ≠ 0 ∧ (t.mport 0).state = 1 ∧ (t.mport 1).state = 1 ∧
    u.hpt.memActive = false ∧ u.rst.phase = .none := by decide +kernel

/-! ### The host port -/

/-- A state whose host link is up, with configuration registers changed. -/
def hostS (f : HostPort → HostPort) : State := let s := base id; { s with hpt := f { s.hpt with linkUp := true, link := 0x42030 } }

theorem witness_HostLinkAndConfiguration :
    let l0 := hostS fun h => { h with cfg := { h.cfg with dev3ctl := 8, linkctl := 2 }, lpm := 0x3206 }
    let lost := hostS fun h => { h with hostLost := true }
    ((base id).domOn 2 = true ∧ (base id).rst.perstHigh = true) ∧ (hostS id).hpt.linkUp = true ∧
    (bit l0.hpt.cfg.dev3ctl 3 = true ∧ bit l0.hpt.lpm 2 = true ∧ 2 ≤ bits l0.hpt.link 5 4 ∧ 8 ≤ bits l0.hpt.link 18 14 ∧
      0 < Nat.min 50 (bits l0.hpt.lpm 15 8)) ∧
    (bit l0.hpt.cfg.linkctl 1 = true ∧ bit l0.hpt.lpm 1 = true ∧ l0.hostIdle = true) ∧
    ((hostS id).hpt.hostLost = false ∧ (hostS id).hpt.reads = [] ∧ (hostS id).xlt.ats = [] ∧ (hostS id).xlt.pri = [] ∧
      (hostS id).que.que = [] ∧ collIdle (hostS id) ∧ cachesEmpty (hostS id)) ∧
    (writeTaken lost 2 0x8000 ∧ lost.hpt.linkUp = true ∧ lost.hpt.hostLost = true ∧ lost.evt.pending = 0 ∧
      ∀ r < 5, (lost.rc r).reclaims = []) := by
  unfold writeTaken collIdle
  exact ⟨by decide +kernel, by decide +kernel, by decide +kernel, by decide +kernel,
    ⟨by decide +kernel, by decide +kernel, by decide +kernel, by decide +kernel, by decide +kernel, by decide +kernel, empty0⟩,
    by decide +kernel⟩

theorem witness_HostLinkAndConfiguration_2 :
    let s := hostS id
    let e : RLine := { RLine.fresh true false 3 with valid := 15, dirty := 2, excl := 2, data := 0x55 }
    let c : State := (hostS fun h => { h with cfg := { h.cfg with cxlctl := 1 } }).setRline 3 hln (some e)
    let p : Piece := { q := 0, slot := 0, src := 0, dst := 0, len := 64, off := 0, zero := false, cvt := none, pasid := 0, tries := 0,
                       stage := 1, left := 1, buf := [], spoilt := [], bad := none }
    let r : IoRead := { tag := 9, addr := 0x9000, len := 4, why := .copy 0 0 0 0 0, poisoned := false }
    let i : State := (hostS fun h => { h with reads := [r] }).setEng 0 { pieces := [p], bytes := 0 }
    let f : State := hostS fun h => { h with flr := true }
    (s.cfgServes = true ∧ s.hpt.d3hot = false ∧ cachesEmpty s ∧ s.gateable 14 = true ∧ s.que.que = []) ∧
    (hostS fun h => { h with d3hot := true }).hpt.d3hot = true ∧
    ((c.rc 3).lines = [(lkey hln, some e)] ∧ (∀ m, m ≠ 3 → (c.rc m).lines = []) ∧ c.regionDust 3 = false ∧ (∀ b, c.bline b hln = none) ∧
      (∀ m, (c.rc m).resv = []) ∧ (c.rc 3).txns = [] ∧ e.own = none ∧ e.pres = 0 ∧ c.cacheEnable = true ∧ c.cfgServes = true) ∧
    (f.domOn 2 = true ∧ f.hpt.linkUp = true ∧ f.hpt.flr = true) ∧
    (writeTaken s 2 0x1310 ∧ writeTaken s 2 0x1404 ∧ hdmLegal 0x100000000 0x10000000 1 256 = true ∧ s.hpt.biEnable = false ∧
      (hostS fun h => { h with biEnable := true }).hpt.biEnable = true ∧ (∀ i < 4, (s.hdm i).committed = false) ∧
      0 + 0x10000000 / 1 ≤ s.popEnd) ∧
    (i.hpt.reads = [r] ∧ (i.eng 0).pieces = [p] ∧ bit i.hpt.cfg.devctl2 4 = false) ∧
    (f.que.que = [] ∧ f.xlt.pri = [] ∧ f.xlt.ats = [] ∧ ∀ m, f.wc m = [] ∧ (f.rc m).txns = []) := by
  refine ⟨⟨by decide +kernel, by decide +kernel, empty0, by decide +kernel, by decide +kernel⟩, by decide +kernel,
    ⟨by decide +kernel, ?_, by decide +kernel, fun b => rfl, ?_, by decide +kernel, rfl, rfl, by decide +kernel, by decide +kernel⟩,
    by decide +kernel, by unfold writeTaken; decide +kernel, by decide +kernel, by decide +kernel, by decide +kernel, by decide +kernel,
    fun m => ⟨rfl, rfl⟩⟩
  · exact tab_but RCache.init _ (fun c => c.lines = []) 3 rfl (by decide +kernel)
  · exact rc_all _ (fun c => c.resv = []) rfl (by decide +kernel)

/-! ### Translation -/

/-- A state whose thread waits for a page, with the translation logic changed. -/
def pageS (f : Xlt → Xlt) : State :=
  let s := base fun th => { th with stat := .pageWait }
  { s with xlt := f s.xlt, hpt := { s.hpt with cfg := { s.hpt.cfg with cxlctl := 1 } } }

theorem witness_TranslationCommands :
    let r : AtsReq := { pasid := 0, page := pageOf 0x5123, unit := 3, waiters := [.thread 0 0], stale := false }
    let p : PageReq := { idx := 0, pasid := 0, page := pageOf 0x5123, wr := false, fetch := false, addr := 0x5123, waiters := [.thread 0 0] }
    let a := pageS fun x => { x with ats := [r] }
    let b := pageS fun x => { x with pri := [p] }
    let i : Inv := { pasid := 0, glob := true, start := 0, len := 0x1000, uses := [] }
    let s := base id
    (a.xlt.ats = [r] ∧ (a.thr 0 0).stat = .pageWait ∧ collIdle a ∧ a.hpt.hostLost = false ∧ a.cacheEnable = true ∧
      a.ownHdm (0x9000 + 0x123) = false) ∧ { r with stale := true }.stale = true ∧
    (b.xlt.pri = [p] ∧ (b.thr 0 0).stat = .pageWait ∧ collIdle b ∧ b.xlt.burnt = []) ∧ s.xlt.invs = [] ∧
    ((pageS fun x => { x with invs := [i] }).xlt.invs = [i] ∧ (base id).hpt.flr = false ∧ (∀ x ∈ i.uses, (base id).useOver x = true)) ∧
    (pageS fun x => { x with mirrorInv := some [] }).xlt.mirrorInv = some [] ∧
    (writeTaken s 3 0x310028 ∧ s.xlt.mirrorInv = none) ∧ (writeTaken s 3 0x310000 ∧ s.anyRuns = false) := by
  unfold writeTaken collIdle; decide +kernel

/-! ### Work queues and copies -/

/-- A descriptor of opcode op with fields given as bit positions and values. -/
def cmd0 (op : Nat) (fields : List (Nat × Nat)) : Cmd :=
  { slot := 0, desc := BitVec.ofNat 512 (fields.foldl (fun a f => a + f.2 * 2 ^ f.1) op), stat := .waiting, left := 0, flags := 0,
    first := none, val := 0, read := false, asked := false, tries := 0, recorded := false, near := none }

/-- A state whose queue 0 is enabled, with its ring at 0x10000 and its completion ring at 0x20000. -/
def queS (f : Queue → Queue) : State :=
  let s := base id
  ({ s with mail := { s.mail with fw := .running } } : State).setQ 0 (f { Queue.init with state := .running, ring := 0x10000, cpl := 0x20000 })

/-- Queue 0 holds one command. -/
def oneS (c : Cmd) : State := queS fun x => { x with cmds := [c] }

theorem uncached_at (s : State) (o : Nat) (hc : s.coh.bc = []) (hr : s.coh.rc = [])
    (h : o < 2 ^ 46 ∧ (s.home (lineFor false o)).isSome = true ∧ (s.place o).isSome = true ∧ s.deadDev o = none ∧
      s.deadDev (o / 256 * 256) = none) : uncached s o := by
  refine ⟨h.1, h.2.1, h.2.2.1, h.2.2.2.1, h.2.2.2.2, fun b => ?_, fun r => ?_⟩
  · unfold State.bline State.bc; rw [hc]; rfl
  · unfold State.rline State.rc; rw [hr]; exact ⟨rfl, rfl, rfl⟩

theorem uncached_queS (f : Queue → Queue) (o : Nat) (h : o < 2 ^ 46 ∧ ((base id).home (lineFor false o)).isSome = true ∧
    ((base id).place o).isSome = true ∧ (base id).deadDev o = none ∧ (base id).deadDev (o / 256 * 256) = none) : uncached (queS f) o :=
  uncached_at _ _ rfl rfl h

theorem tableRead_zero (s : State) (a : Nat) (h1 : (s.place a).isNone = false) (h2 : s.deadDev a = none)
    (h3 : s.lineNow (lineFor false a) = (0, 0)) (h4 : a % 256 + 64 ≤ 256) : s.tableRead a 64 = some 0 := by
  have hl : ∀ k, k < 64 → lineFor false (a + k) = lineFor false a := fun k hk => by
    unfold lineFor; rw [show (a + k) / 256 = a / 256 by omega]
  have hr : s.cohRead false a 64 = (List.range 64).map (fun _ => (0 : Byte)) := by
    unfold State.cohRead
    refine List.map_congr_left fun k hk => ?_
    rw [hl k (List.mem_range.mp hk), h3]
    simp [lineByte]
  have hb : s.cohBad false a 64 = false := by
    unfold State.cohBad
    refine List.any_eq_false.mpr fun k hk => ?_
    rw [hl k (List.mem_range.mp hk), h3]
    simp
  unfold State.tableRead
  rw [h1, h2, hb, hr]
  decide +kernel

theorem witness_QueuesFetchAndObey :
    let f := queS fun x => { x with pi := 1, phase := true }
    let old := queS fun x => { x with pi := 1, phase := false, rereads := 1 }
    let h := queS fun x => { x with pi := 1, cfg := x.cfg ||| 0x10000000 }
    let hb : State := { h with hpt := { h.hpt with cfg := { h.hpt.cfg with command := 4 } } }
    let c : Cmd := { cmd0 5 [] with stat := .running }
    ((queS id).hpt.flr = false ∧ (queS id).domOn 2 = true ∧ 3 < ((queS id).q 0).size ∧ ((queS id).q 0).size ≤ 100) ∧
    (f.fetches 0 = true ∧ (f.q 0).ringHost = false ∧ f.tableRead ((f.q 0).slotAddr 0) 64 = some 0 ∧
      bit (0#512) 7 ≠ (f.q 0).phase ∧ bit (0#512) 7 = ((queS fun x => { x with pi := 1, phase := false }).q 0).phase) ∧
    (old.fetches 0 = true ∧ (old.q 0).rereads ≠ 0) ∧
    (hb.fetches 0 = true ∧ (hb.q 0).ringHost = true ∧ hb.hpt.hostLost = false ∧ hb.busMaster = true ∧ hb.hpt.reads = [] ∧ hb.hpt.nextTag < 2 ^ 10 ∧
      (hb.q 0).rereads = 0) ∧
    (writeTaken (queS id) 2 0x201018 ∧ (queS id).mail.fw = .running ∧ ((queS id).q 0).state = .running) ∧
    ((queS fun x => { x with state := .stopped }).q 0).state = .stopped ∧ ((oneS c).q 0).cmds = [c] ∧ c.op = 5 ∧ (base id).mail.fw ≠ .running := by
  exact ⟨by decide +kernel, ⟨by decide +kernel, by decide +kernel,
    tableRead_zero _ _ (by decide +kernel) (by decide +kernel) (by decide +kernel) (by decide), by decide +kernel, by decide +kernel⟩,
    by decide +kernel, by decide +kernel, by unfold writeTaken; decide +kernel, by decide +kernel, by decide +kernel, by decide +kernel,
    by decide +kernel⟩

theorem atRest_of (s : State) (e : RLine) (h : s.home ln = some 0 ∧ s.deadDev (ln.line.toNat * 256) = none ∧ s.rline 0 ln = some e ∧
    e.dirOnly = false ∧ e.valid = 15 ∧ e.fwdr = none ∧ e.hst = 0 ∧ s.coh.bc = [] ∧ (s.rc 0).txns = [] ∧ (s.rc 0).bi = [] ∧
    ∀ c ∈ s.coh.rc, c.2.resv = []) : atRest s 0 ln e := by
  obtain ⟨h1, h2, h3, h4, h5, h6, h7, hb, h8, h9, hr⟩ := h
  refine ⟨rfl, h1, h2, h3, h4, h5, h6, h7, fun b => ?_, h8, h9, rc_all s (fun c => c.resv = []) rfl hr⟩
  unfold State.bline State.bc
  rw [hb]
  rfl

theorem witness_QueueCommandsRun :
    let kl := cmd0 1 [(128, 0x4000), (192, 0x5000), (312, 1)]
    let sg := cmd0 4 [(128, 0x2000), (192, 7), (256, 1)]
    let wt := cmd0 5 [(128, 0x2000), (192, 7), (288, 5)]
    let fl := cmd0 6 [(128, 1)]
    let e0 := tag0 0 none 0
    let at0 := fun (k : Cmd) => (oneS k).setRline 0 ln (some e0)
    let rs := fun (k : Cmd) => ((at0 k).served 0).runCmd 0 0
    let there := fun (s z : State) (k : Cmd) (w : Bool) =>
      (semPlace z 0 k w).map (fun p => p.1) = some (.dev 0x2000) ∧ s.cohBad false 0x2000 8 = false ∧ s.deadDev 0x2000 = none
    let go := { wt with stat := .running }
    let gone := { go with asked := true, val := 9 }
    let sent := { sg with stat := .running, asked := true }
    let ended := { fl with stat := .running }
    let dn := { cmd0 0 [(32, 0xAABBCCDD)] with stat := .done 7 9 }
    let e : RLine := { tag0 0 none 0 with dirty := 1 }
    let m := (oneS fl).setRline 0 ln (some e)
    Starts (oneS (cmd0 0 [])) 0 0 0 (cmd0 0 []) ∧ (Starts (oneS kl) 0 0 1 kl ∧ (oneS kl).blocks.kernels = []) ∧
    (Starts (at0 sg) 0 0 4 sg ∧ there (at0 sg) (rs sg) sg true ∧ atRest (at0 sg) 0 ln e0 ∧ e0.own = none ∧ e0.pres = 0) ∧
    (Starts (at0 wt) 0 0 5 wt ∧ there (at0 wt) (rs wt) wt false ∧ atRest (at0 wt) 0 ln e0 ∧ Starts (oneS wt) 0 0 5 wt ∧
      there (oneS wt) (((oneS wt).served 0).runCmd 0 0) wt false ∧ uncached (oneS wt) 0x2000) ∧
    (((at0 go).q 0).cmds = [go] ∧ go.op = 5 ∧ go.asked = false ∧ there (at0 go) (at0 go) go false ∧ atRest (at0 go) 0 ln e0 ∧
      ((oneS gone).q 0).cmds = [gone] ∧ gone.asked = true ∧ gone.left = 0 ∧ bits go.desc 319 288 ≠ 0) ∧
    (((oneS sent).q 0).cmds = [sent] ∧ sent.op = 4 ∧ sent.asked = true ∧ sent.left = 0 ∧ ((oneS sent).q 0).cplHost = false ∧
      bit sent.desc 10 = false ∧ bit sent.desc 9 = false ∧ ended.op = 6 ∧ (oneS ended).flushDone ended = true ∧
      ((oneS { sent with left := 1 }).q 0).cmds = [{ sent with left := 1 }]) ∧
    (Starts (oneS (cmd0 6 [])) 0 0 6 (cmd0 6 []) ∧ bits (cmd0 6 []).desc 135 128 = 0 ∧ Starts m 0 0 6 fl ∧ bits fl.desc 135 128 = 1 ∧
      fl.inRange (0x2000 / 256) = true ∧ (m.rc 0).lines = [(lkey ln, some e)] ∧ (∀ k, k ≠ 0 → (m.rc k).lines = []) ∧
      m.home ln = some 0 ∧ m.deadDev 0x2000 = none ∧ e.dirOnly = false ∧ e.own = none ∧ e.dirty ≠ 0) ∧
    (((oneS dn).q 0).cmds = [dn] ∧ ((oneS dn).q 0).cplHost = false ∧ bit dn.desc 10 = false ∧ bit dn.desc 9 = false ∧
      ((oneS dn).q 0).cplAddr 0 = 0x20000 ∧ uncached (oneS dn) 0x20000) := by
  refine ⟨by unfold Starts; decide +kernel, by unfold Starts; decide +kernel,
    ⟨by unfold Starts; decide +kernel, by decide +kernel, atRest_of _ _ (by decide +kernel), rfl, rfl⟩,
    ⟨by unfold Starts; decide +kernel, by decide +kernel, atRest_of _ _ (by decide +kernel), by unfold Starts; decide +kernel, by decide +kernel,
      uncached_queS _ _ (by decide +kernel)⟩,
    ⟨by decide +kernel, by decide +kernel, rfl, by decide +kernel, atRest_of _ _ (by decide +kernel), by decide +kernel, rfl, rfl, by decide +kernel⟩,
    by decide +kernel,
    ⟨by unfold Starts; decide +kernel, by decide +kernel, by unfold Starts; decide +kernel, by decide +kernel,
    by decide +kernel, by decide +kernel, ?_, by decide +kernel, by decide +kernel, rfl, rfl, by decide +kernel⟩, by decide +kernel,
    by decide +kernel, by decide +kernel, by decide +kernel, by decide +kernel, uncached_queS _ _ (by decide +kernel)⟩
  exact tab_but RCache.init _ (fun c => c.lines = []) 0 rfl (by decide +kernel)

theorem ranges_of (w : Ranges) (l : List (Nat × Nat × Target)) (s : State)
    (h : (match w with | .all a t => decide (a = l) && decide (t = { s with xlt := t.xlt }) | _ => false) = true) :
    ∃ t, w = .all l t ∧ t = { s with xlt := t.xlt } := by
  cases w with
  | all a t =>
    simp only [Bool.and_eq_true, decide_eq_true_eq] at h
    exact ⟨t, by rw [h.1], h.2⟩
  | fault => cases h
  | wait => cases h

theorem ok_of (w : XOut) (g : Target) (s : State)
    (h : (match w with | .ok a t => decide (a = g) && decide (t = { s with xlt := t.xlt }) | _ => false) = true) :
    ∃ t, w = .ok g t ∧ t = { s with xlt := t.xlt } := by
  split at h
  · simp only [Bool.and_eq_true, decide_eq_true_eq] at h
    exact ⟨_, by rw [h.1], h.2⟩
  · cases h

theorem witness_ModesetsAndCopies :
    let ms := cmd0 8 [(128, 1), (160, 3)]
    let run := { ms with stat := .running }
    let m : ModeSet := { q := 0, slot := 0, mode := 1, scope := 3, acked := [], lost := [] }
    let all : ModeSet := { m with acked := List.range 100 }
    let sm := fun (x : ModeSet) (s : State) => ({ s with que := { s.que with modeset := some x } } : State)
    let s := sm m (oneS run)
    let off := s.setBlk 0 { s.blk 0 with state := .off }
    let zr := cmd0 9 [(128, 0x100), (192, 0x100)]
    let cp := cmd0 2 [(128, 0x100), (192, 0x8000), (256, 64)]
    let zp : Piece := zr.piece 0 0 0
    let zs := (oneS { zr with stat := .running, val := 0x100, left := 1 }).setEng 0 { pieces := [zp], bytes := 0 }
    (Starts (oneS ms) 0 0 8 ms ∧ (oneS ms).que.modeset = none ∧ s.que.modeset.isSome = true) ∧
    (s.owesAck m 0 = true ∧ s.outOfService 0 = false ∧ s.heldBy 0 = false ∧ (s.blk 0).task = none ∧ (s.blk 0).reserved = none ∧ cachesEmpty s) ∧
    (off.owesAck m 0 = true ∧ off.outOfService 0 = true) ∧
    ((sm all (oneS run)).allAcked all = true ∧ (((sm all (oneS run)).q 0).cmds = [run])) ∧
    (Starts (oneS cp) 0 0 2 cp ∧ Starts (oneS zr) 0 0 9 zr ∧ cp.near = none ∧ cp.val = 0 ∧ cp.left = 0 ∧
      (∃ t, (((oneS zr).served 0).runCmd 0 0).translate (queWant 0 0 ((oneS zr).q 0).pasid zr.dst true 0) = .ok (.dev 0x100) t ∧
        t = { ((oneS zr).served 0).runCmd 0 0 with xlt := t.xlt }) ∧
      (∃ t, (((oneS cp).served 0).runCmd 0 0).translate (queWant 0 0 ((oneS cp).q 0).pasid cp.dst true 0) = .ok (.dev 0x8000) t ∧
        t = { ((oneS cp).served 0).runCmd 0 0 with xlt := t.xlt }) ∧
      (oneS zr).engSet true ≠ [] ∧ (oneS cp).engSet true ≠ [] ∧ 0 < cp.total ∧ (cp.piece 0 0 0).len = cp.total ∧ 0 < zr.total ∧
      (zr.piece 0 0 0).len = zr.total ∧ (∀ k, ((oneS cp).eng k).pieces = [])) ∧
    (zs.engServes 0 = true ∧ (zs.eng 0).pieces = [zp] ∧ { zp with left := 0 } = zp ∧ zp.bad = none ∧ zp.stage = 0 ∧ zp.zero = true ∧
      (∃ t, rangeTargets (pieceWant 0 zp true) [(zp.dst, 0, zp.len)] [] zs = .all [(0, zp.len, .dev zp.dst.toNat)] t ∧ t = { zs with xlt := t.xlt }) ∧
      uncached zs zp.dst.toNat ∧ (∀ r, (zs.rc r).lines = []) ∧ 1 ≤ zp.len ∧ zp.dst.toNat % 256 + zp.len ≤ 256 ∧ zr.total ≤ 0x100) := by
  refine ⟨by unfold Starts; decide +kernel, ⟨by decide +kernel, by decide +kernel, by decide +kernel, by decide +kernel, by decide +kernel, empty0⟩,
    by decide +kernel, by decide +kernel, ⟨by unfold Starts; decide +kernel, by unfold Starts; decide +kernel, rfl, rfl, rfl,
    ok_of _ _ _ (by decide +kernel), ok_of _ _ _ (by decide +kernel), by decide +kernel, by decide +kernel,
    by decide +kernel, by decide +kernel, by decide +kernel, by decide +kernel, fun _ => rfl⟩,
    ⟨by decide +kernel, by decide +kernel, by decide +kernel, by decide +kernel, by decide +kernel, by decide +kernel,
    ranges_of _ _ _ (by decide +kernel), uncached_at _ _ rfl rfl (by decide +kernel), fun _ => rfl, by decide +kernel, by decide +kernel,
    by decide +kernel⟩⟩

/-! ### The network -/

/-- A state whose network engine is enabled, with window 0 over the first 4 GiB for every device and queue pair n changed. -/
def netS (n : Nat) (g : Qp → Qp) : State :=
  let s := base id
  let w : Win := { Win.init with base := 0xF000000000000000, len := 0x100000000, src := 0 }
  ({ s with net := { s.net with gctl := 0xFF001, win := [(0, w)] } } : State).setQp n (g { Qp.init with state := .active })

/-- A packet from device 5 for queue pair n. -/
def pkt0 (n : Fin 262144) (addr aux : Nat) (bs : List Byte) : Pkt :=
  { ifc := 0, srcDev := 5, srcIfc := 1, ce := false, isFirst := true, isLast := true, ackReq := true, notify := false, retx := false,
    mcast := none, path := 2, gen := 0, dqpn := n, sqpn := 0, ceCnt := 0, psn := 0, addr := BitVec.ofNat 64 addr,
    aux := BitVec.ofNat 32 aux, ts := 0, payload := bs }

/-- The settings of an explicit queue pair. -/
def cfg0 : QpCfg :=
  { pasid := 0, peer := 5, rqpn := 77, lmask := 3, rmask := 1, paths := 4, slog2 := 4, rlog2 := 4, sring := 0x10000, scpl := 0x11000,
    rring := 0x12000, rcpl := 0x13000, vsel := false, vector := 0 }

/-- An explicit queue pair that is READY. -/
def expS (g : Qp → Qp) : State := netS 70000 (fun q => g { q with state := .ready, cfg := some cfg0 })

/-- A packet that is out and waits for its acknowledgement. -/
def sent0 (psn order : Nat) (own : Own) : Sent :=
  { pkt := { mkPkt 1 0x99 8 [] with psn := BitVec.ofNat 24 psn, path := 2 }, own := own, order := order }

/-- A semaphore's command that waits for its answer. -/
def semCmd : Cmd := { cmd0 5 [] with slot := 3, stat := .running, left := 1 }

/-- Interface 0 is up. -/
def ifcUp (s : State) : State := s.setIfc 0 { s.ifc 0 with up := true }

/-- No interface is in service. -/
theorem mute0 (n : Nat) (g : Qp → Qp) : netMute (netS n g) := by
  intro i
  show (netS n g).ifcServes i = false
  simp [State.ifcServes, netS, State.ifc, State.setQp, base, State.setThr, State.reset, Tab.get, Net.init, Ifc.init]

theorem next_of (s : State) (p : Pkt) (hr : s.coh.rc = []) (h : (bit s.net.gctl 0 = true ∧ s.net.quiet = false ∧ p.mcast = none ∧
    s.qpUsed p.dqpn.val = true ∧ s.peer p.dqpn.val = p.srcDev ∧
    (s.qp p.dqpn.val).state = (if p.dqpn.val < 65536 then .active else .ready) ∧ p.gen = s.genOf p.dqpn.val) ∧
    p.psn = (s.qp p.dqpn.val).cum ∧ (s.qp p.dqpn.val).map = 0 ∧ (s.qp p.dqpn.val).unsent = [] ∧ (s.qp p.dqpn.val).held = [] ∧
    (s.qp p.dqpn.val).firsts = []) : nextPacket s p :=
  ⟨h.1, fun r => by unfold State.rc; rw [hr]; rfl, h.2⟩

theorem witness_NetReceive :
    let p := pkt0 5 0x2000 0x10 (leBytes 8 7 ++ leBytes 8 0)
    let s := netS 5 id
    let w := fun len => (netS 5 fun q => { q with waits := [{ psn := 9, own := .sem 2 3, addr := 0x77, len := len, got := 0 }] }).setQ 2
      { Queue.init with cmds := [semCmd] }
    let x := pkt0 70000 (4 * 2 ^ 32) 8 [1, 2, 3, 4]
    let m : RecvMsg := { num := 4, buf := 0x4000, len := 8, tag := 0x55, got := [], total := 0, tries := 0 }
    let d := expS fun q => { q with msgs := [m] }
    let a := netS 5 fun q => { q with snext := 2, sent := [sent0 0 0 .reply, sent0 1 1 .reply] }
    (nextPacket s p ∧ collIdle s ∧ netMute s ∧ (s.qp 5).cfg = none ∧ isCollAddr p.addr = false) ∧
    (s.peerCheck 5 0x2000 16 1 = 0 ∧ uncached s 0x2000 ∧ s.peerCheck 5 0x200000000 3 1 ≠ 0 ∧ s.peerCheck 5 0x2000 16 2 = 0 ∧
      s.peerCheck 5 0x2000 8 0 = 0 ∧ s.cohBad false 0x2000 16 = false ∧ s.linesReady (.umtReadReq p) (secsOf false 0x2000 16) false = true) ∧
    (nextPacket (w 8) (pkt0 5 0 9 (leBytes 8 0x1234)) ∧ ((w 8).qp 5).waits = [{ psn := 9, own := .sem 2 3, addr := 0x77, len := 8, got := 0 }] ∧
      ((w 8).q 2).cmds = [semCmd] ∧ ((w 0).qp 5).waits = [{ psn := 9, own := .sem 2 3, addr := 0x77, len := 0, got := 0 }]) ∧
    (nextPacket d x ∧ collIdle d ∧ (d.qp 70000).cfg = some cfg0 ∧ uncached d 0x13000 ∧ (d.qp 70000).msgs = [m] ∧
      (∃ t, State.translate (arrived d x) { wrWant 70000 65536 cfg0.pasid m.tries with va := m.buf + 0, write := true } = .ok (.dev 0x4000) t ∧
        t = { arrived d x with xlt := t.xlt }) ∧ uncached d 0x4000 ∧ ((arrived d x).deadAt (.dev 0x4000)).isNone = true ∧ otherLine 0x13000 0x4000) ∧
    (belongs (netS 5 fun q => { q with cum := 3 }) p ∧ (∀ r, (s.rc r).txns = []) ∧ psnBefore p.psn 3 = true) ∧ bit (base id).net.gctl 0 = false ∧
    (belongs a (pkt0 5 0 0 (List.replicate 31 0 ++ [2])) ∧ (a.qp 5).unsent = [] ∧ (a.qp 5).sent = [sent0 0 0 .reply, sent0 1 1 .reply] ∧
      ackCovers 0 (ackMap (List.replicate 31 0 ++ [2])) 0 = false ∧ ackCovers 0 (ackMap (List.replicate 31 0 ++ [2])) 1 = true ∧
      (∃ j < (ifcUp a).pathsOf 5, (ifcUp a).pathUp 5 j = true)) := by
  unfold belongs collIdle
  refine ⟨⟨next_of _ _ rfl (by decide +kernel), by decide +kernel, mute0 5 id, by decide +kernel, by decide +kernel⟩,
    ⟨by decide +kernel, uncached_at _ _ rfl rfl (by decide +kernel), by decide +kernel, by decide +kernel, by decide +kernel, by decide +kernel, by decide +kernel⟩,
    ⟨next_of _ _ rfl (by decide +kernel), by decide +kernel, by decide +kernel, by decide +kernel⟩,
    ⟨next_of _ _ rfl (by decide +kernel), by decide +kernel, by decide +kernel, uncached_at _ _ rfl rfl (by decide +kernel), by decide +kernel,
    ok_of _ _ _ (by decide +kernel), uncached_at _ _ rfl rfl (by decide +kernel), by decide +kernel, by unfold otherLine; decide +kernel⟩,
    ⟨by decide +kernel, fun _ => rfl, by decide +kernel⟩, by decide +kernel, by decide +kernel⟩

/-- A work request of opcode op in slot 1. -/
def wr0 (op : Nat) (fields : List (Nat × Nat)) : Wr :=
  { slot := 1, desc := (cmd0 op fields).desc, started := false, left := 0, got := 0, tries := 0, old := 0, status := none, rnr := 0,
    again := false, num := 0 }

/-- The explicit pair with that work request. -/
def wrS (w : Wr) : State := expS fun q => { q with wrs := [w] }

theorem read_of (w : VirtOut) (bs : List Byte) (s : State)
    (h : (match w with | .ok a t => decide (a = bs) && decide (t = { s with xlt := t.xlt }) | _ => false) = true) :
    ∃ t, w = .ok bs t ∧ t = { s with xlt := t.xlt } := by
  split at h
  · simp only [Bool.and_eq_true, decide_eq_true_eq] at h
    exact ⟨_, by rw [h.1], h.2⟩
  · cases h

theorem witness_NetSends :
    let f := fun op => wr0 op [(64, 0x2000), (128, 0x8F00), (192, 4), (224, 0xABCD)]
    let nt := wr0 2 [(64, 0x2000), (128, 0x8F00)]
    let starts : Nat → Wr → Prop := fun op w => wrStarts (wrS w) 70000 cfg0 w op
    let reads : Wr → Prop := fun w => ∃ t, State.virtRead (wrWant 70000 w.slot cfg0.pasid w.tries) (pagesOf 0x2000 4) [] (wrS w) = .ok [0, 0, 0, 0] t ∧
      t = { wrS w with xlt := t.xlt }
    let again := { f 4 with again := true, started := true }
    let out := fun e => ifcUp (expS fun q => { q with expiries := e, snext := 1, sent := [sent0 0 0 .reply] })
    let ack : AckFor := { ifc := 3, srcIfc := 1, path := 2, ts := 0, at' := 0 }
    let s := expS id
    (netMute s ∧ collIdle s) ∧ (starts 1 (f 1) ∧ reads (f 1)) ∧ (starts 2 (f 2) ∧ reads (f 2)) ∧ starts 2 nt ∧ starts 3 (f 3) ∧
    (starts 4 (f 4) ∧ reads (f 4)) ∧ starts 5 (f 5) ∧ starts 6 (f 6) ∧
    ((ifcUp (wrS (f 6))).pathUp 70000 0 = true ∧ 1 ≤ (ifcUp (wrS (f 6))).pathsOf 70000 ∧ wrStarts (ifcUp (wrS (f 6))) 70000 cfg0 (f 6) 6) ∧
    (writeTaken s 13 0x400030 ∧ (s.qp 70000).cfg = some cfg0 ∧ (s.qp 70000).state = .ready ∧ (s.qp 70000).sci = 0 ∧
      s.tableRead (cfg0.sring.toNat + 64 * 0) 64 = some 0 ∧ bit (BitVec.ofNat 512 0) 7 ≠ (s.qp 70000).sphase ∧
      bit (BitVec.ofNat 512 0) 7 = ((expS fun q => { q with sphase := false }).qp 70000).sphase) ∧ s.qpUsed 70000 = true ∧
    (((expS fun q => { q with ackFor := some ack }).qp 70000).ackFor = some ack ∧ bit s.net.gctl 0 = true) ∧
    (((out 0).qp 70000).sent = [sent0 0 0 .reply] ∧ (∃ j < (out 0).pathsOf 70000, (out 0).pathUp 70000 j = true) ∧ ((out 7).qp 70000).expiries = 7) ∧
    (((wrS again).qp 70000).wrs = [again] ∧ reads again) := by
  unfold wrStarts collIdle writeTaken
  exact ⟨⟨mute0 _ _, by decide +kernel⟩, ⟨by decide +kernel, read_of _ _ _ (by decide +kernel)⟩,
    ⟨by decide +kernel, read_of _ _ _ (by decide +kernel)⟩, by decide +kernel, by decide +kernel,
    ⟨by decide +kernel, read_of _ _ _ (by decide +kernel)⟩, by decide +kernel, by decide +kernel, by decide +kernel,
    ⟨by decide +kernel, by decide +kernel, by decide +kernel, by decide +kernel,
    tableRead_zero _ _ (by decide +kernel) (by decide +kernel) (by decide +kernel) (by decide), by decide +kernel, by decide +kernel⟩,
    by decide +kernel, by decide +kernel, by decide +kernel, ⟨by decide +kernel, read_of _ _ _ (by decide +kernel)⟩⟩

theorem witness_NetControls :
    let s := base id
    let w := (netS 5 fun q => { q with waits := [{ psn := 9, own := .sem 2 3, addr := 0x77, len := 8, got := 0 }] }).setQ 2
      { Queue.init with cmds := [semCmd] }
    (writeTaken s 13 0x400038 ∧ collIdle s ∧ (s.qp 5).sent = [] ∧ (s.qp 5).unsent = [] ∧ (s.qp 5).waits = [] ∧ (s.qp 5).wrs = []) ∧
    (writeTaken w 13 0x400038 ∧ (w.qp 5).state = .active ∧ (w.qp 5).waits.map (fun x => x.own) = [.sem 2 3] ∧ (w.q 2).cmds = [semCmd]) ∧
    writeTaken s 13 0x400000 ∧ (writeTaken s 13 0x410000 ∧ writeTaken s 49 0x419000) ∧ (writeTaken s 13 0x401000 ∧ writeTaken s 13 (0x401000 + 0x20 * 255)) ∧
    (∀ m, (s.box m).busy = false) ∧ ((ifcUp s).ifc 0).up = true ∧
    (s.ifcPresent 0 = true ∧ s.domOn 13 = true ∧ s.regionDust 0 = false ∧ s.dusted (.netPort 0) = false ∧ (s.ifc 0).up = false ∧
      (∀ z ∈ s.net.qp, z.2.unsent = [])) := by
  unfold writeTaken collIdle; decide +kernel

/-! ### Collectives -/

/-- Group 1's entry: two members, listed at 0x9000, one pod whose node is listed at 0x9100, staging at 0x40000, epoch 7. -/
def grp (mcast : Bool) : BitVec 512 :=
  BitVec.ofNat 512 (2 ^ 63 + 2 ^ 61 + b2n mcast * 2 ^ 60 + 2 ^ 32 + 0x9000 * 2 ^ 64 + 0x9100 * 2 ^ 128 + 0x40000 * 2 ^ 192 + 16 * 2 ^ 256 + 7 * 2 ^ 288)

/-- A state with that entry: the members are the devices 7 and 5, the node is device 0. -/
def grpS (mcast : Bool) : State :=
  let s := netS 5 id
  { s with stk := { s.stk with mem :=
    ((s.stk.mem.write 64 (leBytes 64 (grp mcast).toNat)).write 0x9000 [7, 0, 5, 0]).write 0x9100 [0xFF, 0xFF, 0, 0] } }

/-- On the device of a number, engine 0 with changed content and queue 0 with a command. -/
def engS (mcast : Bool) (dev : W16) (c : Cmd) (f : CollEngine → CollEngine) : State :=
  let s := grpS mcast
  let u := ({ s with xlt := { s.xlt with devnum := dev } } : State).setQ 0
    { Queue.init with state := .running, ring := 0x10000, cpl := 0x20000, cmds := [c] }
  u.setCeng 0 (f (u.ceng 0))

theorem cohRead_line (s : State) (a n : Nat) (v : Line) (h : s.lineNow (lineFor false a) = (v, 0)) (h4 : a % 256 + n ≤ 256) :
    s.cohRead false a n = (List.range n).map (fun k => lineByte v ((a + k) % 256)) ∧ s.cohBad false a n = false := by
  have hl : ∀ k, k < n → lineFor false (a + k) = lineFor false a := fun k hk => by
    unfold lineFor; rw [show (a + k) / 256 = a / 256 by omega]
  constructor
  · unfold State.cohRead
    refine List.map_congr_left fun k hk => ?_
    rw [hl k (List.mem_range.mp hk), h]
  · unfold State.cohBad
    refine List.any_eq_false.mpr fun k hk => ?_
    rw [hl k (List.mem_range.mp hk), h]
    simp

theorem line_eng (mcast : Bool) (dev : W16) (c : Cmd) (f : CollEngine → CollEngine) (l : LineId) :
    (engS mcast dev c f).lineNow l = (grpS mcast).lineNow l := rfl

theorem grp_lines (mcast : Bool) :
    (grpS mcast).lineNow (lineFor false 64) = ((grp mcast).setWidth 2048 <<< 512, 0) ∧
    (grpS mcast).lineNow (lineFor false 0x9000) = (0x50007, 0) ∧ (grpS mcast).lineNow (lineFor false 0x9100) = (0xFFFF, 0) := by
  cases mcast <;> decide +kernel

/-- What the collective engines read of group 1. -/
def groupKnown (s : State) (mcast : Bool) : Prop :=
  s.groupEntry 1 = some (grp mcast) ∧ s.gMember (grp mcast) 0 = 7 ∧ s.gMember (grp mcast) 1 = 5 ∧ s.gNode (grp mcast) 1 = 0

theorem group_lines (s : State) (mcast : Bool)
    (hp : (s.place 64).isNone = false ∧ s.deadDev 64 = none ∧ bits (s.ceng ((s.nextRegion 0).getD 0)).gtab 45 12 * 4096 + 64 * 1 = 64)
    (h : s.lineNow (lineFor false 64) = ((grp mcast).setWidth 2048 <<< 512, 0) ∧ s.lineNow (lineFor false 0x9000) = (0x50007, 0) ∧
      s.lineNow (lineFor false 0x9100) = (0xFFFF, 0)) : groupKnown s mcast := by
  have hd : bits (grp mcast) 127 64 = 0x9000 ∧ bits (grp mcast) 191 128 = 0x9100 := by cases mcast <;> decide +kernel
  have h2 : lineFor false (0x9000 + 2 * 1) = lineFor false 0x9000 ∧ lineFor false (0x9100 + 2 * 1) = lineFor false 0x9100 := by decide
  refine ⟨?_, ?_, ?_, ?_⟩
  · unfold State.groupEntry
    rw [hp.2.2]
    dsimp only
    unfold State.tableRead
    rw [hp.1, hp.2.1, (cohRead_line s 64 64 _ h.1 (by decide)).1, (cohRead_line s 64 64 _ h.1 (by decide)).2]
    cases mcast <;> decide +kernel
  · unfold State.gMember State.devList
    rw [hd.1, (cohRead_line s _ 2 _ h.2.1 (by decide)).1]
    decide +kernel
  · unfold State.gMember State.devList
    rw [hd.1, (cohRead_line s _ 2 _ (h2.1 ▸ h.2.1) (by decide)).1]
    decide +kernel
  · unfold State.gNode State.devList
    rw [hd.2, (cohRead_line s _ 2 _ (h2.2 ▸ h.2.2) (by decide)).1]
    decide +kernel

theorem group_of (mcast : Bool) (dev : W16) (c : Cmd) (f : CollEngine → CollEngine)
    (hp : ((engS mcast dev c f).place 64).isNone = false ∧ (engS mcast dev c f).deadDev 64 = none ∧
      bits ((engS mcast dev c f).ceng (((engS mcast dev c f).nextRegion 0).getD 0)).gtab 45 12 * 4096 + 64 * 1 = 64) :
    groupKnown (engS mcast dev c f) mcast := by
  refine group_lines _ _ hp ?_
  rw [line_eng, line_eng, line_eng]
  exact grp_lines mcast

theorem gMembers_of (s : State) (mcast : Bool) (h : groupKnown s mcast) : s.gMembers (grp mcast) = [7, 5] := by
  unfold State.gMembers
  rw [show groupN (grp mcast) = 2 by cases mcast <;> decide +kernel]
  show [s.gMember (grp mcast) 0, s.gMember (grp mcast) 1] = _
  rw [h.2.1, h.2.2.1]

theorem pods_of (s : State) (mcast : Bool) (h : groupKnown s mcast) :
    s.gPods (grp mcast) = [0] ∧ s.gMulti (grp mcast) = false ∧ s.podPos (grp mcast) 0 = 1 := by
  have hp : s.gPods (grp mcast) = [0] := by
    unfold State.gPods
    rw [gMembers_of s mcast h]; decide
  refine ⟨hp, ?_, ?_⟩
  · unfold State.gMulti; rw [hp]; rfl
  · unfold State.podPos; rw [hp]; rfl

theorem kids_of (s : State) (mcast : Bool) (h : groupKnown s mcast) : s.kids (grp mcast) 1 = [0, 1] := by
  unfold State.kids State.podMembers State.podPos
  rw [(pods_of s mcast h).1, show groupN (grp mcast) = 2 by cases mcast <;> decide +kernel]
  show (if 1 = 0 then _ else [0, 1].filter _) = [0, 1]
  rw [if_neg (by decide), List.filter_cons, List.filter_cons, h.2.1, h.2.2.1]
  rfl

/-- A COLL descriptor of count elements in FP32, a sum over group 1 with the receive buffer at 0x60000. -/
def coll0 (n : Nat) : Cmd := cmd0 3 [(128, 0x50000), (192, 0x60000), (256, n), (320, 1)]

/-- A node's collective of group 1. -/
def node0 (d : Option (BitVec 512)) : NodeColl :=
  { group := 1, seq := 0, role := 1, digest := 0, claimed := [0, 1], waiting := [], granted := true, answer := none, slots := 3, chunksDone := 0,
    failed := false, timedOut := false, desc := d }

/-- A slot with child 0's contribution to chunk 0. -/
def slot0 (up : Bool) (owed : List Nat) : Slot :=
  { group := 1, seq := 0, role := 1, chunk := 0, parts := [{ child := 0, at' := 0, bytes := leBytes 4 0x40000000, last := true }], up := false,
    bytes := [], result := up, owed := owed, asks := [] }

/-- A member's collective of queue 0. -/
def member0 (got : List Nat) (sent : Nat) : MemberColl :=
  { q := 0, slot := 0, group := 1, seq := 0, digest := 0, way := .tree, sent := sent, got := got, parts := [], step := 0, asked := [], peers := [],
    owe := 0, loaded := false, acc := [], poisonAt := none }

/-- A packet to collective space of group 1. -/
def collPkt (kind low aux : Nat) (bs : List Byte) : Pkt := pkt0 5 (3 * 2 ^ 44 + 2 ^ 32 + kind * 2 ^ 28 + low) aux bs

theorem mute_of (s : State) (h : s.net.ifc = []) : netMute s := by
  intro i
  simp [State.ifcServes, State.ifc, h, Tab.get, Ifc.init]

theorem podNode_of (s : State) (mcast : Bool) (p : Pkt) (h : groupKnown s mcast) (hs : s.collEngine (grp mcast) = some 0 ∧ s.xlt.devnum = 0)
    (hp : p.srcDev = 5) : podNode s 1 (grp mcast) 0 p := by
  refine ⟨h.1, hs.1, (pods_of s mcast h).2.1, ?_, by cases mcast <;> decide +kernel, ?_, ?_, ?_⟩
  · rw [hp]; exact (pods_of s mcast h).2.2
  · rw [h.2.2.2, hs.2]
  · rw [gMembers_of s mcast h, hp]; simp
  · rw [hp, hs.2]; decide

theorem wf_coll (s : State) (mcast : Bool) (h : s.groupEntry 1 = some (grp mcast)) :
    s.malformed (coll0 4).desc = none ∧ s.malformed (coll0 0).desc = none := by
  have h4 : dfield (coll0 4).desc 40 2 = 1 := by decide +kernel
  have h0 : dfield (coll0 0).desc 40 2 = 1 := by decide +kernel
  unfold State.malformed State.fieldsBad State.collBad
  rw [h4, h0, h]
  cases mcast <;> decide +kernel

/-- Engine 4 and the others are under a dust sheet. -/
def noColl (s : State) : State := { s with flt := { s.flt with dust := (List.range 5).map (fun k => .collective (Fin.ofNat 5 k)) } }

theorem line_noColl (s : State) (l : LineId) (h : s.flt.dust = []) : (noColl s).lineNow l = s.lineNow l := by
  have hb : ∀ b, (noColl s).blockDust b = s.blockDust b := fun b => by
    unfold State.blockDust State.regionDust noColl; rw [h]; rfl
  have hh : (noColl s).homeLine l = s.homeLine l := by
    have : (noColl s).home l = s.home l := by
      have hr : ∀ r, (noColl s).regionDust r = s.regionDust r := fun r => by unfold State.regionDust noColl; rw [h]; rfl
      have hn : ∀ r, (noColl s).nextRegion r = s.nextRegion r := fun r => by
        unfold State.nextRegion; rw [funext hr]
      unfold State.home
      rw [funext hn]
      rfl
    unfold State.homeLine
    rw [this]
    rfl
  unfold State.lineNow
  rw [hh]
  show List.foldl _ _ _ = List.foldl _ _ _
  simp only [hb]
  rfl

theorem witness_Collectives_coll :
    let s := engS false 7 (coll0 4) id
    let z := engS false 7 (coll0 0) id
    (Starts s 0 0 3 (coll0 4) ∧ groupKnown s false ∧ s.collEngine (grp false) = some 0 ∧ cCount (coll0 4).desc ≠ 0 ∧ gNodeKind (grp false) ≠ 0 ∧
      cOp (coll0 4).desc ≠ 5 ∧ collIdle s ∧ (∀ k, (s.ceng k).nodes = []) ∧ netMute s ∧ s.podPos (grp false) 0 = 1 ∧ podOf s.xlt.devnum = 0 ∧
      s.gNode (grp false) 1 = 0 ∧ s.xlt.devnum = 7 ∧ (s.qp 0).unsent = []) ∧
    (Starts z 0 0 3 (coll0 0) ∧ z.groupEntry 1 = some (grp false) ∧ cCount (coll0 0).desc = 0) ∧
    (Starts (noColl s) 0 0 3 (coll0 4) ∧ (noColl s).groupEntry 1 = some (grp false) ∧ (noColl s).collEngine (grp false) = none) := by
  have h : groupKnown (engS false 7 (coll0 4) id) false := group_of _ _ _ _ (by decide +kernel)
  have hz : groupKnown (engS false 7 (coll0 0) id) false := group_of _ _ _ _ (by decide +kernel)
  have hn : groupKnown (noColl (engS false 7 (coll0 4) id)) false := by
    refine group_lines _ _ (by decide +kernel) ?_
    rw [line_noColl _ _ rfl, line_noColl _ _ rfl, line_noColl _ _ rfl, line_eng, line_eng, line_eng]
    exact grp_lines false
  unfold Starts collIdle
  exact ⟨⟨⟨by decide +kernel, by decide +kernel, by decide +kernel, by decide +kernel, by decide +kernel, (wf_coll _ _ h.1).1⟩, h, by decide +kernel, by decide +kernel, by decide +kernel, by decide +kernel, by decide +kernel,
      fun k => rfl, mute_of _ rfl, (pods_of _ _ h).2.2, by decide +kernel, h.2.2.2, by decide +kernel, by decide +kernel⟩,
    ⟨⟨by decide +kernel, by decide +kernel, by decide +kernel, by decide +kernel, by decide +kernel, (wf_coll _ _ hz.1).2⟩, hz.1, by decide +kernel⟩,
    ⟨⟨by decide +kernel, by decide +kernel, by decide +kernel, by decide +kernel, by decide +kernel, (wf_coll _ _ hn.1).1⟩, hn.1, by decide +kernel⟩⟩

theorem witness_Collectives_nodes :
    let claim := collPkt 0 0 16 (leBytes 8 (2 ^ 32 + 0x1234) ++ leBytes 8 (7 * 2 ^ 48 + 3))
    let part := collPkt 1 0 1 (leBytes 4 0x3F800000)
    let done := collPkt 3 0 16 (leBytes 8 (2 ^ 32) ++ leBytes 8 0)
    let s := engS false 0 (coll0 1)
    let d := some (coll0 1).desc
    let u := s (fun x => { x with nodes := [node0 none] })
    let v := s (fun x => { x with nodes := [node0 d], slots := [slot0 false []] })
    let w := s (fun x => { x with nodes := [node0 d], slots := [slot0 true [1]] })
    let hears : State → Pkt → Prop := fun u p => nextPacket u p ∧ netMute u ∧ (u.qp 5).cfg = none ∧ collIdle u ∧ podNode u 1 (grp false) 0 p
    (hears (s id) claim ∧ toColl claim 1 0 ∧ ((s id).ceng 0).nodes = [] ∧ bit ((s id).ceng 0).ctl 0 = true ∧
      bit ((s (fun x => { x with ctl := 0x80 })).ceng 0).ctl 0 = false) ∧
    (hears u part ∧ toColl part 1 1 ∧ (u.ceng 0).nodes = [node0 none] ∧ (u.ceng 0).slots = [] ∧ chunkFrom 0 0 ≤ 3 ∧ u.kids (grp false) 1 = [0, 1]) ∧
    (hears v part ∧ (v.ceng 0).nodes = [node0 d] ∧ (v.ceng 0).slots = [slot0 false []] ∧ v.kids (grp false) 1 = [0, 1] ∧
      v.gMember (grp false) 0 = 7 ∧ v.gMember (grp false) 1 = 5 ∧ v.xlt.devnum = 0 ∧ cOp (coll0 1).desc = 0 ∧ cWf (coll0 1).desc ≤ 4 ∧
      cElems (coll0 1).desc (groupN (grp false)) 0 = 1 ∧ fmtW (cWf (coll0 1).desc) / 8 = 4) ∧
    (hears w done ∧ toColl done 1 3 ∧ (w.ceng 0).slots = [slot0 true [1]] ∧ cChunks (coll0 1).desc (groupN (grp false)) ≤ 1) := by
  have k : ∀ f, ((engS false 0 (coll0 1) f).place 64).isNone = false ∧ (engS false 0 (coll0 1) f).deadDev 64 = none ∧
      bits ((engS false 0 (coll0 1) f).ceng (((engS false 0 (coll0 1) f).nextRegion 0).getD 0)).gtab 45 12 * 4096 + 64 * 1 = 64 →
      groupKnown (engS false 0 (coll0 1) f) false := fun f => group_of _ _ _ _
  have hi := k id (by decide +kernel)
  have hu := k (fun x => { x with nodes := [node0 none] }) (by decide +kernel)
  have hv := k (fun x => { x with nodes := [node0 (some (coll0 1).desc)], slots := [slot0 false []] }) (by decide +kernel)
  have hw := k (fun x => { x with nodes := [node0 (some (coll0 1).desc)], slots := [slot0 true [1]] }) (by decide +kernel)
  unfold collIdle toColl
  exact ⟨⟨⟨next_of _ _ rfl (by decide +kernel), mute_of _ rfl, by decide +kernel, by decide +kernel, podNode_of _ _ _ hi (by decide +kernel) rfl⟩, by decide +kernel,
      by decide +kernel, by decide +kernel, by decide +kernel⟩,
    ⟨⟨next_of _ _ rfl (by decide +kernel), mute_of _ rfl, by decide +kernel, by decide +kernel, podNode_of _ _ _ hu (by decide +kernel) rfl⟩, by decide +kernel,
      by decide +kernel, by decide +kernel, by decide +kernel, kids_of _ _ hu⟩,
    ⟨⟨next_of _ _ rfl (by decide +kernel), mute_of _ rfl, by decide +kernel, by decide +kernel, podNode_of _ _ _ hv (by decide +kernel) rfl⟩, by decide +kernel,
      by decide +kernel, kids_of _ _ hv, hv.2.1, hv.2.2.1, by decide +kernel, by decide +kernel, by decide +kernel,
      by decide +kernel, by decide +kernel⟩,
    ⟨⟨next_of _ _ rfl (by decide +kernel), mute_of _ rfl, by decide +kernel, by decide +kernel, podNode_of _ _ _ hw (by decide +kernel) rfl⟩, by decide +kernel,
      by decide +kernel, by decide +kernel⟩⟩

theorem witness_Collectives_members :
    let stage := collPkt 4 8 3 (leBytes 8 2)
    let res := collPkt 2 0 0 (leBytes 8 0x12345)
    let c := { coll0 2 with stat := .running }
    let u := engS false 7 c (fun x => { x with members := [member0 [] 1] })
    let v := engS true 7 c (fun x => { x with members := [member0 [] 1] })
    let n := engS false 0 c (fun x => { x with nodes := [node0 none] })
    (nextPacket n stage ∧ toColl stage 1 4 ∧ collIdle n ∧ groupKnown n false ∧ n.gMembers (grp false) = [7, 5] ∧
      n.collEngine (grp false) = some 0 ∧ (n.ceng 0).stages = [] ∧ 8 + 8 ≤ bits (grp false) 287 256 * 4096 ∧ uncached n (bits (grp false) 255 192 + 8)) ∧
    (nextPacket u res ∧ toColl res 1 2 ∧ groupKnown u false ∧ u.gMulti (grp false) = false ∧ u.gMembers (grp false) = [7, 5] ∧
      oneMember u 0 (member0 [] 1) c ∧ cOp c.desc = 0 ∧ cChunks c.desc (groupN (grp false)) = 1 ∧
      resultBytes c.desc (groupN (grp false)) 0 = 8 ∧ cOverlap c.desc (groupN (grp false)) = false ∧
      (∃ t, State.translate (arrived u res) { collWant 0 0 (u.q 0).pasid c.tries with va := cRbuf c.desc, write := true } = .ok (.dev 0x60000) t ∧
        t = { arrived u res with xlt := t.xlt }) ∧ uncached u 0x60000 ∧ (u.ceng 0).nodes = []) ∧
    ((n.ceng 0).members = [] ∧ (n.ceng 0).nodes = [node0 none]) ∧
    (oneMember v 0 (member0 [] 1) c ∧ groupKnown v true ∧ v.podPos (grp true) 0 = 1 ∧ gMcast (grp true) = true ∧
      cChunks c.desc (groupN (grp true)) = 1 ∧ netMute v ∧ v.xlt.devnum = 7 ∧ (v.qp 0).unsent = []) := by
  have hu : groupKnown (engS false 7 { coll0 2 with stat := .running } (fun x => { x with members := [member0 [] 1] })) false :=
    group_of _ _ _ _ (by decide +kernel)
  have hv : groupKnown (engS true 7 { coll0 2 with stat := .running } (fun x => { x with members := [member0 [] 1] })) true :=
    group_of _ _ _ _ (by decide +kernel)
  have hn : groupKnown (engS false 0 { coll0 2 with stat := .running } (fun x => { x with nodes := [node0 none] })) false :=
    group_of _ _ _ _ (by decide +kernel)
  unfold toColl oneMember collIdle
  exact ⟨⟨next_of _ _ rfl (by decide +kernel), by decide +kernel, by decide +kernel, hn, gMembers_of _ _ hn, by decide +kernel, by decide +kernel, by decide +kernel,
      uncached_at _ _ rfl rfl (by decide +kernel)⟩,
    ⟨next_of _ _ rfl (by decide +kernel), by decide +kernel, hu, (pods_of _ _ hu).2.1, gMembers_of _ _ hu, by decide +kernel, by decide +kernel,
      by decide +kernel, by decide +kernel, by decide +kernel, ok_of _ _ _ (by decide +kernel), uncached_at _ _ rfl rfl (by decide +kernel),
      by decide +kernel⟩, by decide +kernel,
    ⟨by decide +kernel, hv, (pods_of _ _ hv).2.2, by decide +kernel, by decide +kernel, mute_of _ rfl, by decide +kernel, by decide +kernel⟩⟩

/-! ### Skim lanes and received frames -/

theorem plain_line (s : State) (l : LineId) (hb : s.coh.bc = []) (hr : s.coh.rc = []) :
    s.lineNow l = ((s.backing l.host).line l.line.toNat, (s.backing l.host).lineBad l.line.toNat) := by
  have ho : s.owners l = [] := by
    unfold State.owners State.bline State.bc
    rw [hb]
    exact List.filter_eq_nil_iff.mpr (fun b _ => by simp [Tab.get, BCache.init])
  have hl : ∀ r, s.rline r l = none := fun r => by unfold State.rline State.rc; rw [hr]; rfl
  unfold State.lineNow State.homeLine
  rw [ho]
  cases s.home l with
  | none => rfl
  | some r => simp only [hl]; rfl

theorem plain_read (s : State) (a n : Nat) (hb : s.coh.bc = []) (hr : s.coh.rc = []) (ha : a + n ≤ 2 ^ 46) :
    s.cohRead false a n = (List.range n).map (fun k => s.stk.mem.get (a + k)) := by
  unfold State.cohRead
  refine List.map_congr_left fun k hk => ?_
  have hk := List.mem_range.mp hk
  have hn : (lineFor false (a + k)).line.toNat = (a + k) / 256 := by
    unfold lineFor
    rw [BitVec.toNat_ofNat]
    exact Nat.mod_eq_of_lt (by omega)
  rw [plain_line s _ hb hr, hn]
  have hm := Memory.lineByte_line s.stk.mem ((a + k) / 256) ((a + k) % 256) (by omega)
  have hk2 : s.backing (lineFor false (a + k)).host = s.stk.mem := rfl
  rw [hk2]
  dsimp only
  rw [hm, show (a + k) / 256 * 256 + (a + k) % 256 = a + k by omega]

theorem plain_bad (s : State) (a n : Nat) (hb : s.coh.bc = []) (hr : s.coh.rc = []) (hp : s.stk.mem.pois = []) : s.cohBad false a n = false := by
  unfold State.cohBad
  refine List.any_eq_false.mpr fun k _ => ?_
  have h0 : (s.backing false).lineBad (lineFor false (a + k)).line.toNat = 0 := by
    unfold Memory.lineBad Memory.bad
    show BitVec.ofNat 4 (List.foldl (fun a j => if Tab.get false s.stk.mem.pois _ = true then _ else a) 0 (List.range 4)) = 0
    rw [hp]; rfl
  rw [plain_line s _ hb hr]
  show ¬ ((s.backing false).lineBad (lineFor false (a + k)).line.toNat).getLsbD _ = true
  rw [h0]; simp

theorem get_lcbFold (bs : List Byte) (i : Nat) (t : Tab Byte) (k : Nat) :
    Tab.get 0 ((bs.zipIdx i).foldl (fun a x => Tab.set 0 a x.2 x.1) t) k = if i ≤ k ∧ k < i + bs.length then bs.getD (k - i) 0 else Tab.get 0 t k := by
  induction bs generalizing i t with
  | nil => rw [if_neg (by simp)]; rfl
  | cons b bs ih =>
    rw [List.zipIdx_cons, List.foldl_cons, ih, List.length_cons, Tab.get_set]
    by_cases h : i + 1 ≤ k ∧ k < i + 1 + bs.length
    · rw [if_pos h, if_pos (by omega), show k - i = (k - (i + 1)) + 1 by omega]; rfl
    · rw [if_neg h]
      by_cases hk : k = i
      · subst hk; rw [if_pos rfl, if_pos (by omega), Nat.sub_self]; rfl
      · rw [if_neg hk, if_neg (by omega)]

theorem lcbFold_form (bs : List Byte) (i : Nat) (t : Tab Byte) (h : Tab.rising t = true ∧ ∀ c ∈ t, c.2 ≠ 0) :
    Tab.rising ((bs.zipIdx i).foldl (fun a x => Tab.set 0 a x.2 x.1) t) = true ∧
    ∀ c ∈ (bs.zipIdx i).foldl (fun a x => Tab.set 0 a x.2 x.1) t, c.2 ≠ 0 := by
  induction bs generalizing i t with
  | nil => exact h
  | cons b bs ih =>
    rw [List.zipIdx_cons, List.foldl_cons]
    refine ih _ _ ⟨Tab.set_rising 0 t i b h.1, fun c hc => ?_⟩
    rcases Tab.mem_set 0 t i b c hc with ⟨rfl, hb⟩ | hc
    · exact hb
    · exact h.2 c hc

theorem get_shift (d : Byte) (l : Tab Byte) (a k : Nat) : Tab.get d (l.map (fun c => (a + c.1, c.2))) (a + k) = Tab.get d l k := by
  induction l with
  | nil => rfl
  | cons c l ih =>
    show (if a + c.1 = a + k then c.2 else Tab.get d (l.map _) (a + k)) = if c.1 = k then c.2 else Tab.get d l k
    rw [ih]
    by_cases h : c.1 = k
    · rw [if_pos h, if_pos (by omega)]
    · rw [if_neg h, if_neg (by omega)]

theorem get_past (l : Tab Byte) (n k : Nat) (h : ∀ c ∈ l, c.1 < n) (hk : n ≤ k) : Tab.get 0 l k = 0 := by
  induction l with
  | nil => rfl
  | cons c l ih =>
    show (if c.1 = k then c.2 else Tab.get 0 l k) = 0
    rw [if_neg (by have := h c (List.mem_cons_self ..); omega)]
    exact ih (fun x hx => h x (List.mem_cons_of_mem _ hx))

theorem lcbOf_eq (bs : List Byte) (l : Tab Byte) (hl : Tab.rising l = true ∧ ∀ c ∈ l, c.2 ≠ 0)
    (h : ∀ k, (if k < bs.length then bs.getD k 0 else 0) = Tab.get 0 l k) : lcbOf bs = l := by
  have hf := lcbFold_form bs 0 [] ⟨rfl, by simp⟩
  refine Tab.ext_get 0 _ _ hf.1 hl.1 hf.2 hl.2 (fun k => ?_)
  rw [← h]
  refine (get_lcbFold bs 0 [] k).trans ?_
  by_cases hk : k < bs.length
  · rw [if_pos (by omega), if_pos hk, Nat.sub_zero]
  · rw [if_neg (by omega), if_neg hk]; rfl

/-- A configuration block that stands in device memory, which no cache holds, reads as it stands. -/
theorem readLcb_plain (s : State) (a : Nat) (l : Tab Byte) (hb : s.coh.bc = []) (hr : s.coh.rc = []) (ha : a + lcbSize ≤ 2 ^ 46)
    (hm : s.stk.mem.era = 0 ∧ s.stk.mem.pois = [] ∧ s.stk.mem.cells = l.map (fun c => (a + c.1, c.2)))
    (hl : Tab.rising l = true ∧ (∀ c ∈ l, c.2 ≠ 0) ∧ ∀ c ∈ l, c.1 < lcbSize)
    (hp : (List.range (lcbSize / 1024)).any (fun k => (s.place (a + 1024 * k)).isNone || (s.deadDev (a + 1024 * k)).isSome) = false) :
    s.readLcb a = some l := by
  unfold State.readLcb
  rw [hp, plain_bad s a _ hb hr hm.2.1, plain_read s a _ hb hr ha]
  have hget : ∀ k, s.stk.mem.get (a + k) = Tab.get 0 l k := fun k => by
    unfold Memory.get Memory.blank
    rw [hm.1, hm.2.2, if_pos rfl, get_shift]
  rw [lcbOf_eq _ l ⟨hl.1, hl.2.1⟩ (fun k => ?_)]
  · rfl
  rw [List.length_map, List.length_range]
  split
  · rename_i h
    rw [List.getD_eq_getElem?_getD, List.getElem?_map, List.getElem?_range h]
    exact hget k
  · exact (get_past l lcbSize k hl.2.2 (by omega)).symm

/-- A small configuration block: 16 cycles, one VMOV of one row, block 0, one cell, a rule that takes every frame of interface 0, one feature,
a template of 64 bytes, NOANS, a ring of 16 records at 0x30000. -/
def lcb0 : Tab Byte :=
  [(0, 16), (2, 1), (4, 4), (6, 1), (7, 1), (24, 1), (26, 64), (56, 4), (58, 3), (0x440, 1), (0x1008, 0xC1), (0x1009, 0x34)]

/-- A SKIM_ARM of lane 2 of an action, whose configuration block is at an address. -/
def skim0 (a at' : Nat) : Cmd := cmd0 10 [(128, 2), (144, a), (192, at')]

/-- A state with that block at 0x40000, a command in queue 0, and lane 2 changed. -/
def skimS (c : Cmd) (f : Lane → Lane) : State :=
  let s := oneS c
  ({ s with stk := { s.stk with mem := { s.stk.mem with cells := lcb0.map (fun x => (0x40000 + x.1, x.2)) } } } : State).setLane 2
    (f { Lane.init with lcb := lcb0, qlcb := lcb0 })

theorem readLcb_skimS (c : Cmd) (f : Lane → Lane) : (skimS c f).readLcb 0x40000 = some lcb0 := by
  refine readLcb_plain _ _ _ rfl rfl (by decide) ⟨rfl, rfl, rfl⟩ ⟨by decide, by decide, by decide⟩ ?_
  have h : (List.range (lcbSize / 1024)).any (fun k => ((base id).place (0x40000 + 1024 * k)).isNone ||
      ((base id).deadDev (0x40000 + 1024 * k)).isSome) = false := by decide +kernel
  exact h

theorem readLcb_none (c : Cmd) (f : Lane → Lane) : (skimS c f).readLcb (2 ^ 45) = none := by
  have h : ((base id).place (2 ^ 45 + 1024 * 0)).isNone = true := by decide +kernel
  have h2 : (skimS c f).place (2 ^ 45 + 1024 * 0) = (base id).place (2 ^ 45 + 1024 * 0) := rfl
  unfold State.readLcb
  rw [if_pos]
  simp only [Bool.or_eq_true, List.any_eq_true]
  exact .inl ⟨0, by decide, .inl (h2 ▸ h)⟩

theorem witness_SkimArming :
    let off := skimS (skim0 0 0x40000) id
    let taken := off.setBlk 0 { off.blk 0 with reserved := some 5 }
    let at' := fun a st => skimS (skim0 a 0x40000) (fun x => { x with state := st })
    let run := fun a => { skim0 a 0x40000 with stat := .running }
    let inS := fun s : State => s.setBlk 0 { s.blk 0 with state := .skim, reserved := some 2 }
    let arming := inS (skimS (run 0) (fun x => { x with state := .arming, newLcb := lcb0, arm := some (0, 0) }))
    let repl := skimS (run 2) (fun x => { x with state := .replacing, newLcb := lcb0, arm := some (0, 0), inSvc := [(false, 0)] })
    let dis := inS (skimS (run 1) (fun x => { x with state := .disarming, arm := some (0, 0), inSvc := [(false, 0)] }))
    let rel := skimS (run 1) (fun x => { x with reload := [0] })
    (Starts off 0 0 10 (skim0 0 0x40000) ∧ dfield (skim0 0 0x40000).desc 18 1 = 0 ∧ dfield (skim0 0 0x40000).desc 16 2 = 2 ∧
      dfield (skim0 0 0x40000).desc 24 8 = 0x40000 ∧ off.skimServes = true ∧ (off.lane 2).state = .disarmed ∧
      off.readLcb 0x40000 = some lcb0 ∧ lowestBad (off.blockChecks lcb0 ++ off.lcbChecks lcb0 0) = none ∧ lAllBlocks lcb0 = [(false, 0)]) ∧
    (Starts taken 0 0 10 (skim0 0 0x40000) ∧ taken.readLcb 0x40000 = some lcb0 ∧
      lowestBad (taken.blockChecks lcb0 ++ taken.lcbChecks lcb0 0) = some 8) ∧
    (Starts (skimS (skim0 0 (2 ^ 45)) id) 0 0 10 (skim0 0 (2 ^ 45)) ∧ (skimS (skim0 0 (2 ^ 45)) id).readLcb (2 ^ 45) = none) ∧
    (Starts (at' 1 .armed) 0 0 10 (skim0 1 0x40000) ∧ dfield (skim0 1 0x40000).desc 18 1 = 1 ∧ ((at' 1 .armed).lane 2).state = .armed ∧
      ((at' 1 .disarmed).lane 2).state = .disarmed ∧ ((at' 1 .arming).lane 2).state = .arming) ∧
    (Starts (at' 2 .armed) 0 0 10 (skim0 2 0x40000) ∧ dfield (skim0 2 0x40000).desc 18 1 = 2 ∧ (at' 2 .armed).skimServes = true ∧
      (at' 2 .armed).readLcb 0x40000 = some lcb0 ∧ ((at' 2 .armed).lane 2).lcb = lcb0 ∧
      lowestBad (replaceChecks lcb0 lcb0 ++ (at' 2 .armed).lcbChecks lcb0 2) = none) ∧
    ((arming.lane 2).arm = some (0, 0) ∧ (arming.q 0).cmds = [run 0] ∧ (arming.lane 2).state = .arming ∧ (arming.lane 2).newLcb = lcb0 ∧
      (arming.blk 0).reserved = some 2 ∧ (arming.blk 0).state = .skim ∧ (arming.blk 0).task = none ∧ lPair lcb0 = 0 ∧ lcbN lcb0 40 4 ≤ 2 ^ 21) ∧
    ((repl.lane 2).state = .replacing ∧ (repl.lane 2).side = 0 ∧ (repl.lane 2).newLcb = lcb0 ∧ (repl.lane 2).inSvc = [(false, 0)] ∧
      (repl.lane 2).pair = 0 ∧ (repl.lane 2).frames = []) ∧
    ((dis.lane 2).state = .disarming ∧ (dis.lane 2).frames = [] ∧ (dis.blk 0).reserved = some 2) ∧
    ((rel.lane 2).reload = [0] ∧ (∀ k < 16, k ≠ 2 → (rel.lane k).reload = [])) ∧ writeTaken off 4 0x510008 := by
  refine ⟨⟨by unfold Starts; decide +kernel, by decide +kernel, by decide +kernel, by decide +kernel, by decide +kernel, by decide +kernel,
      readLcb_skimS _ _, by decide +kernel, by decide +kernel⟩,
    ⟨by unfold Starts; decide +kernel, readLcb_plain _ _ _ rfl rfl (by decide) ⟨rfl, rfl, rfl⟩ ⟨by decide, by decide, by decide⟩
      (by decide +kernel), by decide +kernel⟩, ⟨by unfold Starts; decide +kernel, readLcb_none _ _⟩,
    ⟨by unfold Starts; decide +kernel, by decide +kernel, by decide +kernel, by decide +kernel, by decide +kernel⟩,
    ⟨by unfold Starts; decide +kernel, by decide +kernel, by decide +kernel, readLcb_skimS _ _, by decide +kernel, by decide +kernel⟩,
    by decide +kernel, by decide +kernel, by decide +kernel, by decide +kernel, by unfold writeTaken; decide +kernel⟩

/-- An armed lane 2 that serves interface 0 with block 0, whose cell's first row is written, and may hold a frame. -/
def laneS (f : Lane → Lane) : State :=
  let s := ifcUp (skimS (cmd0 0 []) (fun x => f { x with state := .armed, inSvc := [(false, 0)] }))
  s.setBlk 0 { s.blk 0 with state := .skim, reserved := some 2, cells := [(0, { Cell.init 0 with good := [(0, BitVec.allOnes 32)] })] }

/-- The bytes of a received frame. -/
def bytes0 : List Byte := (List.range 64).map (fun k => BitVec.ofNat 8 (k + 1))

/-- How far block 0's schedule for a frame has come. -/
def run0 (started done valid : Bool) : SideRun := { block := 0, started := started, done := done, valid := valid }

/-- A frame that the lane has accepted. -/
def frame0 (r : SideRun) (due released : Bool) : LaneFrame :=
  { seq := 0, result := List.replicate 32 0, ifc := 0, bytes := bytes0, stamp := 77, since := none, runs := [(false, r)], flags := 0, fcs := none,
    status := 0, due := due, released := released, used := none }

/-- An IPv6 frame with a UMT NOTIFY to UDP port 0x12B7, and its CRC, or another. -/
def umt0 (wrong : BitVec 32) : List Byte :=
  let head : List Byte := [0x16, 0xE0] ++ List.replicate 30 0
  List.replicate 12 0 ++ [0x86, 0xDD, 0x60, 0, 0, 0, 0, 44, 17, 0] ++ List.replicate 34 0 ++ [0x12, 0xB7, 0, 44, 0, 0] ++ head ++
    (leBytes 4 ((crc32c head) ^^^ wrong).toNat).reverse

/-- A state whose network engine listens on that port. -/
def netUp : State := let s := ifcUp (base id); { s with net := { s.net with gctl := 0x12B70000000FF001 } }

theorem witness_FramesAndLanes :
    let s := laneS id
    let h := fun r due rel => laneS (fun x => { x with frames := [frame0 r due rel] })
    let g := h (run0 true false true) true false
    (s.ifcServes 0 = true ∧ bytes0.length + 4 ≤ 4352 ∧ s.laneFor 0 bytes0 = some 2 ∧ s.domOn 4 = true ∧ s.skm.halted = false ∧
      lFcsWait (s.lane 2).lcb = false ∧ (s.lane 2).pair = 0 ∧ (s.lane 2).state = .armed ∧ (s.lane 2).freeBlock false = some 0) ∧
    (let n := laneS (fun x => { x with inSvc := [] })
     (n.lane 2).freeBlock false = none ∧ n.laneFor 0 bytes0 = some 2 ∧ lNoans (n.lane 2).lcb = true) ∧
    (netUp.ifcServes 0 = true ∧ netUp.laneFor 0 bytes0 = none ∧ beAt bytes0 12 2 ≠ 0x8100 ∧ beAt bytes0 12 2 ≠ 0x86DD) ∧
    (netUp.laneFor 0 (umt0 0) = none ∧ beAt (umt0 0) 12 2 = 0x86DD ∧ beAt (umt0 0) 14 1 / 16 = 6 ∧ beAt (umt0 0) 20 1 = 17 ∧
      bit netUp.net.gctl 0 = true ∧ beAt (umt0 0) 56 2 = bits netUp.net.gctl 63 48 ∧ beAt (umt0 0) 38 16 = netUp.ipOf netUp.xlt.devnum.toNat 0 ∧
      udpOk (umt0 0) 14 (beAt (umt0 0) 58 2) = true ∧ 54 + beAt (umt0 0) 58 2 ≤ (umt0 0).length ∧ 44 ≤ beAt (umt0 0) 58 2 ∧
      beAt (umt0 0) 62 1 / 16 = 1 ∧ beAt (umt0 0) 58 2 = 12 + (32 + beAt (umt0 0) 64 2 % 8192) ∧
      (pktOf (umt0 0) 0 14 62).payload.length ≤ lenLimit 6 ∧ (pktOf (umt0 0) 0 14 62).mcast = none ∧ beAt (umt0 0) 36 2 < 20 ∧
      (crc32c (((umt0 0).drop 62).take 32)).toNat = beAt (umt0 0) 94 4 ∧ (umtCmd 6 (pktOf (umt0 0) 0 14 62)).isSome = true ∧
      (crc32c (((umt0 1).drop 62).take 32)).toNat ≠ beAt (umt0 1) 94 4) ∧
    (((h (run0 false false true) false false).lane 2).frames = [frame0 (run0 false false true) false false] ∧
      (frame0 (run0 false false true) false false).released = false ∧ (frame0 (run0 false false true) false false).fcs = none) ∧
    ((frame0 (run0 true true true) true true).released = true ∧ lRlog2 lcb0 ≠ 0 ∧ (0 + 1) % 2 ^ lRlog2 lcb0 ≠ 0 % 2 ^ lRlog2 lcb0 ∧
      lRing lcb0 = 0x30000 ∧ uncached (h (run0 true true true) true true) 0x30000) ∧
    ((g.runSched (g.lane 2).lcb 0).2 = true ∧ ((g.runSched (g.lane 2).lcb 0).1.lane 2) = g.lane 2 ∧
      (g.runSched (g.lane 2).lcb 0).1.ifcServes (lTxif lcb0 0) = true ∧ (g.runSched (g.lane 2).lcb 0).1.sent = g.sent) := by
  exact ⟨by decide +kernel, by decide +kernel, by decide +kernel, by decide +kernel, by decide +kernel,
    ⟨by decide +kernel, by decide +kernel, by decide +kernel, by decide +kernel, uncached_at _ _ rfl rfl (by decide +kernel)⟩, by decide +kernel⟩

/-! ### Faults and the snag queue -/

/-- A state with FLT_SEV of a group's kind 2 set to a value, and the snag ring at 0x40000, enabled, with 1,024 slots, and pi there. -/
def faultS (g : Nat) (sev : W64) (pi : Nat) : State :=
  let s := base id
  { s with flt := { s.flt with sev := [(16 * g + 2, some sev)] },
           snag := { s.snag with ctl := 0x51, ringBase := 0x40000, ringSize := 10, pi := BitVec.ofNat 20 pi } }

/-- A record that waits for a slot. -/
def wait0 : SnagWait := { record := 0x123, thread := none, counted := true }

/-- The source of kind 2 of a group's unit. -/
def src0 (g u : Nat) : Src := { g := BitVec.ofNat 4 g, u := BitVec.ofNat 16 u, k := 2 }

/-- The base state with what the collector holds of that source. -/
def heldS (g u : Nat) (x : SrcState) : State := let s := base id; s.setSrc g u 2 x

theorem witness_FaultsAndSnags :
    let plain : Nat → Nat → State → Prop := fun g u s => srcUnit g u = true ∧ ¬(g = 0 ∧ ((s.blk (u / 17)).cell (u % 17)).state = 3) ∧
      s.flt.makeGood = none ∧ s.covered g u = false
    let cls : Nat → Nat → State → Nat := fun g u s => bits (s.sev g 2) 2 0 + (s.srcSt g u 2).raised
    let room : State → Prop := fun s => s.ringFull = false ∧ s.snag.ringHost = false ∧
      uncached s (s.snag.ringBase.toNat + 64 * s.snag.pi.toNat) ∧ (s.snag.ringBase.toNat + 64 * s.snag.pi.toNat) % 256 + 64 ≤ 256
    let full : State := let s := faultS 9 0x30 1023; { s with snag := { s.snag with ci := 5 } }
    let dusty : State := let s := base id; { s with flt := { s.flt with dust := [.engine 3] } }
    let w := fun (s : State) => ({ s with snag := { s.snag with waits := [wait0] } } : State)
    let mg : State := let s := base id; { s with flt := { s.flt with makeGood := some { u := .engine 3, seen := [] } } }
    srcUnit 2 5 = false ∧ (srcUnit 3 29 = true ∧ srcUnit 3 30 = false) ∧
    (dusty.dusted (.engine 3) = true ∧ srcUnit 6 19 = true ∧ dusty.flt.makeGood = none ∧ dusty.covered 6 19 = true) ∧
    (plain 9 3 (faultS 9 0x30 0) ∧ bits ((faultS 9 0x30 0).sev 9 2) 23 16 = 0 ∧ cls 9 3 (faultS 9 0x30 0) = 0 ∧ recClass 9 = some 10 ∧
      room (faultS 9 0x30 0) ∧ (faultS 9 0x30 0).snag.waits = []) ∧
    (plain 9 3 (faultS 9 0x31 0) ∧ cls 9 3 (faultS 9 0x31 0) = 1 ∧ bit (faultS 9 0x31 0).snag.ctl 2 = false) ∧
    (plain 9 3 (faultS 9 0x32 0) ∧ cls 9 3 (faultS 9 0x32 0) = 2) ∧ (plain 6 19 (faultS 6 0x33 0) ∧ cls 6 19 (faultS 6 0x33 0) = 3) ∧
    (plain 9 3 (faultS 9 0x34 0) ∧ cls 9 3 (faultS 9 0x34 0) = 4 ∧ bits (faultS 9 0x34 0).flt.chip 26 24 < 4) ∧
    (plain 9 3 (faultS 9 0x11A31 0) ∧ bits ((faultS 9 0x11A31 0).sev 9 2) 23 16 = 1 ∧
      ((faultS 9 0x11A31 0).srcSt 9 3 2).winA.toNat = 5 / 2 ^ bits ((faultS 9 0x11A31 0).sev 9 2) 13 8 ∧
      1 ≤ ((faultS 9 0x11A31 0).srcSt 9 3 2).cntA + 1 ∧ cls 9 3 (faultS 9 0x11A31 0) < bits ((faultS 9 0x11A31 0).sev 9 2) 6 4 ∧
      cls 9 3 (faultS 9 0x11A31 0) + 1 = 2) ∧
    (plain 9 4 (base id) ∧ bits (0 : W64) 63 63 = 0) ∧
    (let s := heldS 6 19 { SrcState.init with grace := true }
     (s.srcSt 6 19 2).grace = true ∧ bits (s.sev 6 2) 55 32 ≠ 0 ∧ (s.srcSt 6 19 2).level = false) ∧
    (let s := heldS 6 19 { SrcState.init with grace := true, level := true }
     (s.srcSt 6 19 2).grace = true ∧ bits (s.sev 6 2) 55 32 ≠ 0 ∧ (s.srcSt 6 19 2).level = true ∧ s.covered 6 19 = false) ∧
    ((base id).hpt.fallback = false ∧ (base id).flt.hbSeen = false ∧
      ({ (base id) with flt := { (base id).flt with hbSeen := true } } : State).flt.hbSeen = true ∧ (queS id).mail.fw = .running ∧
      (queS id).domOn 1 = true) ∧
    (room (w (faultS 9 0x30 0)) ∧ (w (faultS 9 0x30 0)).snag.waits = [wait0] ∧ (0 : W64).toNat + 1 < 2 ^ 10) ∧
    (room (w full) ∧ (w full).snag.pi.toNat + 1 = 2 ^ (w full).snag.ringSize) ∧
    (writeTaken full 0 0x120008 ∧ full.snag.waits = [] ∧ bit full.snag.ctl 0 = true) ∧
    (writeTaken (base id) 0 0x120008 ∧ bit (base id).snag.ctl 0 = false ∧ bits (0x51 : W32) 7 3 = 10 ∧ bits (0xA1 : W32) 7 3 = 20) ∧
    (writeTaken full 0 0x120018 ∧ (1023 : BitVec 20).toNat < 2 ^ bits full.snag.ctl 7 3 ∧ 2 ^ bits full.snag.ctl 7 3 ≤ (1024 : BitVec 20).toNat) ∧
    (mg.flt.makeGood = some { u := .engine 3, seen := [] } ∧ mg.showsError (.engine 3) = false) ∧ dusty.dusted (.engine 3) = true ∧
    (∃ z ∈ [(srcKey 6 19 0, (5 : W32))], z.1 = srcKey 6 19 0) := by
  refine ⟨by decide +kernel, by decide +kernel, by decide +kernel, ⟨by decide +kernel, by decide +kernel, by decide +kernel, by decide +kernel,
    ⟨by decide +kernel, by decide +kernel, uncached_at _ _ rfl rfl (by decide +kernel), by decide +kernel⟩, by decide +kernel⟩, by decide +kernel,
    by decide +kernel, by decide +kernel, by decide +kernel, by decide +kernel, by decide +kernel, by decide +kernel, by decide +kernel,
    by decide +kernel, ⟨⟨by decide +kernel, by decide +kernel, uncached_at _ _ rfl rfl (by decide +kernel), by decide +kernel⟩, by decide +kernel, by decide +kernel⟩,
    ⟨⟨by decide +kernel, by decide +kernel, uncached_at _ _ rfl rfl (by decide +kernel), by decide +kernel⟩, by decide +kernel⟩,
    ?_, ?_, ?_, ?_, ?_, ?_⟩
  all_goals first | decide +kernel | (unfold writeTaken; decide +kernel)

/-! ### Mailboxes -/

/-- The base state with the firmware running. -/
def fwS : State := let s := base id; { s with mail := { s.mail with fw := .running } }

/-- A state whose mailbox m has a command of opcode op with input i in progress. -/
def boxS (s : State) (m : Bool) (op : Nat) (i : List Byte) : State :=
  s.setBox m { s.box m with ctl := 1, busy := true, cmd := BitVec.ofNat 64 (op + i.length * 65536), payload := payPut [] 0 i }

/-- Queries that the model answers or refuses: opcode and input. -/
def asks : List (Nat × List Byte) :=
  [(0xC000, []), (0xC003, []), (0xC015, leBytes 4 1023), (0xC015, leBytes 4 1024), (0xC031, []), (0xC034, []), (0xC053, leBytes 4 65535),
   (0xC053, leBytes 4 65536), (0xC053, leBytes 4 262144), (0xC072, leBytes 4 4095), (0xC072, leBytes 4 4096), (0xC073, []), (0xC080, leBytes 4 15),
   (0xC080, leBytes 4 16)] ++
  [(0xC081, leBytes 8 4097), (0xC081, leBytes 8 (2 ^ 45)), (0xC081, leBytes 8 0x40000), (0xC092, []), (0xC0A0, leBytes 4 262143 ++ leBytes 4 1),
   (0xC0A0, leBytes 4 262145 ++ leBytes 4 0), (0xC0A0, leBytes 4 262144 ++ leBytes 4 1), (0xC0A2, []), (0xC0A4, leBytes 4 9), (0xC0A4, leBytes 4 10),
   (0xC0A5, []), (0xC0B3, []), (0x4000, []), (0x400, []), (0x401, celId ++ leBytes 4 8 ++ leBytes 4 4), (0x401, zeros 16 ++ leBytes 8 0)]

theorem witness_MailboxQueries :
    let lane := skimS (skim0 0 0x40000) id
    let held := lane.setBlk 0 { lane.blk 0 with reserved := some 5 }
    (∀ x ∈ asks, inProgress (boxS fwS false x.1 x.2) false x.1 x.2 ∧ inProgress (boxS fwS true x.1 x.2) true x.1 x.2) ∧
    ((boxS fwS false 0xC053 (leBytes 4 65535)).qpUsed 65535 = true ∧ (boxS fwS false 0xC053 (leBytes 4 65536)).qpUsed 65536 = false) ∧
    inNum (celId ++ leBytes 4 8 ++ leBytes 4 4) 16 4 + inNum (celId ++ leBytes 4 8 ++ leBytes 4 4) 20 4 ≤ 4 * boxCmds.length ∧
    (inNum (leBytes 8 4097) 0 8 % 4096 ≠ 0 ∧ inNum (leBytes 8 (2 ^ 45)) 0 8 = 2 ^ 45 ∧
      inNum (leBytes 8 0x40000) 0 8 = 0x40000) ∧ (inProgress (boxS lane false 0xC081 (leBytes 8 (2 ^ 45))) false 0xC081 (leBytes 8 (2 ^ 45)) ∧
      (boxS lane false 0xC081 (leBytes 8 (2 ^ 45))).readLcb (2 ^ 45) = none) ∧
    (inProgress (boxS lane false 0xC081 (leBytes 8 0x40000)) false 0xC081 (leBytes 8 0x40000) ∧
      (boxS lane false 0xC081 (leBytes 8 0x40000)).readLcb 0x40000 = some lcb0 ∧ lowestBad (lane.blockChecks lcb0 ++ lane.lcbChecks lcb0 0) = none ∧
      ∃ o, lowestBad (held.blockChecks lcb0 ++ held.lcbChecks lcb0 0) = some o) := by
  unfold inProgress
  exact ⟨by decide +kernel, by decide +kernel, by decide +kernel, by decide +kernel, ⟨by decide +kernel, readLcb_none (skim0 0 0x40000) id⟩,
    by decide +kernel, readLcb_skimS (skim0 0 0x40000) id, by decide +kernel, 8, by decide +kernel⟩

/-- A background command of mailbox false. -/
def bg0 (op : Nat) (k : BgKind) (r : Option (W16 × W16)) : Background := { mb := false, opcode := BitVec.ofNat 16 op, kind := k, result := r, step := 0 }

/-- That command runs. -/
def bgS (g : Background) : State := { fwS with mail := { fwS.mail with bg := some g } }

/-- The firmware slot in a state, with some bytes, held by a mailbox. -/
def slotS (f : FwState) (bs : List Byte) (h : Option Bool) : State :=
  let s := base id; { s with mail := { s.mail with fw := f, fwBytes := bs, fwHolder := h } }

/-- The bytes of a flash image of 260 bytes, its length at byte 8. -/
def image0 : List Byte := leBytes 8 0 ++ leBytes 4 260 ++ List.replicate 248 7

/-- That mailbox false of a state may have a command of opcode op with input i in progress. -/
def boxIn (s : State) (op : Nat) (i : List Byte) : Prop := inProgress (boxS s false op i) false op i

theorem witness_MailboxProtocolAndFirmware :
    let s := base id
    let rung := s.setBox false { s.box false with ctl := 1 }
    let ask := fun (s : State) op n => s.setBox false { s.box false with cmd := BitVec.ofNat 64 (op + n * 65536) }
    let fall := fun (s : State) => ({ s with hpt := { s.hpt with fallback := true } } : State)
    let d := List.replicate 128 (1 : Byte)
    let go := fun s i => boxIn s 0xC001 i
    (writeTaken s 2 (boxBase false + 4) ∧ writeTaken s 2 (boxBase true + 4) ∧ bit (rung.box false).ctl 0 = true ∧ bit (s.box false).ctl 0 = false ∧
      s.boxesWait = false ∧ ({ s with hpt := { s.hpt with fallback := true, hostLost := true } } : State).boxesWait = true) ∧
    (∀ c ∈ boxCmds, c.opcode ≠ ((ask s 0xC123 0).box false).opcode) ∧
    (∃ c ∈ boxCmds, c.opcode = ((ask s 0xC010 0).box false).opcode ∧ c.opcode ∉ fallbackOps ∧ c.needsFw = true ∧ (s.mail.fw ≠ .running) ∧
      c.more = false ∧ (((ask fwS 0xC010 0).box false).len ≠ c.input ∧ ((ask fwS 0xC010 c.input).box false).len = c.input)) ∧
    (fall s).hpt.fallback = true ∧ (∃ c ∈ boxCmds, c.opcode ∈ fallbackOps ∧ c.more = false ∧ ((ask (fall s) c.opcode c.input).box false).len = c.input) ∧
    (∃ c ∈ boxCmds, c.more = true ∧ ((ask s c.opcode (2 ^ 20)).box false).len = 2 ^ 20 ∧ c.input ≤ 2 ^ 20 ∧
      2 ^ 20 < ((ask s c.opcode (2 ^ 20 + 1)).box false).len) ∧
    (go fwS (leBytes 8 0 ++ d) ∧ go (slotS .receiving d (some true)) (leBytes 8 0 ++ d) ∧ go s (leBytes 4 0 ++ leBytes 4 1 ++ d) ∧
      go s (leBytes 8 0 ++ d) ∧ go (slotS .receiving d (some false)) (leBytes 8 128 ++ d) ∧ go (slotS .receiving d none) (leBytes 8 64 ++ d)) ∧
    (boxIn fwS 0xC002 [] ∧ boxIn (slotS .receiving d (some false)) 0xC002 [] ∧ s.mail.bg = none ∧
      boxIn (slotS .receiving d none) 0xC002 []) ∧
    ((bgS (bg0 0xC002 .fwStart none)).rst.phase = .none ∧ fwFormat 0 (slotS .verifying d none).mail.fwBytes = false) ∧
    ((bgS (bg0 0xC0A1 (.primerWrite 0 image0) none)).mail.bg = some (bg0 0xC0A1 (.primerWrite 0 image0) none) ∧
      image0.length = 260 ∧ leVal ((image0.drop 8).take 4) = 260) := by
  refine ⟨?_, by decide +kernel, ⟨⟨0xC010, 32, false, true⟩, ?_⟩, by decide +kernel, ⟨⟨0xC000, 0, false, false⟩, ?_⟩, ⟨⟨0xC001, 8, true, false⟩, ?_⟩,
    ?_, ?_, by decide +kernel, by decide +kernel⟩
  · unfold writeTaken; decide +kernel
  · exact ⟨by simp [boxCmds], by decide +kernel⟩
  · exact ⟨by simp [boxCmds], by decide +kernel⟩
  · exact ⟨by simp [boxCmds], by decide +kernel⟩
  · unfold boxIn inProgress; decide +kernel
  · unfold boxIn inProgress; decide +kernel

/-- The state with queue 3 changed. -/
def q3S (f : Queue → Queue) : State := fwS.setQ 3 (f Queue.init)

/-- The state with a background command running. -/
def busyS : State := bgS (bg0 0xC0A1 (.primerWrite 0 []) none)

theorem witness_MailboxQueuesAndPower :
    let three := leBytes 4 3
    let set := fun q => leBytes 4 q ++ leBytes 4 0 ++ leBytes 8 0x4000 ++ leBytes 8 0x8000 ++ leBytes 8 0x05000000
    let st := fun x => q3S fun q => { q with state := x }
    let dom := fun d how => leBytes 1 d ++ leBytes 1 how ++ leBytes 6 0
    let c := semCmd
    let off := fwS.setDom 5 { fwS.dom 5 with state := .off }
    let asked : State := { fwS with mail := { fwS.mail with resetAsked := true } }
    (boxIn fwS 0xC010 (set 1024) ∧ boxIn fwS 0xC010 (set 1023) ∧ (fwS.q 1023).state = .disabled ∧ boxIn (st .running) 0xC010 (set 3) ∧
      inNum (set 3) 4 4 = 0 ∧ bits (BitVec.ofNat 64 (inNum (set 3) 8 8)) 9 0 = 0 ∧ bits (BitVec.ofNat 64 (inNum (set 3) 16 8)) 7 0 = 0 ∧
      bits (BitVec.ofNat 64 (inNum (set 3) 24 8)) 23 20 = 0 ∧ bits (BitVec.ofNat 64 (inNum (set 3) 24 8)) 63 44 = 0 ∧
      4 ≤ bits (BitVec.ofNat 64 (inNum (set 3) 24 8)) 27 24) ∧
    (∀ x ∈ [QState.disabled, .quiesced, .running], boxIn (st x) 0xC011 three ∧ boxIn (st x) 0xC012 three ∧ boxIn (st x) 0xC013 three ∧
      boxIn (st x) 0xC014 three) ∧
    (boxIn (q3S fun q => { q with state := .running, cmds := [c] }) 0xC013 three ∧ c.stat = .running ∧ c.op = 5 ∧ c.first = none) ∧
    (boxIn fwS 0xC030 (leBytes 4 7 ++ leBytes 4 0) ∧ boxIn fwS 0xC030 (leBytes 4 7 ++ leBytes 4 1)) ∧
    (boxIn busyS 0xC032 (dom 5 0) ∧ boxIn fwS 0xC032 (dom 3 0) ∧ boxIn fwS 0xC032 (dom 50 0)) ∧
    ((∀ how < 4, boxIn fwS 0xC032 (dom 5 how)) ∧ fwS.domainAccepts 5 false false = true ∧ fwS.domainAccepts 5 true false = true ∧
      fwS.domainAccepts 5 false true = true ∧ fwS.domOn 5 = true ∧ (fwS.dom 5).state = .on ∧ fwS.domainAccepts 12 false false = false ∧
      boxIn fwS 0xC032 (dom 12 0) ∧ fwS.domainAccepts 49 false true = true) ∧
    (boxIn off 0xC032 (dom 5 1) ∧ off.domainAccepts 5 true false = true ∧ off.domOn 5 = false ∧ off.unpopulated 5 = false ∧ off.pwr.waking = []) ∧
    (boxIn fwS 0xC033 [] ∧ boxIn fwS 0xC094 [] ∧ fwS.mail.resetAsked = false ∧ asked.mail.resetAsked = true ∧ asked.rst.phase = .none ∧
      asked.rst.stopped = false ∧ (bgS (bg0 0xC033 .warmReset none)).mail.bg = some (bg0 0xC033 .warmReset none)) := by
  unfold boxIn inProgress
  refine ⟨?_, ?_, ?_, ?_, ?_, ?_, ?_, ?_⟩
  all_goals decide +kernel

theorem witness_MailboxNetworkAndFaults :
    let qp := leBytes 4 5 ++ leBytes 2 7 ++ leBytes 2 0 ++ leBytes 4 70000 ++ leBytes 4 3 ++ leBytes 4 3 ++ leBytes 1 4 ++ leBytes 1 9 ++ leBytes 1 4 ++
      leBytes 1 4 ++ leBytes 8 0x10000 ++ leBytes 8 0x20000 ++ leBytes 8 0x30000 ++ leBytes 8 0x40000 ++ leBytes 2 9 ++ leBytes 6 0
    let pair := fun st => (let s := expS fun q => { q with state := st }
      ({ s with mail := { s.mail with fw := .running } } : State))
    let move := fun to' => leBytes 4 70000 ++ leBytes 1 to' ++ leBytes 3 0
    let win := fun n => leBytes 4 n ++ leBytes 4 0 ++ leBytes 8 0xF000000000001000 ++ leBytes 8 0x2000 ++ leBytes 4 9 ++ leBytes 4 0
    let there := fun busy => (let w : Win := { Win.init with base := 0xF000000000001000, len := 0x2000, src := 9 }
      ({ fwS with net := { fwS.net with win := [(255, w)], winBusy := busy } } : State))
    let noNet := fwS.setDom 13 { fwS.dom 13 with state := .off }
    let unit := fun n => leBytes 4 (6 * 65536 + 16 + n)
    let dusty : State := { fwS with flt := { fwS.flt with dust := [.engine 15] } }
    (boxIn fwS 0xC050 qp ∧ firstBad (fwS.qpBad qp) = none ∧ 65536 ∉ fwS.explicitQps ∧ boxIn fwS 0xC050 (zeros 64) ∧
      firstBad (fwS.qpBad (zeros 64)) = some 8) ∧
    (boxIn (pair .reset) 0xC051 (move 1) ∧ boxIn (pair .reset) 0xC051 (move 0) ∧ boxIn (pair .ready) 0xC051 (move 0) ∧
      boxIn (pair .ready) 0xC051 (move 1) ∧ ((pair .reset).qp 70000).cfg = some cfg0 ∧ ((pair .reset).qp 70000).state = .reset ∧
      ((pair .reset).qp 70000).wrs = [] ∧ ((pair .reset).qp 70000).sci = ((pair .reset).qp 70000).spi) ∧
    (boxIn (pair .reset) 0xC052 (leBytes 4 70000) ∧ boxIn (pair .ready) 0xC052 (leBytes 4 70000)) ∧
    (boxIn fwS 0xC054 (win 255) ∧ fwS.domOn 13 = true ∧ boxIn noNet 0xC054 (win 255) ∧ noNet.domOn 13 = false ∧
      (∀ b, boxIn (there b) 0xC054 (win 255) ∧ (Tab.get Win.init (there b).net.win 255).src = 9 ∧ (there b).net.winBusy = b)) ∧
    ((BitVec.ofNat 64 (inNum (win 255) 8 8) &&& ~~~0xF0003FFFFFFFF000#64) = 0 ∧ (BitVec.ofNat 64 (inNum (win 255) 16 8) &&& ~~~0x00003FFFFFFFF000#64) = 0) ∧
    (boxIn fwS 0xC055 (leBytes 1 10 ++ zeros 7) ∧ boxIn fwS 0xC055 (leBytes 1 9 ++ leBytes 1 3 ++ zeros 6) ∧ fwS.domOn (13 + 9 * (9 / 2)) = true ∧
      boxIn noNet 0xC055 (leBytes 1 1 ++ zeros 7)) ∧
    (boxIn fwS 0xC056 (leBytes 2 3 ++ zeros 2) ∧ (fwS.qp 3).state ≠ .active ∧ boxIn noNet 0xC056 (leBytes 2 3 ++ zeros 2)) ∧
    ((∀ n ∈ [15, 16], boxIn fwS 0xC090 (unit n)) ∧ boxIn dusty 0xC090 (unit 15) ∧ dusty.dusted (.engine 15) = true ∧
      fwS.dusted (.engine 15) = false ∧ boxIn fwS 0xC090 (leBytes 4 (2 ^ 20))) ∧
    (boxIn dusty 0xC091 (unit 15) ∧ dusty.mail.bg = none ∧ boxIn fwS 0xC091 (unit 15)) ∧
    ((∀ k < 3, boxIn fwS 0xC093 (leBytes 4 k)) ∧ fwS.hpt.fallback = false ∧
      boxIn ({ fwS with hpt := { fwS.hpt with fallback := true } } : State) 0xC093 (leBytes 4 1)) ∧
    (boxIn fwS 0xC095 (leBytes 4 (2 ^ 20 * 7 + 6 * 65536 + 31) ++ leBytes 4 1000000) ∧ srcUnit 6 31 = true ∧ bits (fwS.sev 6 7) 2 0 ≠ 5 ∧
      boxIn fwS 0xC095 (leBytes 4 (13 * 65536 + 2 ^ 20) ++ leBytes 4 1) ∧ srcUnit 13 0 = true ∧ bits (fwS.sev 13 1) 2 0 = 5) ∧
    (boxIn fwS 0xC0A1 (leBytes 4 262143 ++ leBytes 4 1 ++ [7]) ∧ fwS.mail.bg = none) ∧
    (boxIn fwS 0xC0B0 (leBytes 2 9 ++ zeros 2) ∧ bit fwS.net.gctl 0 = false ∧ fwS.anyRuns = false ∧ boxIn (pair .ready) 0xC0B0 (leBytes 2 9 ++ zeros 2) ∧
      bit (pair .ready).net.gctl 0 = true) ∧
    (boxIn fwS 0xC0B1 (leBytes 8 1) ∧ (BitVec.ofNat 64 1 &&& ~~~0x0003FFFF0FFFFF01#64) = 0 ∧ fwS.domOn 3 = true ∧
      0 * 2 ^ 30 + allMem ≤ 2 ^ 47 ∧ 2 ^ 47 < 0x3FFFF * 2 ^ 30 + allMem ∧ boxIn fwS 0xC0B1 (leBytes 8 0x0003FFFF00000001)) ∧
    (boxIn fwS 0xC0B2 (leBytes 4 8 ++ zeros 4) ∧ boxIn fwS 0xC0B2 (leBytes 4 7 ++ leBytes 4 0x80000007)) := by
  unfold boxIn inProgress
  refine ⟨?_, ?_, ?_, ?_, ?_, ?_, ?_, ?_, ?_, ?_, ?_, ?_, ?_, ?_, ?_⟩
  all_goals decide +kernel

/-- A mailbox's payload reads back what was put there, whatever its length. -/
theorem boxIn_long (s : State) (op : Nat) (i : List Byte) (ho : op < 2 ^ 16) (hl : i.length < 2 ^ 20) (hp : s.rst.phase = .none)
    (hr : (boxS s false op i).boxRefusal false = none ∧ (boxS s false op i).boxesWait = false ∧ (boxS s false op i).boxBehind false = false) :
    boxIn s op i := by
  have hbox : (boxS s false op i).box false =
      { s.box false with ctl := 1, busy := true, cmd := BitVec.ofNat 64 (op + i.length * 65536), payload := payPut [] 0 i } := by
    unfold boxS State.box State.setBox
    rw [Tab.get_set, if_pos rfl]
  have hn : (BitVec.ofNat 64 (op + i.length * 65536)).toNat = op + i.length * 65536 := by
    rw [BitVec.toNat_ofNat]; omega
  have hop : ((boxS s false op i).box false).opcode = op := by
    rw [hbox]; unfold Mailbox.opcode bits
    dsimp only
    rw [hn]; omega
  have hlen : ((boxS s false op i).box false).len = i.length := by
    rw [hbox]; unfold Mailbox.len bits
    dsimp only
    rw [hn]; omega
  refine ⟨by rw [hbox], hop, hp, hr.1, hr.2.1, hr.2.2, ?_⟩
  rw [hlen, hbox]
  refine List.ext_getElem (by simp) fun k h1 h2 => ?_
  have hf : payPut [] 0 i = (i.zipIdx 0).foldl (fun a x => Tab.set 0 a x.2 x.1) [] := by
    unfold payPut
    simp only [Nat.zero_add]
  have h3 := get_lcbFold i 0 [] k
  rw [if_pos ⟨Nat.zero_le _, by omega⟩] at h3
  rw [List.getElem_map, List.getElem_range, hf]
  dsimp only
  rw [h3, Nat.sub_zero, List.getD_eq_getElem?_getD, List.getElem?_eq_getElem h2]
  rfl

/-- A group of the devices 5 and 7 for a device that is number 5: its lists stand at 0x9000 and 0x9100. -/
def newGrp (slot : Nat) : BitVec 512 :=
  BitVec.ofNat 512 (2 ^ 63 + 2 ^ 61 + 2 ^ 32 + 0x9000 * 2 ^ 64 + 0x9100 * 2 ^ 128 + 0x40000 * 2 ^ 192 + slot * 2 ^ 256)

/-- The state that holds those lists, with the firmware running. -/
def listS : State :=
  let s := fwS
  let m := (s.stk.mem.write 0x9000 [5, 0, 7, 0]).write 0x9100 [0xFF, 0xFF, 0, 0]
  { s with xlt := { s.xlt with devnum := 5 }, stk := { s.stk with mem := m } }

theorem witness_MailboxNetworkAndFaults_groups :
    let i := fun slot => leBytes 4 4 ++ leBytes 64 (newGrp slot).toNat
    let g : State := { grpS false with mail := fwS.mail }
    let runs : State := { engS false 5 semCmd (fun x => { x with members := [member0 [] 1] }) with mail := fwS.mail }
    let image := List.replicate 4352 (0 : Byte) ++ leBytes 4 0xCA11B8A7
    (boxIn listS 0xC070 (i 1024) ∧ bits (newGrp 1024) 31 16 = 0 ∧ bits (newGrp 1024) 56 48 = 0 ∧ bits (newGrp 1024) 511 320 = 0 ∧
      BitVec.ofNat 512 (inNum (i 1024) 4 64) = newGrp 1024 ∧ inNum (i 1024) 0 4 = 4 ∧ listS.groupEntry 4 = none ∧
      lowestBad (listS.groupChecks (newGrp 1024)) = none ∧ uncached listS (listS.groupAt 4) ∧ listS.groupAt 4 % 256 + 64 ≤ 256) ∧
    (boxIn listS 0xC070 (i 1023) ∧ lowestBad (listS.groupChecks (newGrp 1023)) = some 36) ∧
    (boxIn g 0xC071 (leBytes 4 1) ∧ g.groupRuns 1 = 0 ∧ g.groupEntry 1 = some (grp false) ∧ uncached g (g.groupAt 1) ∧
      g.groupAt 1 % 256 + 64 ≤ 256) ∧
    (boxIn runs 0xC071 (leBytes 4 1) ∧ runs.groupRuns 1 ≠ 0) ∧ boxIn g 0xC070 (leBytes 4 1 ++ leBytes 64 (newGrp 1024).toNat) ∧
    (boxIn fwS 0xC0A3 image ∧ inNum image 228 28 = 0 ∧ inNum image 4352 4 = 0xCA11B8A7 ∧ boxIn fwS 0xC0A3 (List.replicate 4356 0) ∧
      inNum (List.replicate 4356 0) 4352 4 ≠ 0xCA11B8A7) := by
  have hk : groupKnown { grpS false with mail := fwS.mail } false :=
    group_lines _ _ (by decide +kernel) (grp_lines false)
  refine ⟨⟨?_, by decide +kernel, by decide +kernel, by decide +kernel, by decide +kernel, by decide +kernel, ?_, by decide +kernel,
      uncached_at _ _ rfl rfl (by decide +kernel), by decide +kernel⟩, ⟨?_, by decide +kernel⟩,
    ⟨?_, by decide +kernel, hk.1, uncached_at _ _ rfl rfl (by decide +kernel), by decide +kernel⟩, ⟨?_, by decide +kernel⟩, ?_,
    ⟨boxIn_long _ _ _ (by decide) (by decide +kernel) rfl (by decide +kernel), by decide +kernel, by decide +kernel,
     boxIn_long _ _ _ (by decide) (by decide +kernel) rfl (by decide +kernel), by decide +kernel⟩⟩
  · unfold boxIn inProgress; decide +kernel
  · unfold State.groupEntry
    rw [show bits (listS.ceng ((listS.nextRegion 0).getD 0)).gtab 45 12 * 4096 + 64 * 4 = 256 by decide +kernel]
    dsimp only
    rw [tableRead_zero listS 256 (by decide +kernel) (by decide +kernel) (by decide +kernel) (by decide)]
    rfl
  all_goals unfold boxIn inProgress; decide +kernel

/-! ### Events and attestation -/

/-- All sources enabled, none masked, source 5 on vector 7, which is open, message signalling on. -/
def evS : State :=
  let s := base id
  { s with evt := { s.evt with enable := BitVec.allOnes 512, mask := 0, route := [(5, 0x80000007)] },
           hpt := { s.hpt with cfg := { s.hpt.cfg with msixctl := 0x8000, command := 0x406 }, msix := [(7, { addr := 0, data := 0, masked := false })] } }

theorem witness_EventsArriveAndFire :
    let s := evS
    let t : State := { s with evt := { s.evt with cnt := [(5, 255)] } }
    (writeTaken s 0 0x1000C0 ∧ bits (447 : W32) 8 0 < 448 ∧ bits (448 : W32) 8 0 = 448 ∧ bits (511 : W32) 8 0 = 511) ∧
    (writeTaken s 0 (0x101200 + 4 * (127 : BitVec 7).toNat) ∧ writeTaken s 0 (0x100000 + 8 * (7 : BitVec 3).toNat) ∧
      writeTaken s 0 (0x100040 + 8 * (7 : BitVec 3).toNat) ∧ writeTaken s 0 (0x100080 + 8 * (0 : BitVec 3).toNat) ∧
      writeTaken s 0 (0x102000 + 4 * 511)) ∧
    ((Tab.get 0 t.evt.cnt 5).toNat = 255 ∧ s.evt.fires 5 = false ∧ ({ s.evt with pending := 32 } : Events).fires 5 = true ∧
      vectorOpen s (s.evt.vectorOf 5)) := by
  unfold writeTaken vectorOpen
  refine ⟨?_, ?_, ?_⟩
  all_goals decide +kernel

/-- The device speaks SPDM, the connection at a point, the firmware running, and under the fallback sequencer or not. -/
def spdmS (at' : SpdmState) (fb : Bool) : State :=
  let s := fwS
  { s with hpt := { s.hpt with linkUp := true, fallback := fb }, idn := { s.idn with spdm := at' } }

theorem witness_AttestationAnswers :
    let turn : Byte → SpdmState → Nat → List Byte → Prop := fun code at' n req => (spdmS at' false).cfgServes = true ∧
      (spdmS at' false).hpt.fallback = false ∧ req.getD 1 0 = code ∧ (spdmS at' false).idn.spdm = at' ∧ req.getD 0 0 = 0x12 ∧ n ≤ req.length
    ((spdmS .none false).cfgServes = true ∧ (spdmS .none true).cfgServes = true ∧ (spdmS .none true).hpt.fallback = true ∧
      (spdmS .none false).idn.spdm ≠ .version) ∧
    turn 0xE1 .version 4 [0x12, 0xE1, 0, 0] ∧ turn 0xE3 .capabilities 32 ([0x12, 0xE3] ++ List.replicate 30 0xFF) ∧
    turn 0x81 .algorithms 4 [0x12, 0x81, 0, 0] ∧
    (turn 0x82 .algorithms 8 [0x12, 0x82, 0, 0, 0, 0, 0, 4] ∧ 0 < (spdmS .algorithms false).chain.length) ∧
    turn 0x82 .algorithms 8 [0x12, 0x82, 1, 0, 0, 0, 0, 4] ∧ turn 0x83 .algorithms 36 ([0x12, 0x83] ++ zeros 34) ∧
    (turn 0xE0 .algorithms 4 [0x12, 0xE0, 0, 1] ∧ turn 0xE0 .algorithms 4 [0x12, 0xE0, 0, 2] ∧ (spdmS .algorithms false).mail.fw = .running) ∧
    turn 0xE0 .algorithms 37 ([0x12, 0xE0, 1, 0xFF] ++ zeros 33) := by
  refine ⟨by decide +kernel, by decide +kernel, by decide +kernel, by decide +kernel, ⟨by decide +kernel, by simp only [State.chain, List.length_append, List.length_cons]; omega⟩, ?_, ?_, ?_, ?_⟩
  all_goals decide +kernel

/-- A flash image of 1,060 bytes whose one record is of type 6, the life records, all of them empty. -/
def flash0 : Tab Byte :=
  [(0, 0x50), (1, 0x4D), (2, 0x50), (3, 0x52), (4, 1), (8, 36), (9, 4), (12, 1), (16, 6), (20, 32), (25, 4), (1056, 178), (1057, 92), (1058, 150),
   (1059, 235)]

/-- The register of a CRC-32C after bytes. -/
def crcRun (c : W32) (bs : List Byte) : W32 := bs.foldl (fun c b => (List.range 8).foldl (fun x _ => crcStep 0x82F63B78 x) (c ^^^ b.setWidth 32)) c

/-- That register after the first 32 bytes of the image, and after each 32 bytes of zeros that follow. -/
def crcSteps : List W32 :=
  [0x5E13F49D, 0x4CBCBF97, 0xF8886551, 0x189F9AA5, 0x77E6E7F8, 0x8D8ADF1D, 0xA282D4B6, 0x0D41BE97, 0xD6837A6D, 0xD0446A94, 0xD88C23D8,
   0xE13547E2, 0xA43627CE, 0x41FF3B89, 0xE51CC6EB, 0x544CCED9, 0xC4E2769A, 0xA03C74E4, 0x76CF2AB2, 0x2AA2582A, 0x9748F16A, 0x6326AED1,
   0x1D8357D7, 0x31F7067B, 0xBB31E797, 0x9B4C1803, 0x3926F7CC, 0xA0AC07B3, 0x96F230E5, 0x5B34E48E, 0xBFED6631, 0x044E3F54, 0x1469A34D]

theorem crcRun_zeros : ∀ k < 32, crcRun (crcSteps.getD k 0) (List.replicate 32 0) = crcSteps.getD (k + 1) 0 := by decide +kernel

theorem crcRun_zeros_many (k : Nat) (h : k ≤ 32) : crcRun (crcSteps.getD 0 0) (List.replicate (32 * k) 0) = crcSteps.getD k 0 := by
  induction k with
  | zero => rfl
  | succ k ih =>
    rw [Nat.mul_succ, ← List.replicate_append_replicate, show ∀ c a b, crcRun c (a ++ b) = crcRun (crcRun c a) b from fun c a b => List.foldl_append,
      ih (by omega), crcRun_zeros k (by omega)]

/-- The state with that image. -/
def flashS : State := let s := base id; { s with pwr := { s.pwr with flash := flash0 } }

theorem primer0 : flashS.primerOk = true := by
  have hr : flashS.flashRead 0 (flashS.imageLen - 4) = flashS.flashRead 0 32 ++ List.replicate (32 * 32) 0 := by decide +kernel
  have hc : crc32c (flashS.flashRead 0 (flashS.imageLen - 4)) = 0xEB965CB2 := by
    rw [hr]
    show ~~~crcRun (BitVec.allOnes 32) _ = _
    rw [show ∀ c a b, crcRun c (a ++ b) = crcRun (crcRun c a) b from fun c a b => List.foldl_append,
      show crcRun (BitVec.allOnes 32) (flashS.flashRead 0 32) = crcSteps.getD 0 0 by decide +kernel, crcRun_zeros_many 32 (by omega)]
    decide
  unfold State.primerOk
  dsimp only
  rw [hc]
  decide +kernel

/-! ### Power, resets and the start -/

/-- The base state with domain 5 in some state. -/
def domS (x : DomState) : State := let s := base id; s.setDom 5 { s.dom 5 with state := x }

theorem witness_PowerController :
    let s := base id
    let wk : State := let s := domS .poweringUp; { s with pwr := { s.pwr with waking := [5, 6] }, mail := { s.mail with bg := some (bg0 0xC032 (.domainSet 5 true false) none) } }
    let dr : State := let s := domS .draining; { s with mail := { s.mail with bg := some (bg0 0xC032 (.domainSet 5 false false) none) } }
    let busy := dr.setBlk 0 { dr.blk 0 with task := some task0 }
    let one : Nat → List W16 := fun c => BitVec.ofNat 16 c :: List.replicate 49 0
    let sum := fun c => ((one c).take 50).foldl (fun a x => a + x.toNat) 0 * (800 : W16).toNat
    let hot : List W16 := List.replicate 63 160 ++ [1760]
    let warm : List W16 := List.replicate 64 1520
    let cool : List W16 := List.replicate 64 1472
    (s.pwr.waking.head? ≠ some 5 ∧ wk.pwr.waking = [5, 6] ∧ 0 ∈ domBlocks 5 ∧ 3 ∈ domBlocks 5 ∧ wk.blockDust 3 = false) ∧
    (domKind 11 = .links 0 ∧ (({ (domS .poweringUp) with pwr := { s.pwr with waking := [11] } } : State).pwr.waking = [11])) ∧
    ((s.dom 5).state ≠ .draining ∧ (dr.dom 5).state = .draining ∧ (∀ k ∈ domBlocks 5, (dr.blk k).task = none) ∧ busy.domainBusy 5 = true ∧
      (busy.dom 5).state = .draining ∧ ∀ r < 5, dr.wc r = [] ∧ busy.wc r = []) ∧
    (domBlocks 13 = [] ∧ (s.dom 5).state = .on ∧ (s.blk 3).state = .idle ∧ bit (s.modeOf (regionOf 3)) 7 = true ∧
      ∀ k ∈ domBlocks 5, (s.blk k).state = .idle ∧ (s.blk k).task = none ∧ (s.blk k).reserved = none) ∧
    ((Nat.min 10000 (Nat.max 10 (bits s.pwr.cap 15 0)) + 9) / 10 = 10 ∧ s.pwr.samples = [] ∧ Nat.min 1400 (Nat.max 400 (bits s.pwr.cap 31 16)) = 1400 ∧
      1400 * 10000 < sum 17501 ∧ sum 17500 = 1400 * 10000 ∧ 98 * 1400 * 10000 = 100 * sum 17150 ∧ 100 * sum 17149 < 98 * 1400 * 10000) ∧
    (s.pwr.thermSub < 9 ∧ ({ s with pwr := { s.pwr with thermSub := 9 } } : State).pwr.thermSub = 9 ∧ s.flt.thermtripN = true ∧
      ∀ k < 64, Tab.get 0 s.pwr.cal (2 * k) = 0 ∧ Tab.get 0 s.pwr.cal (2 * k + 1) = 0) ∧
    ((Nat.min 95 (Nat.max 70 s.pwr.therm.toNat) : Nat) = 95 ∧ (1760 : Int) ≤ (hot.getD 63 0).toInt ∧ (∀ k < 64, (warm.getD k 0).toInt < 1760 ∧
      16 * (95 : Int) ≤ (warm.getD k 0).toInt ∧ (cool.getD k 0).toInt ≤ 16 * (95 - 3))) ∧ s.pwr.sTherm = 0 ∧
    (s.domOn 5 = true ∧ 5 ∉ s.pwr.droops ∧ ((s.setBlk 0 { s.blk 0 with state := .skim }).blk 0).state = .skim) ∧
    (s.rst.plls.getLsbD 6 = true ∧ ({ s with rst := { s.rst with plls := 0 } } : State).rst.plls.getLsbD 6 = false) := by
  refine ⟨?_, ?_, ?_, ?_, ?_, ?_, ?_, ?_, ?_, ?_⟩
  all_goals decide +kernel

/-- The base state at a point of a reset. -/
def rstS (f : Reset → Reset) : State := let s := base id; { s with rst := f s.rst }

/-- A DEVICE or GRAVE latch in a state whose conventional reset, or warm one, drains. -/
def latchS (conv : Bool) (chip : Nat) : State :=
  let s := rstS (fun r => { r with phase := .drain conv, perstHigh := !conv })
  { s with flt := { s.flt with chip := BitVec.ofNat 32 chip } }

theorem witness_ResetsAndStarts :
    let s := base id
    let por := fun h => rstS (fun r => { r with phase := .porLow, perstHigh := h })
    let held : State := let s := por true; { s with idn := { s.idn with tapHolds := true } }
    let start := fun n (s : State) => ({ s with rst := { s.rst with phase := .start, steps := n } } : State)
    let fz : Fuses := { s.idn.fuses with dsn := 0x100 }
    let small : State := { s with pwr := { s.pwr with populated := 1 } }
    s.rst.phase = .none ∧ ((por true).rst.phase = .porLow ∧ (por true).rst.pwrgd = true ∧ (por false).rst.perstHigh = false ∧ dsnOk fz.dsn = false ∧
      dsnOk s.idn.fuses.dsn = true ∧ held.idn.tapHolds = true ∧ (por true).idn.tapHolds = false ∧ fz.spare.find? (fun e => e.1.val == 99) = none) ∧
    ((rstS fun r => { r with phase := .pd0Ready }).rst.phase = .pd0Ready ∧ (rstS fun r => { r with phase := .held true }).rst.stopped = false) ∧
    (let u := (start 0 s).setDom 3 { s.dom 3 with state := .off }
     u.rst.phase = .start ∧ u.rst.steps = 0 ∧ (u.dom 3).state ≠ .on ∧ u.rst.stopped = false ∧ u.primerOk = false ∧
       flashS.primerOk = true) ∧
    (startOrder.length = 47 ∧ (∃ d, startOrder[1 - 1]? = some d ∧ (start 1 s).unpopulated d = false ∧ ((start 1 s).dom d).state ≠ .failed)) ∧
    (∃ n d, 1 ≤ n ∧ startOrder[n - 1]? = some d ∧ (start n small).unpopulated d = true ∧ ((start n small).dom d).state ≠ .failed) ∧
    (start 48 s).rst.steps = 48 ∧ (s.rst.pd0Ready = true ∧ (por true).rst.phase ≠ .none ∧ s.rst.stopped = false) ∧
    ((rstS fun r => { r with phase := .held false }).rst.phase = .held false) ∧
    (∀ conv, (latchS conv 0x4000000).rst.phase = .drain conv ∧ (latchS conv 0).rst.stopped = false ∧ (latchS conv 0).rst.warmLow = false ∧
      (latchS conv 0).rst.perstHigh = !conv ∧ (latchS conv 0).idn.tapHolds = false) ∧
    ((rstS fun r => { r with phase := .drain false, warmLow := true }).rst.warmLow = true ∧
      (rstS fun r => { r with phase := .drain true, perstHigh := true }).rst.perstHigh = true) ∧
    (∀ conv, cachesEmpty (latchS conv 0x4000000) ∧ (latchS conv 0x4000000).stillBuffered = 0 ∧ (∀ k, ((latchS conv 0x4000000).rc k).txns = []) ∧
      bits (latchS conv 0x4000000).flt.chip 26 24 ≠ 5 ∧ bits (latchS conv 0x5100000).flt.chip 26 24 = 5 ∧
      bits (latchS conv 0x5100000).flt.chip 23 20 ≠ 13) ∧
    (s.rst.pwrgd = true ∧ (rstS fun r => { r with pwrgd := false }).rst.pwrgd = false) := by
  refine ⟨by decide +kernel, by decide +kernel, by decide +kernel, ⟨by decide +kernel, by decide +kernel, by decide +kernel, by decide +kernel,
    by decide +kernel, primer0⟩, ⟨by decide +kernel, ?_⟩, ?_, by decide +kernel,
    by decide +kernel, by decide +kernel, by decide +kernel, by decide +kernel, fun conv => ⟨empty0, ?_, fun k => rc_all _ (fun c => c.txns = []) rfl
      (by cases conv <;> decide +kernel) k, ?_⟩, by decide +kernel⟩
  · exact ⟨_, List.getElem?_eq_getElem (by decide), by decide +kernel⟩
  · exact ⟨5, _, by decide, List.getElem?_eq_getElem (by decide), by decide +kernel⟩
  · cases conv <;> decide +kernel
  · cases conv <;> decide +kernel

/-! ### Modules, the board, the registers and the whole block -/

/-- The identity of a module. -/
def mod0 (rated : Nat) : ModuleId := { name := 1, part := 2, serial := 3, rated := BitVec.ofNat 32 rated }

/-- The life record of its serial number. -/
def life0 : Life := { serial := 3, hours := 39000, rated := 40000, warned := true, expired := true, age := 0 }

/-- Port 9 holds that module, in a port mode. -/
def modS (mode hours : Nat) : State :=
  let s := base id
  let x := s.setModl 9 { s.modl 9 with id := some (mod0 40000), inserted := true, hours := BitVec.ofNat 32 hours, rated := 40000 }
  x.setNport 9 { x.nport 9 with mode := BitVec.ofNat 2 mode }

theorem witness_ModulesAndBoard :
    let s := base id
    let aged : State := { s with idn := { s.idn with life := [life0] } }
    let tap : TapInstr → Bool → State := fun j held => { s with idn := { s.idn with tap := j, tapCoreHeld := held } }
    let cold : State := { s with rst := { s.rst with pd0Ready := false, perstHigh := false } }
    (s.rst.pd0Ready = true ∧ (s.modl 9).inserted = false ∧ (s.modl 9).lastSerial = 0 ∧ s.lifeOf (mod0 0).serial = none ∧ s.idn.life.length < 32 ∧
      BitVec.ofNat 32 (bits s.idn.optCtl 31 16) ≠ 0 ∧ (mod0 40000).rated ≠ 0) ∧
    (aged.lifeOf (mod0 0).serial = some life0 ∧ (modS 0 0).modl 9 ≠ Module.init ∧ ((modS 0 0).modl 9).inserted = true ∧
      (let u := s.setModl 9 { s.modl 9 with inserted := true }; (u.modl 9).inserted = true ∧ (u.modl 9).id = none)) ∧
    (((modS 0 0).modl 9).id = some (mod0 40000) ∧ ((modS 0 0).nport 9).mode = 0 ∧ bit (modS 0 0).idn.optCtl 0 = true ∧
      (3 : BitVec 4) &&& 12 = 0 ∧ (12 : BitVec 4) &&& 3 = 0 ∧ (6 : BitVec 4) &&& 12 ≠ 0 ∧ (6 : BitVec 4) &&& 3 ≠ 0 ∧ ((modS 1 0).nport 9).mode = 1) ∧
    (9 * ((modS 0 35999).modl 9).rated.toNat = 10 * 36000 ∧ ((modS 0 35999).modl 9).hours.toNat < 36000 ∧ ((modS 0 35999).modl 9).warned = false ∧
      ((modS 0 39999).modl 9).rated.toNat = 40000 ∧ ((modS 0 39999).modl 9).expired = false ∧
      10 * 167 < 9 * ((modS 0 0).modl 9).rated.toNat ∧ ((modS 0 0).modl 9).sinceWrite.toNat + (167 - ((modS 0 0).modl 9).hours.toNat) < 168) ∧
    (s.primerOk = false ∧ flashS.primerOk = true ∧ flashS.primerDir.find? (fun k => k.1 == 6) = some (6, 32, 1024) ∧
      32 + 1024 ≤ flashS.imageLen - 4 ∧ flashS.idn.life.length ≤ 32) ∧
    (s.idn.brdAddr = 0 ∧ boardMap s.idn.ptr.toNat = some (0, 8, 0x140008) ∧ s.idn.ptr = 0 ∧ s.idn.latch = []) ∧ boardMap 0xFFFF = none ∧
    (cold.rst.pd0Ready = false ∧ cold.rst.perstHigh = false ∧ cold.idn.tapHolds = false ∧ s.rst.perstHigh = true ∧ s.idn.tapCoreHeld = false) ∧
    ((tap .extest false).idn.tap ≠ .idcode ∧ (tap .extest false).idn.tap ≠ .bypass ∧ (tap .extest false).idn.tap ≠ .sample ∧
      (tap .extest false).idn.tapCoreHeld = false) ∧
    (let u : State := { tap .extest true with rst := { s.rst with phase := .pd0Ready } }
     u.idn.tapCoreHeld = true ∧ u.rst.perstHigh = true ∧ u.rst.stopped = false ∧ u.rst.phase = .pd0Ready) := by
  refine ⟨?_, ?_, ?_, ?_, ⟨by decide +kernel, primer0, by decide +kernel, by decide +kernel, by decide +kernel⟩, ?_, ?_, ?_, ?_, ?_⟩
  all_goals decide +kernel

theorem witness_RegisterAccesses :
    let s := base id
    let flr : State := { s with hpt := { s.hpt with flr := true } }
    let cold := s.setDom 4 { s.dom 4 with state := .off }
    (flr.hpt.flr = true ∧ s.hpt.flr = false ∧ s.hpt.d3hot = false ∧ s.domOn 2 = true ∧ cold.domOn 4 = false ∧ cold.hpt.flr = false) ∧
    ((0x130009 : W32).toNat % 4 ≠ 0 ∧ (0x5104C4 : W32).toNat = 0x510000 + 0x104 + 0x40 * 15) ∧
    (∀ o ∈ [0x130008, 0x130010, 0x130020, 0x110010, 0x118000, 0x118000 + 4 * 8191, 0x140010, 0x130018, 0x120100, 0x120100 + 4 * 15],
      writeTaken s 0 o) ∧
    writeTaken s 2 0x200000 ∧ writeTaken s 2 0x8010 ∧ writeTaken s 3 (0x310040 + 8 * 7) ∧ writeTaken s 13 0x400020 ∧ writeTaken s 13 0x400024 ∧
    writeTaken s 4 (0x510104 + 0x40 * 15) ∧ writeTaken s 4 (0x510108 + 0x40 * 15) ∧ writeTaken s (10 + 9 * 4) (0x1000008 + 0x400000 * 4) := by
  unfold writeTaken
  decide +kernel

theorem witness_IdleStepPassesOneCycle :
    (base id).pending = [] ∧ (base id).rst.pd0Ready = true ∧ (rstS fun r => { r with pd0Ready := false }).rst.pd0Ready = false := by decide +kernel

theorem witness_EveryStepKeepsMemoriesCanonical :
    memoriesCanonical (base id) ∧ ∃ t, step (base id) = .next t := ⟨by unfold memoriesCanonical; decide +kernel, _, rfl⟩

theorem witness_FusesAndQueueStand : (∃ t, exec .firmwareHeartbeat (base id) = .next t) ∧ loadsFuses .firmwareHeartbeat = false := ⟨⟨_, rfl⟩, rfl⟩

theorem witness_OnlyResetsMoveTheResetState : (∃ t, exec .firmwareHeartbeat (base id) = .next t) ∧ movesReset .firmwareHeartbeat = false :=
  ⟨⟨_, rfl⟩, rfl⟩

theorem witness_EventControllerReturnsToReset :
    (∀ conv, (latchS conv 0).rst.stopped = false ∧ (latchS conv 0).rst.phase = .drain conv) ∧
    ((rstS fun r => { r with phase := .held false }).rst.stopped = false ∧ (rstS fun r => { r with phase := .held false }).rst.phase = .held false) ∧
    ({ base id with hpt := { (base id).hpt with flr := true } } : State).hpt.flr = true := by decide +kernel

theorem witness_DustSheetedUnitsStayQuiet :
    let s : State := { base id with flt := { (base id).flt with dust := [.engine 3] } }
    (2 : BitVec 2) ≠ 1 ∧ (3 : BitVec 2) ≠ 1 ∧ srcUnit 6 19 = true ∧ s.covered 6 19 = true ∧ s.flt.makeGood = none := by decide +kernel

theorem witness_ResetsThatMeet :
    let h := fun st low => rstS fun r => { r with phase := .held false, stopped := st, warmLow := low }
    let d := rstS fun r => { r with phase := .drain false, warmLow := true }
    (d.rst.phase = .drain false ∧ d.rst.stopped = false ∧ d.rst.warmLow = true ∧ d.rst.pd0Ready = true) ∧
    ((h false false).rst.phase = .held false ∧ (h false false).rst.stopped = false) ∧
    ((bgS (bg0 0xC033 .warmReset none)).mail.bg = some (bg0 0xC033 .warmReset none)) ∧
    ((h true false).rst.stopped = true ∧ (h true false).rst.phase ≠ .porLow) ∧
    ((base id).rst.pwrgd = true ∧ (rstS fun r => { r with pwrgd := false }).rst.pwrgd = false) := by
  refine ⟨?_, ?_, ?_, ?_, ?_⟩
  all_goals decide +kernel

end Sys2Proof.Tests
end

section
/-! PROOFS. What an event of a unit under a dust sheet does (15_faults_and_dust_sheets.md R399, R400). The collector notes the source's
level and detail and its sticky bit, and stops there: State.shows is that note, and its laws give the rule. -/
namespace Sys2Proof.Machine

/-! ### One bit of a word set to 1 -/

/-- Setting bit i changes that bit alone. -/
theorem bit_setBit_true {w : Nat} (v : BitVec w) (i j : Nat) (hi : i < w) :
    bit (setBit v i true) j = (decide (j = i) || bit v j) := by
  have hw : 2 ^ i < 2 ^ w := Nat.pow_lt_pow_right (by omega) hi
  have hm : BitVec.ofNat w (2 ^ i) = BitVec.twoPow w i := by
    rw [← BitVec.toNat_inj, BitVec.toNat_ofNat, BitVec.toNat_twoPow]
  by_cases hj : j = i
  · simp [bit, setBit, setBits, hm, hj, hi]
  · have hlt : v.getLsbD j = true → j < w := BitVec.lt_of_getLsbD
    simpa [bit, setBit, setBits, hm, hj, Ne.symm hj, BitVec.getLsbD_twoPow] using hlt

/-! ### The sticky bits (R399) -/

/-- Whether the sticky bit of a source is set. -/
def State.sticky (s : State) (g u k : Nat) : Prop :=
  bit (Tab.get 0 s.flt.sticky (512 * g + (u * 8 + k) / 32)) ((u * 8 + k) % 32) = true

theorem State.sticky_stick (s : State) (g u k : Nat) : (s.stick g u k).sticky g u k := by
  simp [State.sticky, State.stick, bit_setBit_true _ _ _ (Nat.mod_lt (u * 8 + k) (by decide : 0 < 32))]

/-- Setting one source's sticky bit clears none. -/
theorem State.sticky_stick_of_sticky (s : State) (g u k g' u' k' : Nat) (h : s.sticky g' u' k') : (s.stick g u k).sticky g' u' k' := by
  unfold State.sticky State.stick at *
  rw [Tab.get_set]
  split
  next hw => rw [bit_setBit_true _ _ _ (Nat.mod_lt _ (by decide)), ← hw, h, Bool.or_true]
  next => exact h

/-! ### What the collector notes of an event -/

/-- The state in which a source shows error: its level, its detail and its sticky bit. -/
def State.shows (s : State) (g u k : Nat) (d : W64) : State :=
  (s.setSrc g u k { s.srcSt g u k with level := true, detail := d }).stick g u k

@[simp] theorem State.shows_makeGood (s : State) (g u k : Nat) (d : W64) : (s.shows g u k d).flt.makeGood = s.flt.makeGood := rfl

/-- Whether a unit is under a dust sheet is not told by what the collector notes of a source. -/
@[simp] theorem State.shows_covered (s : State) (g u k : Nat) (d : W64) (g' u' : Nat) :
    (s.shows g u k d).covered g' u' = s.covered g' u' := rfl

theorem State.sticky_shows (s : State) (g u k : Nat) (d : W64) : (s.shows g u k d).sticky g u k := State.sticky_stick _ g u k

theorem State.sticky_shows_of_sticky (s : State) (g u k : Nat) (d : W64) {g' u' k' : Nat} (h : s.sticky g' u' k') :
    (s.shows g u k d).sticky g' u' k' :=
  State.sticky_stick_of_sticky _ g u k g' u' k' h

theorem State.inTest_of_no_test (s : State) (g u : Nat) (h : s.flt.makeGood = none) : s.inTest g u = false := by
  simp [State.inTest, h]

/-- R400: while no MAKE_GOOD runs, an event of a unit under a dust sheet is noted, and that is all. -/
theorem State.faultEvent_of_covered (s : State) (g u k : Nat) (rail : Bool) (oclk d : W64) (hm : s.flt.makeGood = none)
    (hc : s.covered g u = true) : s.faultEvent g u k rail oclk d = s.shows g u k d := by
  have hi : (s.setSrc g u k { s.srcSt g u k with level := true, detail := d }).inTest g u = false := State.inTest_of_no_test _ g u hm
  have hs : ((s.setSrc g u k { s.srcSt g u k with level := true, detail := d }).stick g u k).covered g u = true := hc
  simp only [State.faultEvent, State.shows, hi, hs, Bool.false_eq_true, if_false, if_true]

/-! ### States that differ in what the collector notes of sources -/

/-- The later state is the earlier one but for sticky bits and for the level and detail that the collector holds of sources. -/
structure NotesOnly (s t : State) : Prop where
  frame : t = { s with flt := { s.flt with sticky := t.flt.sticky, src := t.flt.src } }
  source : ∀ g u k, ({ t.srcSt g u k with level := (s.srcSt g u k).level, detail := (s.srcSt g u k).detail } : SrcState) = s.srcSt g u k

theorem NotesOnly.trans {s t r : State} (h : NotesOnly s t) (h' : NotesOnly t r) : NotesOnly s r where
  frame := by rw [h'.frame, h.frame]
  source g u k := by rw [← h.source g u k, ← h'.source g u k]

theorem State.shows_notesOnly (s : State) (g u k : Nat) (d : W64) : NotesOnly s (s.shows g u k d) where
  frame := rfl
  source g' u' k' := by
    show ({ Tab.get SrcState.init (Tab.set SrcState.init s.flt.src (srcKey g u k) _) (srcKey g' u' k') with
      level := _, detail := _ } : SrcState) = _
    rw [Tab.get_set]
    split
    next hk => simp only [State.srcSt, hk]
    next => rfl

/-! ### The command -/

/-- FAULT_SOURCE_EVENT for a source of the device that shows error: the event, and a rail fault's event of kind 7 after it (R397). -/
theorem exec_faultSourceEvent_of_error (s : State) (src : Src) (rails : BitVec 2) (oclk d : W64) (hr : rails ≠ 1)
    (hu : srcUnit src.g.toNat src.u.toNat = true)
    (h3 : ¬(src.g.toNat = 0 ∧ ((s.blk (src.u.toNat / 17)).cell (src.u.toNat % 17)).state = 3)) :
    exec (.faultSourceEvent src rails oclk d) s = .next (
      let rail := rails == 0 || rails == 3
      let s1 := s.faultEvent src.g.toNat src.u.toNat src.k.toNat rail oclk d
      if rail ∧ src.k ≠ 7 then s1.faultEvent src.g.toNat src.u.toNat 7 true oclk 0 else s1) := by
  have hs : ¬(rails = 1 ∨ srcUnit src.g.toNat src.u.toNat = false ∨
      (src.g.toNat = 0 ∧ ((s.blk (src.u.toNat / 17)).cell (src.u.toNat % 17)).state.toNat = 3)) := by
    rintro (h | h | ⟨hg, h⟩)
    · exact hr h
    · simp [hu] at h
    · exact h3 ⟨hg, BitVec.eq_of_toNat_eq h⟩
  exact congrArg Host.Outcome.next (if_neg hs)

/-- R397, R400: under a dust sheet the event is only noted; the note covers no unit and uncovers none, so the event of kind 7 that a rail
fault brings is only noted too. -/
theorem exec_faultSourceEvent_of_covered (s : State) (src : Src) (rails : BitVec 2) (oclk d : W64) (hr : rails ≠ 1)
    (hu : srcUnit src.g.toNat src.u.toNat = true)
    (h3 : ¬(src.g.toNat = 0 ∧ ((s.blk (src.u.toNat / 17)).cell (src.u.toNat % 17)).state = 3))
    (hm : s.flt.makeGood = none) (hc : s.covered src.g.toNat src.u.toNat = true) :
    exec (.faultSourceEvent src rails oclk d) s = .next (
      let s1 := s.shows src.g.toNat src.u.toNat src.k.toNat d
      if (rails = 0 ∨ rails = 3) ∧ src.k ≠ 7 then s1.shows src.g.toNat src.u.toNat 7 0 else s1) := by
  rw [exec_faultSourceEvent_of_error s src rails oclk d hr hu h3]
  simp only [State.faultEvent_of_covered, State.shows_makeGood, State.shows_covered, hm, hc, Bool.or_eq_true, beq_iff_eq]

/-- Settles O59. The state after is the one in which the source shows error, and with a rail fault kind 7 of its unit as well. -/
theorem dustSheetedUnitsStayQuiet : Obligations.DustSheetedUnitsStayQuiet := by
  intro s src rails oclk d g u sticks hr hu hc hm h3
  have hx := exec_faultSourceEvent_of_covered s src rails oclk d hr hu h3 hm hc
  have n1 := s.shows_notesOnly g u src.k.toNat d
  have k1 := s.sticky_shows g u src.k.toNat d
  by_cases hk : (rails = 0 ∨ rails = 3) ∧ src.k ≠ 7
  case pos =>
    have n2 := n1.trans (State.shows_notesOnly _ g u 7 0)
    have k2 := (s.shows g u src.k.toNat d).sticky_shows g u 7 0
    exact ⟨_, hx.trans (congrArg _ (if_pos hk)), n2.frame, State.sticky_shows_of_sticky _ _ _ _ _ k1, fun _ => k2, n2.source⟩
  case neg =>
    refine ⟨_, hx.trans (congrArg _ (if_neg hk)), n1.frame, k1, fun h => ?_, n1.source⟩
    have h7 : src.k = 7 := Classical.byContradiction fun hne => hk ⟨h, hne⟩
    have h7n : src.k.toNat = 7 := congrArg BitVec.toNat h7
    show State.sticky _ g u 7
    rw [← h7n]
    exact k1

end Sys2Proof.Machine
end

section
/-! PROOFS. Which parts of the state the caches, the homes, the stack link and the snag queue leave alone, and with it that the event
controller stands at its reset values after every reset and after an FLR (16_stolpel_and_events.md R446). -/
namespace Sys2Proof.Machine

/-! ### The controllers -/

/-- The parts of the state that neither the memory system nor the snag queue writes: the waiting commands, the mailboxes, the event
controller, the power controller, the resets, and the identity with its fuses. -/
structure Controllers where
  pending : List Instr
  mail : Mail
  evt : Events
  pwr : Power
  rst : Reset
  idn : Identity

/-- The controllers of a state. -/
def State.controllers (s : State) : Controllers :=
  { pending := s.pending, mail := s.mail, evt := s.evt, pwr := s.pwr, rst := s.rst, idn := s.idn }

/-- States with the same controllers have the same event controller. -/
theorem State.evt_eq_of_controllers_eq {s t : State} (h : t.controllers = s.controllers) : t.evt = s.evt :=
  congrArg Controllers.evt h

/-- A record update of the other parts leaves the controllers. -/
@[simp] theorem State.controllers_update (s : State) (sent : List Emit) (free : Nat) (blocks : Blocks) (coh : Coh) (stk : Stacks)
    (hpt : HostPort) (xlt : Xlt) (que : Queues) (net : Net) (col : Coll) (skm : Skim) (flt : Faults) (snag : Snag) :
    ({ s with sent := sent, free := free, blocks := blocks, coh := coh, stk := stk, hpt := hpt, xlt := xlt, que := que, net := net,
              col := col, skm := skm, flt := flt, snag := snag } : State).controllers = s.controllers := rfl

@[simp] theorem State.setBlk_controllers (s : State) (b : Nat) (x : Block) : (s.setBlk b x).controllers = s.controllers := rfl
@[simp] theorem State.setThr_controllers (s : State) (b t : Nat) (x : Thread) : (s.setThr b t x).controllers = s.controllers := rfl
@[simp] theorem State.setBc_controllers (s : State) (b : Nat) (x : BCache) : (s.setBc b x).controllers = s.controllers := rfl
@[simp] theorem State.setRc_controllers (s : State) (r : Nat) (x : RCache) : (s.setRc r x).controllers = s.controllers := rfl
@[simp] theorem State.setWc_controllers (s : State) (r : Nat) (x : List WLine) : (s.setWc r x).controllers = s.controllers := rfl
@[simp] theorem State.setMport_controllers (s : State) (p : Nat) (x : Port) : (s.setMport p x).controllers = s.controllers := rfl
@[simp] theorem State.setLg_controllers (s : State) (g : Nat) (x : LinkGroup) : (s.setLg g x).controllers = s.controllers := rfl
@[simp] theorem State.setQ_controllers (s : State) (q : Nat) (x : Queue) : (s.setQ q x).controllers = s.controllers := rfl
@[simp] theorem State.setEng_controllers (s : State) (e : Nat) (x : Engine) : (s.setEng e x).controllers = s.controllers := rfl
@[simp] theorem State.setCeng_controllers (s : State) (r : Nat) (x : CollEngine) : (s.setCeng r x).controllers = s.controllers := rfl
@[simp] theorem State.setLane_controllers (s : State) (l : Nat) (x : Lane) : (s.setLane l x).controllers = s.controllers := rfl
@[simp] theorem State.setBline_controllers (s : State) (b : Nat) (l : LineId) (x : Option BLine) :
    (s.setBline b l x).controllers = s.controllers := rfl
@[simp] theorem State.setRline_controllers (s : State) (r : Nat) (l : LineId) (x : Option RLine) :
    (s.setRline r l x).controllers = s.controllers := rfl
@[simp] theorem State.setTxn_controllers (s : State) (r : Nat) (l : LineId) (x : Txn) : (s.setTxn r l x).controllers = s.controllers := rfl
@[simp] theorem State.emit_controllers (s : State) (e : Emit) : (s.emit e).controllers = s.controllers := rfl
@[simp] theorem State.emits_controllers (s : State) (l : List Emit) : (s.emits l).controllers = s.controllers := rfl
@[simp] theorem State.event_controllers (s : State) (n : Nat) : (s.event n).controllers = s.controllers := rfl
@[simp] theorem State.offered_controllers (s : State) (w : BitVec 512) : (s.offered w).controllers = s.controllers := rfl
@[simp] theorem State.snagLost_controllers (s : State) (c : Nat) : (s.snagLost c).controllers = s.controllers := rfl
@[simp] theorem State.biSnoop_controllers (s : State) (r : Nat) (inval cur : Bool) (l : LineId) :
    (s.biSnoop r inval cur l).controllers = s.controllers := rfl
@[simp] theorem State.hush_controllers (s : State) (g seq : Nat) : (s.hush g seq).controllers = s.controllers := rfl
@[simp] theorem State.stopQ_controllers (s : State) (q i : Nat) : (s.stopQ q i).controllers = s.controllers := rfl
@[simp] theorem State.updCmd_controllers (s : State) (q slot : Nat) (f : Cmd → Cmd) : (s.updCmd q slot f).controllers = s.controllers := rfl
@[simp] theorem State.editPiece_controllers (s : State) (e q slot off : Nat) (f : Piece → Piece) :
    (s.editPiece e q slot off f).controllers = s.controllers := rfl
@[simp] theorem State.updAcc_controllers (s : State) (b t id : Nat) (f : Acc → Acc) : (s.updAcc b t id f).controllers = s.controllers := rfl
@[simp] theorem State.setResv_controllers (s : State) (b t : Nat) (g : Target) : (s.setResv b t g).controllers = s.controllers := rfl
@[simp] theorem State.abortKernel_controllers (s : State) (q slot : Nat) (st : Byte) (info : W64) :
    (s.abortKernel q slot st info).controllers = s.controllers := rfl
@[simp] theorem State.writeThrough_controllers (s : State) (l : LineId) (m : LineMask) (d : Line) (k : Nat) :
    (s.writeThrough l m d k).controllers = s.controllers := rfl
@[simp] theorem State.predict_controllers (s : State) (b : Nat) (l : LineId) (up : Bool) :
    (s.predict b l up).controllers = s.controllers := rfl
@[simp] theorem State.seat_controllers (s : State) (r : Nat) (l : LineId) (e : RLine) : (s.seat r l e).controllers = s.controllers := rfl

@[simp] theorem State.ite_controllers (c : Prop) [Decidable c] (s t : State) :
    (if c then s else t).controllers = if c then s.controllers else t.controllers := apply_ite _ _ _ _

@[simp] theorem snd_ite_controllers {α : Type} (c : Prop) [Decidable c] (x y : α × State) :
    (if c then x else y).2.controllers = if c then x.2.controllers else y.2.controllers :=
  apply_ite (fun z : α × State => z.2.controllers) _ _ _

/-- A fold keeps what each of its steps keeps. -/
theorem foldl_keeps {σ α β : Type} (g : σ → β) (f : σ → α → σ) (h : ∀ t x, g (f t x) = g t) (l : List α) (s : σ) :
    g (l.foldl f s) = g s := by
  induction l generalizing s with
  | nil => rfl
  | cons x l ih => rw [List.foldl_cons, ih, h]

theorem foldl_controllers {α : Type} (l : List α) (f : State → α → State) (s : State)
    (h : ∀ t x, (f t x).controllers = t.controllers) : (l.foldl f s).controllers = s.controllers := foldl_keeps _ f h l s

theorem State.each_controllers {α : Type} (s : State) (l : List α) (f : State → α → State)
    (h : ∀ t x, (f t x).controllers = t.controllers) : (s.each l f).controllers = s.controllers := foldl_keeps _ f h l s

/-! ### Memory behind the caches, reservations and copies -/

@[simp] theorem State.setBacking_controllers (s : State) (host : Bool) (m : Memory) :
    (s.setBacking host m).controllers = s.controllers := by
  cases host <;> rfl

@[simp] theorem State.loseResv_controllers (s : State) (b : Nat) (l : LineId) (secs : BitVec 4) :
    (s.loseResv b l secs).controllers = s.controllers := by
  refine State.each_controllers _ _ _ fun t k => ?_
  split <;> simp

@[simp] theorem State.dropCopies_controllers (s : State) (l : LineId) (secs : BitVec 4) (keep : Option Nat) :
    (s.dropCopies l secs keep).controllers = s.controllers := by
  refine State.each_controllers _ _ _ fun t b => ?_
  repeat' split
  all_goals simp

@[simp] theorem State.dropHomeResv_controllers (s : State) (r : Nat) (p : HomeResv → Bool) :
    (s.dropHomeResv r p).controllers = s.controllers := by
  unfold State.dropHomeResv
  dsimp only
  split <;> simp

@[simp] theorem State.breakResv_controllers (s : State) (l : LineId) (secs : BitVec 4) (by' : Option (Nat × Nat)) :
    (s.breakResv l secs by').controllers = s.controllers := by
  unfold State.breakResv
  refine (State.each_controllers _ _ _ fun t r => State.dropHomeResv_controllers t r _).trans ?_
  refine State.each_controllers _ _ _ fun t e => ?_
  repeat' split
  all_goals simp

@[simp] theorem State.issueStack_controllers (s : State) (mp id : Nat) (op : StackOp) :
    (s.issueStack mp id op).controllers = s.controllers := by
  unfold State.issueStack
  dsimp only
  split <;> simp

@[simp] theorem State.stackSend_controllers (s : State) (mp : Nat) (op : StackOp) :
    (s.stackSend mp op).2.controllers = s.controllers := by
  simp [State.stackSend]

@[simp] theorem State.toStack_controllers (s : State) (l : LineId) (mask : LineMask) (d : Line) (pois : BitVec 4) :
    (s.toStack l mask d pois).controllers = s.controllers := by
  unfold State.toStack
  repeat' split
  all_goals simp

@[simp] theorem State.putBehind_controllers (s : State) (l : LineId) (mask : LineMask) (d : Line) (pois : BitVec 4) :
    (s.putBehind l mask d pois).controllers = s.controllers := by
  unfold State.putBehind
  split <;> simp

@[simp] theorem State.putHome_controllers (s : State) (l : LineId) (secs : BitVec 4) (d : Line) (pois : BitVec 4) :
    (s.putHome l secs d pois).controllers = s.controllers := by
  unfold State.putHome
  repeat' split
  all_goals simp

@[simp] theorem State.cohLine_controllers (s : State) (l : LineId) (mask : LineMask) (d : Line) (bad : BitVec 4) (by' : Option (Nat × Nat)) :
    (s.cohLine l mask d bad by').controllers = s.controllers := by
  unfold State.cohLine
  extract_lets secs now whole nd np own s0 s1 s2
  have h0 : s0.controllers = s.controllers := foldl_controllers _ _ _ fun t b => by split <;> simp
  have h2 : s2.controllers = s.controllers := by
    unfold s2 s1
    repeat' split
    all_goals simp [h0]
  clear_value s2
  repeat' split
  all_goals simp [h2]

/-! ### What a home asks of a line's holders, and the writes of the device's units -/

@[simp] theorem State.poisonLine_controllers (s : State) (r : Nat) (l : LineId) (secs : BitVec 4) (count : Bool) :
    (s.poisonLine r l secs count).controllers = s.controllers := by
  unfold State.poisonLine
  split <;> simp

@[simp] theorem State.setHold_controllers (s : State) (r : Nat) (l : LineId) (h : BitVec 2) :
    (s.setHold r l h).controllers = s.controllers := by
  unfold State.setHold
  split <;> simp

@[simp] theorem State.freeHold_controllers (s : State) (r : Nat) (l : LineId) : (s.freeHold r l).controllers = s.controllers := by
  unfold State.freeHold
  split <;> simp

@[simp] theorem State.askHolders_controllers (s : State) (r : Nat) (l : LineId) (inval cur : Bool) (w : List Expect × List Emit) :
    (s.askHolders r l inval cur w).2.controllers = s.controllers := by
  simp [State.askHolders]

@[simp] theorem State.postLine_controllers (s : State) (l : LineId) (mask : LineMask) (d : Line) (bad : BitVec 4) :
    (s.postLine l mask d bad).controllers = s.controllers := by
  unfold State.postLine
  split
  · simp
  · extract_lets +onlyGivenNames req
    split
    · simp
    · extract_lets +onlyGivenNames w a
      have h : a.2.controllers = s.controllers := by simp [a]
      simp [h]

@[simp] theorem State.ioLine_controllers (s : State) (l : LineId) (mask : LineMask) (d : Line) (bad : BitVec 4) :
    (s.ioLine l mask d bad).controllers = s.controllers := by
  unfold State.ioLine
  extract_lets secs now np s1
  have h1 : s1.controllers = s.controllers := by simp [s1]
  clear_value s1
  repeat' split
  all_goals simp [h1]

@[simp] theorem State.unitWrite_controllers (s : State) (host : Bool) (a : Nat) (bs : List Byte) (bad : Nat → BitVec 4) :
    (s.unitWrite host a bs bad).controllers = s.controllers := by
  refine State.each_controllers _ _ _ fun t p => ?_
  split <;> simp

@[simp] theorem State.cohWrite_controllers (s : State) (host : Bool) (a : Nat) (bs : List Byte) :
    (s.cohWrite host a bs).controllers = s.controllers := State.unitWrite_controllers s host a bs _

/-! ### The snag queue -/

@[simp] theorem State.ringWrite_controllers (s : State) (w : BitVec 512) : (s.ringWrite w).controllers = s.controllers := by
  simp [State.ringWrite]

@[simp] theorem State.endKernelBy_controllers (s : State) (b t : Nat) : (s.endKernelBy b t).controllers = s.controllers := by
  unfold State.endKernelBy
  dsimp only
  split <;> simp

@[simp] theorem State.recordFreed_controllers (s : State) (th : Option (Nat × Nat)) : (s.recordFreed th).controllers = s.controllers := by
  unfold State.recordFreed
  split <;> simp

@[simp] theorem State.snagDrain_controllers (n : Nat) (s : State) : (State.snagDrain n s).controllers = s.controllers := by
  induction n generalizing s with
  | zero => rfl
  | succ n ih =>
    unfold State.snagDrain
    repeat' split
    all_goals simp [ih]

@[simp] theorem State.offer_controllers (s : State) (r : Rec) (th : Option (Nat × Nat)) : (s.offer r th).controllers = s.controllers := by
  unfold State.offer
  extract_lets +onlyGivenNames s1 s' w s2 snag s3
  have h : s'.controllers = s.controllers := by simp [s', s1]
  have h3 : s3.controllers = s.controllers := by simp [s3, s2, h]
  simp [h, h3]

/-! ### A queue's commands and a unit's accesses -/

@[simp] theorem State.abandonArm_controllers (s : State) (q slot : Nat) : (s.abandonArm q slot).controllers = s.controllers := by
  have freed (t : State) (l : Nat) : (t.each (List.range 100) (fun u b => if (u.blk b).reserved = some l then
      u.setBlk b { u.blk b with reserved := none, state := if (u.blk b).state = .skim then .idle else (u.blk b).state } else u)).controllers =
      t.controllers := State.each_controllers _ _ _ (by simp)
  refine State.each_controllers _ _ _ fun t l => ?_
  dsimp only
  rw [State.ite_controllers]
  split
  · rfl
  · split <;> simp [freed]

@[simp] theorem State.abortCmd_controllers (s : State) (q : Nat) (st : Byte) (c : Cmd) :
    (s.abortCmd q st c).controllers = s.controllers := by
  have hushed (t : State) (r : Nat) : (((t.ceng r).members.filter (fun m => m.q == q && m.slot == c.slot)).foldl
      (fun u m => u.hush m.group m.seq.toNat) (t.setCeng r { t.ceng r with
        members := (t.ceng r).members.filter (fun m => !(m.q == q && m.slot == c.slot)) })).controllers = t.controllers :=
    foldl_controllers _ _ _ fun _ _ => rfl
  unfold State.abortCmd
  simp only [State.ite_controllers, State.updCmd_controllers, State.abortKernel_controllers, State.abandonArm_controllers,
    State.each_controllers _ _ _ hushed, ite_self]

@[simp] theorem State.abortCmds_controllers (s : State) (q : Nat) (st : Byte) : (s.abortCmds q st).controllers = s.controllers :=
  State.each_controllers _ _ _ fun t c => State.abortCmd_controllers t q st c

@[simp] theorem State.hostStop_controllers (s : State) (q : Nat) : (s.hostStop q).controllers = s.controllers := by
  unfold State.hostStop
  split <;> simp

@[simp] theorem State.unitGot_controllers (s : State) (own : Own) (at' : Nat) (bs : List Byte) (bad : List Bool) :
    (s.unitGot own at' bs bad).controllers = s.controllers := by
  unfold State.unitGot
  split <;> simp

@[simp] theorem State.unitFail_controllers (s : State) (own : Own) (op : UnitOp) (st : Byte) :
    (s.unitFail own op st).controllers = s.controllers := by
  unfold State.unitFail
  split <;> simp

/-! ### Tags that leave a region cache, and ways that make room -/

@[simp] theorem State.releaseSecs_controllers (s : State) (r : Nat) (l : LineId) (secs : BitVec 4) :
    (s.releaseSecs r l secs).controllers = s.controllers := by
  unfold State.releaseSecs
  split
  · rfl
  · dsimp only
    rw [State.setRline_controllers, foldl_controllers _ _ _ (by simp), foldl_controllers _ _ _ (by simp)]

@[simp] theorem State.dropNow_controllers (s : State) (r : Nat) (l : LineId) : (s.dropNow r l).controllers = s.controllers := by
  unfold State.dropNow
  extract_lets s0 s1
  have h0 : s0.controllers = s.controllers := foldl_controllers _ _ _ fun t b => by split <;> simp
  have h1 : s1.controllers = s.controllers := by simp [s1, h0]
  clear_value s1
  repeat' split
  all_goals simp [h1]

@[simp] theorem State.startEvict_controllers (s : State) (r : Nat) (l : LineId) : (s.startEvict r l).controllers = s.controllers := by
  unfold State.startEvict
  split <;> simp

@[simp] theorem State.freeWay_controllers (s : State) (r set way : Nat) : (s.freeWay r set way).2.controllers = s.controllers := by
  unfold State.freeWay
  split <;> simp

@[simp] theorem State.freeData_controllers (s : State) (r set way : Nat) : (s.freeData r set way).2.controllers = s.controllers := by
  unfold State.freeData
  split
  · rfl
  · simp only [snd_ite_controllers, State.freeWay_controllers]
    repeat' split
    all_goals simp

@[simp] theorem State.allocTag_controllers (s : State) (r : Nat) (l : LineId) : (s.allocTag r l).2.controllers = s.controllers := by
  unfold State.allocTag
  extract_lets n c hosts still way
  clear_value way
  split <;> simp only [snd_ite_controllers]
  case h_1 =>
    split
    · split <;> simp
    · rfl
  case h_2 =>
    split
    · split <;> simp
    · split
      · rfl
      · split <;> simp

@[simp] theorem State.fill_controllers (s : State) (r : Nat) (l : LineId) (secs : BitVec 4) :
    (s.fill r l secs).controllers = s.controllers := by
  unfold State.fill
  split <;> simp

/-! ### Block caches and snoops that were held -/

@[simp] theorem State.mergeHome_controllers (s : State) (b : Nat) (l : LineId) : (s.mergeHome b l).controllers = s.controllers := by
  unfold State.mergeHome
  split <;> simp

@[simp] theorem State.takeBack_controllers (s : State) (b : Nat) (l : LineId) (toS : Bool) :
    (s.takeBack b l toS).controllers = s.controllers := by
  unfold State.takeBack
  split <;> simp

@[simp] theorem State.answerSnoop_controllers (s : State) (b : Nat) (c : Instr) : (s.answerSnoop b c).controllers = s.controllers := by
  unfold State.answerSnoop
  repeat' split
  all_goals simp

@[simp] theorem State.freeHeld_controllers (s : State) (b : Nat) : (s.freeHeld b).controllers = s.controllers := by
  unfold State.freeHeld
  extract_lets go stay
  split
  · rfl
  · simp [State.each_controllers]

@[simp] theorem State.clearResv_controllers (s : State) (b t : Nat) : (s.clearResv b t).controllers = s.controllers := by
  unfold State.clearResv
  dsimp only
  split
  · rfl
  · simp [State.each_controllers]

/-! ### The steps of a request at its home -/

@[simp] theorem State.openWaits_controllers (s : State) (r : Nat) (l : LineId) (q : HReq) :
    (s.openWaits r l q).2.controllers = s.controllers := by
  unfold State.openWaits
  split
  case h_1 => split <;> simp
  case h_2 =>
    split
    · split <;> rfl
    · rfl
  case h_3 =>
    split
    · rfl
    · extract_lets room
      have hroom : room.2.controllers = s.controllers := by simp [room]
      clear_value room
      simp only [snd_ite_controllers]
      split
      · rfl
      · split
        · rfl
        · split
          · exact hroom
          · split <;> simp [hroom]

@[simp] theorem State.hostWaits_controllers (s : State) (r : Nat) (l : LineId) (q : HReq) (a : Ask) :
    (s.hostWaits r l q a).2.controllers = s.controllers := by
  unfold State.hostWaits
  extract_lets +onlyGivenNames e through need kind asks
  have hasks : asks.controllers = s.controllers := by
    unfold asks
    split
    · rw [foldl_controllers _ _ _ (by simp), State.releaseSecs_controllers]
    · exact foldl_controllers _ _ _ (by simp)
  simp [hasks]

@[simp] theorem State.dataWaits_controllers (s : State) (r : Nat) (l : LineId) (q : HReq) :
    (s.dataWaits r l q).2.controllers = s.controllers := by
  unfold State.dataWaits
  split
  · rfl
  · simp only [snd_ite_controllers, State.hostWaits_controllers]
    repeat' split
    all_goals simp

@[simp] theorem State.homeAcc_controllers (s : State) (b : Nat) (c : Instr) (f : Acc → Acc) :
    (s.homeAcc b c f).controllers = s.controllers := by
  unfold State.homeAcc
  split <;> simp

@[simp] theorem State.tableResv_controllers (s : State) (r b t : Nat) (g : Target) : (s.tableResv r b t g).controllers = s.controllers := by
  unfold State.tableResv
  dsimp only
  split <;> simp

@[simp] theorem State.readThere_controllers (s : State) (r b : Nat) (l : LineId) (c : Instr) :
    (s.readThere r b l c).controllers = s.controllers := by
  refine State.each_controllers _ _ _ fun u x => ?_
  dsimp only
  repeat' split
  all_goals simp

@[simp] theorem State.feedTiles_controllers (s : State) (b : Nat) (l : LineId) : (s.feedTiles b l).controllers = s.controllers :=
  State.each_controllers _ _ _ (by simp)

/-- R155: a late report reaches its thread, and a barrier's waiting list at most. -/
@[simp] theorem State.defer_controllers (s : State) (b t : Nat) (e : Deferred) : (s.defer b t e).controllers = s.controllers := by
  unfold State.defer
  dsimp only
  split <;> simp

@[simp] theorem State.feedSems_controllers (s : State) (b : Nat) (l : LineId) : (s.feedSems b l).controllers = s.controllers := by
  refine State.each_controllers _ _ _ fun u t => ?_
  dsimp only
  split
  · rfl
  · split <;> simp

@[simp] theorem State.addPres_controllers (s : State) (r : Nat) (l : LineId) (secs : BitVec 4) (b : Nat) :
    (s.addPres r l secs b).controllers = s.controllers := by
  unfold State.addPres
  split <;> simp

@[simp] theorem State.soleHolder_controllers (s : State) (r : Nat) (l : LineId) (secs : BitVec 4) (b : Option Nat) :
    (s.soleHolder r l secs b).controllers = s.controllers := by
  unfold State.soleHolder
  split <;> simp

@[simp] theorem State.serveRead_controllers (s : State) (r b : Nat) (l : LineId) (secs : BitVec 4) (c : Instr) :
    (s.serveRead r b l secs c).controllers = s.controllers := by
  unfold State.serveRead
  extract_lets given s2 s3
  have h3 : s3.controllers = s.controllers := by
    unfold s3
    split
    · simp
    · split <;> simp [s2]
  simp [h3]

@[simp] theorem State.serveOwn_controllers (s : State) (r b : Nat) (l : LineId) (secs : BitVec 4) (c : Instr) :
    (s.serveOwn r b l secs c).controllers = s.controllers := by
  unfold State.serveOwn
  extract_lets u s1
  have h1 : s1.controllers = s.controllers := by
    unfold s1
    split
    · exact State.each_controllers _ _ _ (by simp)
    · split <;> simp [u]
  simp [h1]

@[simp] theorem State.serveWrite_controllers (s : State) (l : LineId) (m : LineMask) (d : Line) (by' : Option (Nat × Nat)) :
    (s.serveWrite l m d by').controllers = s.controllers := by
  simp [State.serveWrite]

@[simp] theorem State.serveUnit_controllers (s : State) (l : LineId) (own : Own) (op : UnitOp) :
    (s.serveUnit l own op).controllers = s.controllers := by
  unfold State.serveUnit
  dsimp only
  rw [State.ite_controllers]
  split
  · simp
  · split <;> simp

@[simp] theorem State.serve_controllers (s : State) (r : Nat) (l : LineId) (q : HReq) : (s.serve r l q).2.controllers = s.controllers := by
  unfold State.serve
  split
  case h_2 => split <;> simp
  case h_7 c =>
    split
    case h_1 hpa m =>
      extract_lets k now s1 s2 s3
      have h2 : s2.controllers = s.controllers := by simp [s2, s1]
      have h3 : s3.controllers = s.controllers := by
        unfold s3
        split
        · exact h2
        · split <;> simp [h2]
      simp [h3]
    case h_5 => split <;> simp
    case h_7 =>
      extract_lets g put
      split <;> simp [put]
    all_goals simp
  all_goals simp

/-! ### The transactions of a home -/

@[simp] theorem State.startReq_controllers (s : State) (r : Nat) (l : LineId) (q : HReq) (queued : List HReq) :
    (s.startReq r l q queued).controllers = s.controllers := by
  simp [State.startReq]

@[simp] theorem State.nextReq_controllers (r : Nat) (l : LineId) (qs : List HReq) (s : State) :
    (State.nextReq r l qs s).controllers = s.controllers := by
  induction qs generalizing s with
  | nil => rfl
  | cons q rest ih =>
    unfold State.nextReq
    repeat' split
    all_goals simp [ih]

@[simp] theorem State.reopen_controllers (s : State) (r : Nat) (x : Txn) : (s.reopen r x).controllers = s.controllers := by
  unfold State.reopen
  extract_lets l y
  have hy : y.2.controllers = s.controllers := by simp [y]
  split <;> simp [hy]

@[simp] theorem State.reopenAll_controllers (s : State) (r : Nat) (e : Expect) : (s.reopenAll r e).2.controllers = s.controllers :=
  State.each_controllers _ _ _ fun t x => State.reopen_controllers t r x

@[simp] theorem State.turn_controllers (s : State) (r k : Nat) : (s.turn r k).2.controllers = s.controllers := by
  unfold State.turn
  dsimp only
  split <;> simp

@[simp] theorem State.pump_controllers (r n : Nat) (ks : List Nat) (s : State) : (State.pump r n ks s).controllers = s.controllers := by
  induction n generalizing ks s with
  | zero => rfl
  | succ n ih =>
    cases ks with
    | nil => rfl
    | cons k ks => simp [State.pump, ih]

@[simp] theorem State.goAll_controllers (s : State) (r : Nat) (ks : List Nat) : (s.goAll r ks).controllers = s.controllers :=
  State.pump_controllers r _ ks s

@[simp] theorem State.sendLate_controllers (s : State) (r : Nat) : (s.sendLate r).controllers = s.controllers :=
  State.each_controllers _ _ _ (by simp)

@[simp] theorem State.retrySlots_controllers (s : State) (r : Nat) : (s.retrySlots r).controllers = s.controllers := by
  simp [State.retrySlots]

/-! ### The event controller after a reset (R446) -/

/-- The event controller at its reset values. -/
def Events.atReset (e : Events) : Prop :=
  (∀ n, Tab.get 0 e.cnt n = 0) ∧ e.pending = 0 ∧ e.enable = 0 ∧ e.mask = BitVec.allOnes 512 ∧ ∀ n, Tab.get 0 e.route n = 0

theorem Events.init_atReset : Events.init.atReset := ⟨fun _ => rfl, rfl, rfl, rfl, fun _ => rfl⟩

theorem State.each_evt {α : Type} (s : State) (l : List α) (f : State → α → State) (h : ∀ t x, (f t x).evt = t.evt) :
    (s.each l f).evt = s.evt := foldl_keeps State.evt f h l s

/-- POR_N's fall. -/
theorem State.powerOn_evt (s : State) (supply : Bool) : (s.powerOn supply).evt = Events.init :=
  State.each_evt _ _ _ (by simp)

@[simp] theorem State.corePower_evt (s : State) (conv : Bool) : (s.corePower conv).evt = s.evt := by
  unfold State.corePower
  dsimp only
  split
  · exact State.each_evt _ _ _ (by simp)
  · rfl

/-- The reset of the core, warm and conventional: the event controller goes with the engines, and nothing after them writes it. -/
@[simp] theorem State.resetCore_evt (s : State) (conv : Bool) : (s.resetCore conv).evt = Events.init :=
  State.corePower_evt _ conv

@[simp] theorem State.startCore_evt (s : State) : s.startCore.evt = s.evt := rfl

@[simp] theorem State.releaseCore_evt (s : State) : s.releaseCore.evt = s.evt := by
  unfold State.releaseCore
  split <;> simp

/-- The end of the drain of a warm or conventional reset, and the start that may follow at once. -/
theorem exec_warmResetDrainDeadline_evt (s : State) (conv : Bool) (hs : s.rst.stopped = false) (hp : s.rst.phase = .drain conv) :
    ∃ t, exec .warmResetDrainDeadline s = .next t ∧ t.evt = Events.init := by
  refine ⟨_, rfl, ?_⟩
  simp only [hs, hp, Bool.false_eq_true, if_false]
  split <;> simp [apply_ite State.evt]

/-- PERST_N's fall while a warm reset is held. -/
theorem exec_conventionalReset_evt_of_held (s : State) (hs : s.rst.stopped = false) (hp : s.rst.phase = .held false) :
    ∃ t, exec .conventionalReset s = .next t ∧ t.evt = Events.init := by
  refine ⟨_, rfl, ?_⟩
  simp [hs, hp]

/-- The end of an FLR: the defaults come first; the record and the requests that go on after them leave the event controller. -/
theorem exec_flrComplete_evt (s : State) (hf : s.hpt.flr = true) : ∃ t, exec .flrComplete s = .next t ∧ t.evt = Events.init := by
  refine ⟨_, congrArg Host.Outcome.next (if_neg (by simp [hf])), ?_⟩
  extract_lets before s0 s1 hpt idn s2 s3
  have hretry : (s3.each (List.range 5) State.retrySlots).controllers = s3.controllers :=
    State.each_controllers _ _ _ State.retrySlots_controllers
  calc (s3.each (List.range 5) State.retrySlots).evt
    _ = s3.evt := State.evt_eq_of_controllers_eq hretry
    _ = s2.evt := State.evt_eq_of_controllers_eq (State.offer_controllers _ _ _)
    _ = Events.init := rfl

/-- Settles O58: each of the resets and the FLR ends in a state whose event controller is the one at reset. -/
theorem eventControllerReturnsToReset : Obligations.EventControllerReturnsToReset := by
  intro s supply conv reset
  have back {c : Instr} : (∃ t, exec c s = .next t ∧ t.evt = Events.init) → ∃ t, exec c s = .next t ∧ reset t := by
    rintro ⟨t, ht, he⟩
    have h : t.evt.atReset := he ▸ Events.init_atReset
    exact ⟨t, ht, h⟩
  exact ⟨back ⟨_, rfl, State.powerOn_evt s supply⟩, fun hs hp => back (exec_warmResetDrainDeadline_evt s conv hs hp),
    fun hs hp => back (exec_conventionalReset_evt_of_held s hs hp), fun hf => back (exec_flrComplete_evt s hf)⟩

end Sys2Proof.Machine
end

section
/-! PROOFS. The collector's clock: the caches, the homes, the stack link, the queues and the snag queue leave FLT_OCLK alone, so that an event
that they lead to is reported at the time at which its command runs (15_faults_and_dust_sheets.md R415). -/
namespace Sys2Proof.Machine

/-! ### The clock, and updates of other parts -/

/-- OCLK as the collector counts it. -/
def State.oclk (s : State) : W64 := s.flt.oclk

/-- A record update of the other parts leaves the clock. -/
@[simp] theorem State.oclk_update (s : State) (pending : List Instr) (sent : List Emit) (free : Nat) (blocks : Blocks) (coh : Coh)
    (stk : Stacks) (hpt : HostPort) (xlt : Xlt) (que : Queues) (net : Net) (col : Coll) (skm : Skim) (snag : Snag) (mail : Mail)
    (evt : Events) (pwr : Power) (rst : Reset) (idn : Identity) :
    ({ s with pending := pending, sent := sent, free := free, blocks := blocks, coh := coh, stk := stk, hpt := hpt, xlt := xlt, que := que,
              net := net, col := col, skm := skm, snag := snag, mail := mail, evt := evt, pwr := pwr, rst := rst, idn := idn } : State).oclk =
      s.oclk := rfl

@[simp] theorem State.setBlk_oclk (s : State) (b : Nat) (x : Block) : (s.setBlk b x).oclk = s.oclk := rfl
@[simp] theorem State.setThr_oclk (s : State) (b t : Nat) (x : Thread) : (s.setThr b t x).oclk = s.oclk := rfl
@[simp] theorem State.setBc_oclk (s : State) (b : Nat) (x : BCache) : (s.setBc b x).oclk = s.oclk := rfl
@[simp] theorem State.setRc_oclk (s : State) (r : Nat) (x : RCache) : (s.setRc r x).oclk = s.oclk := rfl
@[simp] theorem State.setWc_oclk (s : State) (r : Nat) (x : List WLine) : (s.setWc r x).oclk = s.oclk := rfl
@[simp] theorem State.setMport_oclk (s : State) (p : Nat) (x : Port) : (s.setMport p x).oclk = s.oclk := rfl
@[simp] theorem State.setLg_oclk (s : State) (g : Nat) (x : LinkGroup) : (s.setLg g x).oclk = s.oclk := rfl
@[simp] theorem State.setQ_oclk (s : State) (q : Nat) (x : Queue) : (s.setQ q x).oclk = s.oclk := rfl
@[simp] theorem State.setEng_oclk (s : State) (e : Nat) (x : Engine) : (s.setEng e x).oclk = s.oclk := rfl
@[simp] theorem State.setCeng_oclk (s : State) (r : Nat) (x : CollEngine) : (s.setCeng r x).oclk = s.oclk := rfl
@[simp] theorem State.setLane_oclk (s : State) (l : Nat) (x : Lane) : (s.setLane l x).oclk = s.oclk := rfl
@[simp] theorem State.emit_oclk (s : State) (e : Emit) : (s.emit e).oclk = s.oclk := rfl
@[simp] theorem State.emits_oclk (s : State) (l : List Emit) : (s.emits l).oclk = s.oclk := rfl
@[simp] theorem State.snagLost_oclk (s : State) (c : Nat) : (s.snagLost c).oclk = s.oclk := rfl
@[simp] theorem State.setBline_oclk (s : State) (b : Nat) (l : LineId) (x : Option BLine) : (s.setBline b l x).oclk = s.oclk := rfl
@[simp] theorem State.setRline_oclk (s : State) (r : Nat) (l : LineId) (x : Option RLine) : (s.setRline r l x).oclk = s.oclk := rfl
@[simp] theorem State.setTxn_oclk (s : State) (r : Nat) (l : LineId) (x : Txn) : (s.setTxn r l x).oclk = s.oclk := rfl
@[simp] theorem State.event_oclk (s : State) (n : Nat) : (s.event n).oclk = s.oclk := rfl
@[simp] theorem State.offered_oclk (s : State) (w : BitVec 512) : (s.offered w).oclk = s.oclk := rfl
@[simp] theorem State.biSnoop_oclk (s : State) (r : Nat) (inval cur : Bool) (l : LineId) :
    (s.biSnoop r inval cur l).oclk = s.oclk := rfl
@[simp] theorem State.hush_oclk (s : State) (g seq : Nat) : (s.hush g seq).oclk = s.oclk := rfl
@[simp] theorem State.stopQ_oclk (s : State) (q i : Nat) : (s.stopQ q i).oclk = s.oclk := rfl
@[simp] theorem State.updCmd_oclk (s : State) (q slot : Nat) (f : Cmd → Cmd) : (s.updCmd q slot f).oclk = s.oclk := rfl
@[simp] theorem State.editPiece_oclk (s : State) (e q slot off : Nat) (f : Piece → Piece) :
    (s.editPiece e q slot off f).oclk = s.oclk := rfl
@[simp] theorem State.updAcc_oclk (s : State) (b t id : Nat) (f : Acc → Acc) : (s.updAcc b t id f).oclk = s.oclk := rfl
@[simp] theorem State.setResv_oclk (s : State) (b t : Nat) (g : Target) : (s.setResv b t g).oclk = s.oclk := rfl
@[simp] theorem State.abortKernel_oclk (s : State) (q slot : Nat) (st : Byte) (info : W64) :
    (s.abortKernel q slot st info).oclk = s.oclk := rfl
@[simp] theorem State.writeThrough_oclk (s : State) (l : LineId) (m : LineMask) (d : Line) (k : Nat) :
    (s.writeThrough l m d k).oclk = s.oclk := rfl
@[simp] theorem State.predict_oclk (s : State) (b : Nat) (l : LineId) (up : Bool) : (s.predict b l up).oclk = s.oclk := rfl
@[simp] theorem State.seat_oclk (s : State) (r : Nat) (l : LineId) (e : RLine) : (s.seat r l e).oclk = s.oclk := rfl

@[simp] theorem State.ite_oclk (c : Prop) [Decidable c] (s t : State) :
    (if c then s else t).oclk = if c then s.oclk else t.oclk := apply_ite _ _ _ _

@[simp] theorem snd_ite_oclk {α : Type} (c : Prop) [Decidable c] (x y : α × State) :
    (if c then x else y).2.oclk = if c then x.2.oclk else y.2.oclk :=
  apply_ite (fun z : α × State => z.2.oclk) _ _ _

theorem State.each_oclk {α : Type} (s : State) (l : List α) (f : State → α → State)
    (h : ∀ t x, (f t x).oclk = t.oclk) : (s.each l f).oclk = s.oclk := foldl_keeps _ f h l s

theorem foldl_oclk {α : Type} (l : List α) (f : State → α → State) (s : State)
    (h : ∀ t x, (f t x).oclk = t.oclk) : (l.foldl f s).oclk = s.oclk := foldl_keeps _ f h l s

/-! ### Memory behind the caches, reservations and copies -/

@[simp] theorem State.setBacking_oclk (s : State) (host : Bool) (m : Memory) : (s.setBacking host m).oclk = s.oclk := by
  cases host <;> rfl

@[simp] theorem State.loseResv_oclk (s : State) (b : Nat) (l : LineId) (secs : BitVec 4) : (s.loseResv b l secs).oclk = s.oclk := by
  refine State.each_oclk _ _ _ fun t k => ?_
  split <;> simp

@[simp] theorem State.dropCopies_oclk (s : State) (l : LineId) (secs : BitVec 4) (keep : Option Nat) :
    (s.dropCopies l secs keep).oclk = s.oclk := by
  refine State.each_oclk _ _ _ fun t b => ?_
  split
  · rfl
  · split <;> simp

@[simp] theorem State.dropHomeResv_oclk (s : State) (r : Nat) (p : HomeResv → Bool) : (s.dropHomeResv r p).oclk = s.oclk := by
  simp [State.dropHomeResv]

@[simp] theorem State.breakResv_oclk (s : State) (l : LineId) (secs : BitVec 4) (by' : Option (Nat × Nat)) :
    (s.breakResv l secs by').oclk = s.oclk := by
  refine (State.each_oclk _ _ _ fun t r => State.dropHomeResv_oclk t r _).trans (State.each_oclk _ _ _ fun t e => ?_)
  split
  · rfl
  · split <;> simp

@[simp] theorem State.issueStack_oclk (s : State) (mp id : Nat) (op : StackOp) : (s.issueStack mp id op).oclk = s.oclk := by
  unfold State.issueStack
  dsimp only
  split <;> simp

@[simp] theorem State.stackSend_oclk (s : State) (mp : Nat) (op : StackOp) : (s.stackSend mp op).2.oclk = s.oclk := by
  simp [State.stackSend]

@[simp] theorem State.toStack_oclk (s : State) (l : LineId) (mask : LineMask) (d : Line) (pois : BitVec 4) :
    (s.toStack l mask d pois).oclk = s.oclk := by
  unfold State.toStack
  split
  · rfl
  · simp only [State.ite_oclk, State.stackSend_oclk, State.setBacking_oclk, ite_self]

@[simp] theorem State.putBehind_oclk (s : State) (l : LineId) (mask : LineMask) (d : Line) (pois : BitVec 4) :
    (s.putBehind l mask d pois).oclk = s.oclk := by
  simp [State.putBehind]

@[simp] theorem State.putHome_oclk (s : State) (l : LineId) (secs : BitVec 4) (d : Line) (pois : BitVec 4) :
    (s.putHome l secs d pois).oclk = s.oclk := by
  unfold State.putHome
  split
  · rfl
  · split <;> simp

/-- The owners of a line give what they hold of it to its home. -/
theorem putHomes_oclk (l : LineId) (bs : List Nat) (s : State) :
    (bs.foldl (fun t b => match t.bline b l with | some x => t.putHome l x.modi x.data x.pois | none => t) s).oclk = s.oclk :=
  foldl_oclk _ _ _ fun t b => by split <;> simp

@[simp] theorem State.cohLine_oclk (s : State) (l : LineId) (mask : LineMask) (d : Line) (bad : BitVec 4) (by' : Option (Nat × Nat)) :
    (s.cohLine l mask d bad by').oclk = s.oclk := by
  unfold State.cohLine
  extract_lets secs now whole nd np own s0 s1 s2
  have h0 : s0.oclk = s.oclk := putHomes_oclk l _ s
  have h2 : s2.oclk = s.oclk := by
    unfold s2 s1
    split
    · simp [h0]
    · split <;> simp [h0]
  clear_value s2
  repeat' split
  all_goals simp [h2]

/-! ### What a home asks of a line's holders, and the writes of the device's units -/

@[simp] theorem State.poisonLine_oclk (s : State) (r : Nat) (l : LineId) (secs : BitVec 4) (count : Bool) :
    (s.poisonLine r l secs count).oclk = s.oclk := by
  unfold State.poisonLine
  split <;> simp

@[simp] theorem State.setHold_oclk (s : State) (r : Nat) (l : LineId) (h : BitVec 2) : (s.setHold r l h).oclk = s.oclk := by
  unfold State.setHold
  split <;> simp

@[simp] theorem State.freeHold_oclk (s : State) (r : Nat) (l : LineId) : (s.freeHold r l).oclk = s.oclk := by
  unfold State.freeHold
  split <;> simp

@[simp] theorem State.askHolders_oclk (s : State) (r : Nat) (l : LineId) (inval cur : Bool) (w : List Expect × List Emit) :
    (s.askHolders r l inval cur w).2.oclk = s.oclk := by
  simp [State.askHolders]

@[simp] theorem State.postLine_oclk (s : State) (l : LineId) (mask : LineMask) (d : Line) (bad : BitVec 4) :
    (s.postLine l mask d bad).oclk = s.oclk := by
  unfold State.postLine
  split
  · simp
  · dsimp only
    split <;> simp

@[simp] theorem State.ioLine_oclk (s : State) (l : LineId) (mask : LineMask) (d : Line) (bad : BitVec 4) :
    (s.ioLine l mask d bad).oclk = s.oclk := by
  unfold State.ioLine
  extract_lets secs now np s1
  have h1 : s1.oclk = s.oclk := by simp [s1]
  clear_value s1
  split
  · exact h1
  · split <;> simp [h1]

@[simp] theorem State.unitWrite_oclk (s : State) (host : Bool) (a : Nat) (bs : List Byte) (bad : Nat → BitVec 4) :
    (s.unitWrite host a bs bad).oclk = s.oclk := by
  refine State.each_oclk _ _ _ fun t p => ?_
  split <;> simp

@[simp] theorem State.cohWrite_oclk (s : State) (host : Bool) (a : Nat) (bs : List Byte) :
    (s.cohWrite host a bs).oclk = s.oclk := State.unitWrite_oclk s host a bs _

/-! ### The snag queue -/

@[simp] theorem State.ringWrite_oclk (s : State) (w : BitVec 512) : (s.ringWrite w).oclk = s.oclk := by
  simp [State.ringWrite]

@[simp] theorem State.endKernelBy_oclk (s : State) (b t : Nat) : (s.endKernelBy b t).oclk = s.oclk := by
  unfold State.endKernelBy
  dsimp only
  split <;> simp

@[simp] theorem State.recordFreed_oclk (s : State) (th : Option (Nat × Nat)) : (s.recordFreed th).oclk = s.oclk := by
  unfold State.recordFreed
  split <;> simp

@[simp] theorem State.snagDrain_oclk (n : Nat) (s : State) : (State.snagDrain n s).oclk = s.oclk := by
  induction n generalizing s with
  | zero => rfl
  | succ n ih =>
    unfold State.snagDrain
    split <;> simp [ih]

@[simp] theorem State.offer_oclk (s : State) (r : Rec) (th : Option (Nat × Nat)) : (s.offer r th).oclk = s.oclk := by
  simp [State.offer]

/-! ### A queue's commands and a unit's accesses -/

@[simp] theorem State.abandonArm_oclk (s : State) (q slot : Nat) : (s.abandonArm q slot).oclk = s.oclk := by
  refine State.each_oclk _ _ _ fun t l => ?_
  dsimp only
  rw [State.ite_oclk]
  split
  · rfl
  · split <;> simp [State.each_oclk]

@[simp] theorem State.abortCmd_oclk (s : State) (q : Nat) (st : Byte) (c : Cmd) : (s.abortCmd q st c).oclk = s.oclk := by
  have hushed (t : State) (r : Nat) : (((t.ceng r).members.filter (fun m => m.q == q && m.slot == c.slot)).foldl
      (fun u m => u.hush m.group m.seq.toNat) (t.setCeng r { t.ceng r with
        members := (t.ceng r).members.filter (fun m => !(m.q == q && m.slot == c.slot)) })).oclk = t.oclk := foldl_oclk _ _ _ (by simp)
  simp only [State.abortCmd, State.ite_oclk, State.updCmd_oclk, State.abortKernel_oclk, State.abandonArm_oclk,
    State.each_oclk _ _ _ hushed, ite_self]

@[simp] theorem State.abortCmds_oclk (s : State) (q : Nat) (st : Byte) : (s.abortCmds q st).oclk = s.oclk :=
  State.each_oclk _ _ _ fun t c => State.abortCmd_oclk t q st c

@[simp] theorem State.hostStop_oclk (s : State) (q : Nat) : (s.hostStop q).oclk = s.oclk := by
  simp [State.hostStop]

@[simp] theorem State.unitGot_oclk (s : State) (own : Own) (at' : Nat) (bs : List Byte) (bad : List Bool) :
    (s.unitGot own at' bs bad).oclk = s.oclk := by
  unfold State.unitGot
  split <;> simp

@[simp] theorem State.unitFail_oclk (s : State) (own : Own) (op : UnitOp) (st : Byte) : (s.unitFail own op st).oclk = s.oclk := by
  unfold State.unitFail
  split <;> simp

/-! ### Tags that leave a region cache, and ways that make room -/

@[simp] theorem State.releaseSecs_oclk (s : State) (r : Nat) (l : LineId) (secs : BitVec 4) :
    (s.releaseSecs r l secs).oclk = s.oclk := by
  unfold State.releaseSecs
  split
  · rfl
  · dsimp only
    rw [State.setRline_oclk, foldl_oclk _ _ _ (by simp), foldl_oclk _ _ _ (by simp)]

@[simp] theorem State.dropNow_oclk (s : State) (r : Nat) (l : LineId) : (s.dropNow r l).oclk = s.oclk := by
  unfold State.dropNow
  extract_lets s0 s1
  have h0 : s0.oclk = s.oclk := putHomes_oclk l _ s
  have h1 : s1.oclk = s.oclk := by simp [s1, h0]
  clear_value s1
  split <;> simp [h1]

@[simp] theorem State.startEvict_oclk (s : State) (r : Nat) (l : LineId) : (s.startEvict r l).oclk = s.oclk := by
  unfold State.startEvict
  split <;> simp

@[simp] theorem State.freeWay_oclk (s : State) (r set way : Nat) : (s.freeWay r set way).2.oclk = s.oclk := by
  unfold State.freeWay
  split <;> simp

@[simp] theorem State.freeData_oclk (s : State) (r set way : Nat) : (s.freeData r set way).2.oclk = s.oclk := by
  unfold State.freeData
  split
  · rfl
  · simp only [snd_ite_oclk, State.freeWay_oclk]
    repeat' split
    all_goals simp

@[simp] theorem State.allocTag_oclk (s : State) (r : Nat) (l : LineId) : (s.allocTag r l).2.oclk = s.oclk := by
  unfold State.allocTag
  extract_lets n c hosts still way
  clear_value way
  split <;> simp only [snd_ite_oclk]
  case h_1 =>
    split
    · split <;> simp
    · rfl
  case h_2 =>
    split
    · split <;> simp
    · split
      · rfl
      · split <;> simp

@[simp] theorem State.fill_oclk (s : State) (r : Nat) (l : LineId) (secs : BitVec 4) : (s.fill r l secs).oclk = s.oclk := by
  unfold State.fill
  split <;> simp

/-! ### Block caches and snoops that were held -/

@[simp] theorem State.mergeHome_oclk (s : State) (b : Nat) (l : LineId) : (s.mergeHome b l).oclk = s.oclk := by
  unfold State.mergeHome
  split <;> simp

@[simp] theorem State.takeBack_oclk (s : State) (b : Nat) (l : LineId) (toS : Bool) : (s.takeBack b l toS).oclk = s.oclk := by
  unfold State.takeBack
  split <;> simp

@[simp] theorem State.answerSnoop_oclk (s : State) (b : Nat) (c : Instr) : (s.answerSnoop b c).oclk = s.oclk := by
  unfold State.answerSnoop
  repeat' split
  all_goals simp

@[simp] theorem State.freeHeld_oclk (s : State) (b : Nat) : (s.freeHeld b).oclk = s.oclk := by
  simp [State.freeHeld, State.each_oclk]

@[simp] theorem State.clearResv_oclk (s : State) (b t : Nat) : (s.clearResv b t).oclk = s.oclk := by
  unfold State.clearResv
  dsimp only
  split <;> simp [State.each_oclk]

/-! ### The steps of a request at its home -/

@[simp] theorem State.openWaits_oclk (s : State) (r : Nat) (l : LineId) (q : HReq) : (s.openWaits r l q).2.oclk = s.oclk := by
  unfold State.openWaits
  split
  case h_1 => split <;> simp
  case h_2 =>
    split
    · split <;> simp
    · rfl
  case h_3 =>
    split
    · rfl
    · extract_lets room
      have hroom : room.2.oclk = s.oclk := by simp [room]
      clear_value room
      simp only [snd_ite_oclk]
      repeat' split
      all_goals simp [hroom]

@[simp] theorem State.hostWaits_oclk (s : State) (r : Nat) (l : LineId) (q : HReq) (a : Ask) :
    (s.hostWaits r l q a).2.oclk = s.oclk := by
  unfold State.hostWaits
  extract_lets +onlyGivenNames e through need kind asks
  have hasks : asks.oclk = s.oclk := by
    unfold asks
    split
    · rw [foldl_oclk _ _ _ (by simp), State.releaseSecs_oclk]
    · exact foldl_oclk _ _ _ (by simp)
  simp [hasks]

@[simp] theorem State.dataWaits_oclk (s : State) (r : Nat) (l : LineId) (q : HReq) : (s.dataWaits r l q).2.oclk = s.oclk := by
  unfold State.dataWaits
  split
  · rfl
  · simp only [snd_ite_oclk, State.hostWaits_oclk]
    repeat' split
    all_goals simp

@[simp] theorem State.homeAcc_oclk (s : State) (b : Nat) (c : Instr) (f : Acc → Acc) : (s.homeAcc b c f).oclk = s.oclk := by
  unfold State.homeAcc
  split <;> simp

@[simp] theorem State.tableResv_oclk (s : State) (r b t : Nat) (g : Target) : (s.tableResv r b t g).oclk = s.oclk := by
  unfold State.tableResv
  dsimp only
  split <;> simp

@[simp] theorem State.readThere_oclk (s : State) (r b : Nat) (l : LineId) (c : Instr) : (s.readThere r b l c).oclk = s.oclk := by
  refine State.each_oclk _ _ _ fun u x => ?_
  dsimp only
  repeat' split
  all_goals simp

@[simp] theorem State.feedTiles_oclk (s : State) (b : Nat) (l : LineId) : (s.feedTiles b l).oclk = s.oclk :=
  State.each_oclk _ _ _ (by simp)

@[simp] theorem State.defer_oclk (s : State) (b t : Nat) (e : Deferred) : (s.defer b t e).oclk = s.oclk := by
  unfold State.defer
  dsimp only
  split <;> simp

@[simp] theorem State.feedSems_oclk (s : State) (b : Nat) (l : LineId) : (s.feedSems b l).oclk = s.oclk := by
  refine State.each_oclk _ _ _ fun u t => ?_
  dsimp only
  split
  · rfl
  · split <;> simp

@[simp] theorem State.addPres_oclk (s : State) (r : Nat) (l : LineId) (secs : BitVec 4) (b : Nat) :
    (s.addPres r l secs b).oclk = s.oclk := by
  unfold State.addPres
  split <;> simp

@[simp] theorem State.soleHolder_oclk (s : State) (r : Nat) (l : LineId) (secs : BitVec 4) (b : Option Nat) :
    (s.soleHolder r l secs b).oclk = s.oclk := by
  unfold State.soleHolder
  split <;> simp

@[simp] theorem State.serveRead_oclk (s : State) (r b : Nat) (l : LineId) (secs : BitVec 4) (c : Instr) :
    (s.serveRead r b l secs c).oclk = s.oclk := by
  unfold State.serveRead
  extract_lets given s2 s3
  have h3 : s3.oclk = s.oclk := by
    unfold s3
    split
    · simp
    · split <;> simp [s2]
  simp [h3]

@[simp] theorem State.serveOwn_oclk (s : State) (r b : Nat) (l : LineId) (secs : BitVec 4) (c : Instr) :
    (s.serveOwn r b l secs c).oclk = s.oclk := by
  unfold State.serveOwn
  extract_lets u s1
  have h1 : s1.oclk = s.oclk := by
    unfold s1
    split
    · exact State.each_oclk _ _ _ (by simp)
    · split <;> simp [u]
  simp [h1]

@[simp] theorem State.serveWrite_oclk (s : State) (l : LineId) (m : LineMask) (d : Line) (by' : Option (Nat × Nat)) :
    (s.serveWrite l m d by').oclk = s.oclk := by
  simp [State.serveWrite]

@[simp] theorem State.serveUnit_oclk (s : State) (l : LineId) (own : Own) (op : UnitOp) : (s.serveUnit l own op).oclk = s.oclk := by
  unfold State.serveUnit
  dsimp only
  rw [State.ite_oclk]
  split
  · simp
  · split <;> simp

@[simp] theorem State.serve_oclk (s : State) (r : Nat) (l : LineId) (q : HReq) : (s.serve r l q).2.oclk = s.oclk := by
  unfold State.serve
  split
  case h_2 => split <;> simp
  case h_7 c =>
    split
    case h_1 hpa m =>
      extract_lets k now s1 s2 s3
      have h2 : s2.oclk = s.oclk := by simp [s2, s1]
      have h3 : s3.oclk = s.oclk := by
        unfold s3
        split
        · exact h2
        · split <;> simp [h2]
      simp [h3]
    case h_5 => split <;> simp
    case h_7 =>
      extract_lets g put
      split <;> simp [put]
    all_goals simp
  all_goals simp

/-! ### The transactions of a home -/

@[simp] theorem State.startReq_oclk (s : State) (r : Nat) (l : LineId) (q : HReq) (queued : List HReq) :
    (s.startReq r l q queued).oclk = s.oclk := by
  simp [State.startReq]

@[simp] theorem State.nextReq_oclk (r : Nat) (l : LineId) (qs : List HReq) (s : State) : (State.nextReq r l qs s).oclk = s.oclk := by
  induction qs generalizing s with
  | nil => rfl
  | cons q rest ih =>
    unfold State.nextReq
    repeat' split
    all_goals simp [ih]

@[simp] theorem State.reopen_oclk (s : State) (r : Nat) (x : Txn) : (s.reopen r x).oclk = s.oclk := by
  unfold State.reopen
  dsimp only
  split <;> simp

@[simp] theorem State.reopenAll_oclk (s : State) (r : Nat) (e : Expect) : (s.reopenAll r e).2.oclk = s.oclk :=
  State.each_oclk _ _ _ fun t x => State.reopen_oclk t r x

@[simp] theorem State.turn_oclk (s : State) (r k : Nat) : (s.turn r k).2.oclk = s.oclk := by
  unfold State.turn
  dsimp only
  split <;> simp

@[simp] theorem State.pump_oclk (r n : Nat) (ks : List Nat) (s : State) : (State.pump r n ks s).oclk = s.oclk := by
  induction n generalizing ks s with
  | zero => rfl
  | succ n ih => cases ks <;> simp [State.pump, ih]

@[simp] theorem State.goAll_oclk (s : State) (r : Nat) (ks : List Nat) : (s.goAll r ks).oclk = s.oclk :=
  State.pump_oclk r _ ks s

@[simp] theorem State.sendLate_oclk (s : State) (r : Nat) : (s.sendLate r).oclk = s.oclk :=
  State.each_oclk _ _ _ (by simp)

end Sys2Proof.Machine
end

section
/-! PROOFS. What a forced power-down leaves alone: a dying port, a fenced region, a lost block and a lane that halts disturb neither the
controllers nor the collector's clock (17_power_clocks_startup.md R452; 08_memory_stacks.md R224; 15_faults_and_dust_sheets.md R411). -/
namespace Sys2Proof.Machine

/-- The later state has the controllers and the clock of the earlier one. -/
@[simp] abbrev Undisturbed (s t : State) : Prop := t.controllers = s.controllers ∧ t.oclk = s.oclk

theorem Undisturbed.rfl {s : State} : Undisturbed s s := ⟨Eq.refl _, Eq.refl _⟩

theorem Undisturbed.trans {s t u : State} (h : Undisturbed s t) (h' : Undisturbed t u) : Undisturbed s u :=
  ⟨h'.1.trans h.1, h'.2.trans h.2⟩

theorem State.each_undisturbed {α : Type} (s : State) (l : List α) (f : State → α → State) (h : ∀ t x, Undisturbed t (f t x)) :
    Undisturbed s (s.each l f) :=
  ⟨State.each_controllers s l f fun t x => (h t x).1, State.each_oclk s l f fun t x => (h t x).2⟩

@[simp] theorem State.setMap_undisturbed (s : State) (r : Nat) (x : MapReg) : Undisturbed s (s.setMap r x) := .rfl
@[simp] theorem State.setQp_undisturbed (s : State) (n : Nat) (x : Qp) : Undisturbed s (s.setQp n x) := .rfl
@[simp] theorem State.setIfc_undisturbed (s : State) (i : Nat) (x : Ifc) : Undisturbed s (s.setIfc i x) := .rfl
@[simp] theorem State.report_undisturbed (s : State) (g u k : Nat) (d : W64) : Undisturbed s (s.report g u k d) := .rfl
@[simp] theorem State.kernelStatus_undisturbed (s : State) (k : Option (Nat × Nat)) (st : Byte) (info : W64) :
    Undisturbed s (s.kernelStatus k st info) := .rfl
@[simp] theorem State.updKernel_undisturbed (s : State) (q slot : Nat) (f : Kernel → Kernel) : Undisturbed s (s.updKernel q slot f) := .rfl
@[simp] theorem State.updFrame_undisturbed (s : State) (n : Nat) (seq : W64) (g : LaneFrame → LaneFrame) :
    Undisturbed s (s.updFrame n seq g) := .rfl
@[simp] theorem State.sendFrame_undisturbed (s : State) (i : Nat) (e : Emit) : Undisturbed s (s.sendFrame i e) := .rfl
@[simp] theorem State.sendPkt_undisturbed (s : State) (i : Nat) (p : TxPkt) : Undisturbed s (s.sendPkt i p) := .rfl
@[simp] theorem State.dropReq_undisturbed (s : State) (b : Nat) (c : Instr) : Undisturbed s (s.dropReq b c) := .rfl
@[simp] theorem State.dropUnit_undisturbed (s : State) (r : Nat) : Undisturbed s (s.dropUnit r) := .rfl

/-! ### Stores that are discarded -/

@[simp] theorem State.discard_undisturbed (s : State) (b t : Nat) (d : DeadTarget) (addr : W64) (n : Nat) :
    Undisturbed s (s.discard b t d addr n) := by
  unfold State.discard
  dsimp only
  split
  · split <;> simp
  · split <;> simp

@[simp] theorem State.discardOf_undisturbed (s : State) (k : Storer) (d : DeadTarget) (addr : W64) (n : Nat) :
    Undisturbed s (s.discardOf k d addr n) := by
  unfold State.discardOf
  dsimp only
  split
  · simp
  · split <;> simp

/-! ### The caches of blocks: accesses that go on -/

@[simp] theorem State.touchB_undisturbed (s : State) (b : Nat) (l : LineId) : Undisturbed s (s.touchB b l) := by
  unfold State.touchB
  split <;> simp

@[simp] theorem State.storeOwn_undisturbed (s : State) (b t : Nat) (l : LineId) (m : LineMask) (d : Line) :
    Undisturbed s (s.storeOwn b t l m d) := by
  unfold State.storeOwn
  dsimp only
  split <;> simp

@[simp] theorem State.snoop_undisturbed (s : State) (b : Nat) (l : LineId) (c : Instr) : Undisturbed s (s.snoop b l c) := by
  unfold State.snoop
  dsimp only
  split
  · split <;> simp
  · split <;> simp

/-- An access that its block's cache serves at once. -/
theorem State.hit_undisturbed {s u : State} {b t : Nat} {a : Acc} (h : s.hit b t a = some u) : Undisturbed s u := by
  unfold State.hit at h
  dsimp only at h
  repeat' split at h
  all_goals cases h
  all_goals simp

theorem State.hitNow_undisturbed {s u : State} {b t : Nat} {a : Acc} (h : s.hitNow b t a = some u) : Undisturbed s u := by
  unfold State.hitNow at h
  split at h
  · split at h
    · obtain ⟨v, hv, rfl⟩ := Option.map_eq_some_iff.mp h
      simpa using State.hit_undisturbed hv
    · cases h
  · exact State.hit_undisturbed h

@[simp] theorem State.askFor_undisturbed (s : State) (b t : Nat) (a : Acc) (l : LineId) (c : Instr) :
    Undisturbed s (s.askFor b t a l c) := by
  simp [State.askFor]

/-- An access whose target is dead, or behind the lost host. -/
theorem State.endAcc_undisturbed {s u : State} {b t : Nat} {a : Acc} (h : s.endAcc b t a = some u) : Undisturbed s u := by
  unfold State.endAcc at h
  dsimp only at h
  repeat' split at h
  all_goals cases h
  all_goals simp

@[simp] theorem State.kickAcc_undisturbed (b t : Nat) (s : State) (id : Nat) : Undisturbed s (State.kickAcc b t s id) := by
  unfold State.kickAcc
  split
  · exact .rfl
  · split
    · exact .rfl
    · split
      · exact .rfl
      · split
        next hu => exact State.endAcc_undisturbed hu
        next =>
          split
          next hu => exact State.hitNow_undisturbed hu
          next => split <;> simp

@[simp] theorem State.kick_undisturbed (s : State) (b t : Nat) : Undisturbed s (s.kick b t) :=
  State.each_undisturbed _ _ _ fun u id => State.kickAcc_undisturbed b t u id

@[simp] theorem State.kickBlock_undisturbed (s : State) (b : Nat) : Undisturbed s (s.kickBlock b) :=
  State.each_undisturbed _ _ _ fun u t => State.kick_undisturbed u b t

@[simp] theorem State.landAll_undisturbed (s : State) (b : Nat) (c : Instr) : Undisturbed s (s.landAll b c) := by
  refine State.each_undisturbed _ _ _ fun u x => ?_
  split
  · exact .rfl
  · split
    · simp
    · split
      next hv => exact State.hit_undisturbed hv
      next => simp

/-! ### Requests at a home -/

@[simp] theorem State.go_undisturbed (s : State) (r : Nat) (l : LineId) : Undisturbed s (s.go r l) := by
  simp [State.go]

@[simp] theorem State.failReq_undisturbed (s : State) (q : HReq) : Undisturbed s (s.failReq q) := by
  unfold State.failReq
  split <;> simp

@[simp] theorem State.atHome_undisturbed (s : State) (q : HReq) (l : LineId) : Undisturbed s (s.atHome q l) := by
  unfold State.atHome
  repeat' split
  all_goals simp

@[simp] theorem State.toHome_undisturbed (s : State) (c : Instr) : Undisturbed s (s.toHome c) := by
  unfold State.toHome
  split <;> simp

@[simp] theorem State.gotResp_undisturbed (s : State) (l : LineId) (e : Expect) : Undisturbed s (s.gotResp l e) := by
  unfold State.gotResp
  repeat' split
  all_goals simp

@[simp] theorem State.dropReqs_undisturbed (s : State) (mine : HReq → Bool) : Undisturbed s (s.dropReqs mine) :=
  State.each_undisturbed _ _ _ (by simp)

/-! ### Packets that leave -/

@[simp] theorem State.activate_undisturbed (s : State) (n : Nat) : Undisturbed s (s.activate n) := by
  simp [State.activate]

@[simp] theorem State.pickPath_undisturbed (s : State) (n : Nat) (data : Bool) : Undisturbed s (s.pickPath n data).2 := by
  simp [State.pickPath]

@[simp] theorem State.useQp_undisturbed (s : State) (n : Nat) : Undisturbed s (s.useQp n) := by
  simp [State.useQp]

@[simp] theorem State.launch_undisturbed (s : State) (n k : Nat) (x : Sent) : Undisturbed s (s.launch n k x) := by
  simp [State.launch]

@[simp] theorem State.pumpList_undisturbed (n : Nat) (ctl : Bool) (l kept : List Sent) (left : Nat → Nat) (s : State) :
    Undisturbed s (State.pumpList n ctl l kept left s).2 := by
  induction l generalizing kept left s with
  | nil => simp [State.pumpList]
  | cons x rest ih =>
    have hp := s.pickPath_undisturbed n (isData x.pkt.typ)
    unfold State.pumpList
    dsimp only
    split
    · exact ih ..
    · split
      next k t ht =>
        rw [ht] at hp
        split
        · exact hp.trans (ih ..)
        · exact (hp.trans (t.launch_undisturbed n k x)).trans (ih ..)
      next t ht =>
        rw [ht] at hp
        exact hp.trans (ih ..)

@[simp] theorem State.pumpCtl_undisturbed (s : State) (n : Nat) : Undisturbed s (s.pumpCtl n) := by
  simp [State.pumpCtl]

@[simp] theorem State.turnQp_undisturbed (a : Tab (List Nat) × State) (n : Nat) : Undisturbed a.2 (State.turnQp a n).2 := by
  simp [State.turnQp]

@[simp] theorem State.rounds_undisturbed (ns : List Nat) (fuel : Nat) (a : Tab (List Nat) × State) :
    Undisturbed a.2 (State.rounds ns fuel a) := by
  induction fuel generalizing a with
  | zero => exact .rfl
  | succ fuel ih =>
    have hc := foldl_keeps (fun a : Tab (List Nat) × State => a.2.controllers) State.turnQp (fun a n => (State.turnQp_undisturbed a n).1) ns a
    have ho := foldl_keeps (fun a : Tab (List Nat) × State => a.2.oclk) State.turnQp (fun a n => (State.turnQp_undisturbed a n).2) ns a
    exact Undisturbed.trans ⟨hc, ho⟩ (ih _)

@[simp] theorem State.pumpQps_undisturbed (s : State) (ns : List Nat) : Undisturbed s (s.pumpQps ns) :=
  (State.each_undisturbed s ns State.pumpCtl State.pumpCtl_undisturbed).trans (State.rounds_undisturbed ns _ ([], _))

@[simp] theorem State.queueDrain_undisturbed (s : State) (dev : Nat) (ths : List (Storer × W64)) (p : TxPkt) :
    Undisturbed s (s.queueDrain dev ths p) := by
  unfold State.queueDrain
  dsimp only
  repeat' split
  all_goals simp

/-! ### Write-combining lines that drain, and tile stores that move on -/

@[simp] theorem State.startDrain_undisturbed (s : State) (r : Nat) (x : WLine) : Undisturbed s (s.startDrain r x) := by
  unfold State.startDrain
  extract_lets +onlyGivenNames gone at'
  have hg (t : State) : Undisturbed t (gone t) := .rfl
  split
  · exact (hg s).trans (State.each_undisturbed _ _ _ (by simp))
  · split
    · exact (hg s).trans (State.each_undisturbed _ _ _ fun t q =>
        State.each_undisturbed _ _ _ fun u w => State.queueDrain_undisturbed u _ _ w)
    · exact hg s
    · split
      · exact .rfl
      · split
        · exact hg s
        · split <;> simp

@[simp] theorem State.drainLines_undisturbed (s : State) (r : Nat) (xs : List WLine) : Undisturbed s (s.drainLines r xs) :=
  (State.each_undisturbed s xs _ fun t x => State.startDrain_undisturbed t r x).trans (State.pumpQps_undisturbed _ _)

@[simp] theorem State.drainLine_undisturbed (s : State) (r : Nat) (x : WLine) : Undisturbed s (s.drainLine r x) :=
  State.drainLines_undisturbed s r [x]

@[simp] theorem State.wcRoom_undisturbed (s : State) (r : Nat) (g : Target) : Undisturbed s (s.wcRoom r g) := by
  unfold State.wcRoom
  split
  · exact .rfl
  · split <;> simp

@[simp] theorem State.wcByte_undisturbed (s : State) (r : Nat) (g : Target) (v : Byte) (bad : Bool) (k : Storer) :
    Undisturbed s (s.wcByte r g v bad k) := by
  unfold State.wcByte
  extract_lets at' put s1
  have h1 : Undisturbed s s1 := by
    unfold s1
    split <;> exact .rfl
  clear_value s1
  split
  · split
    · simpa using h1
    · exact h1
  · exact h1

@[simp] theorem State.tileByte_undisturbed (s : State) (b t : Nat) (g : Target) (va : W64) (v : Byte) (bad : Bool) :
    Undisturbed s (s.tileByte b t g va v bad) := by
  unfold State.tileByte
  split <;> simp

@[simp] theorem State.tileBytes_undisturbed (b t : Nat) (at' : W64 → Target) (val : Touch → Byte × Bool) (l : List Touch) (s : State) :
    Undisturbed s (State.tileBytes b t at' val l s).2 := by
  induction l generalizing s with
  | nil => exact .rfl
  | cons x rest ih =>
    simp [State.tileBytes, apply_ite Prod.snd, ih]

@[simp] theorem State.tilePut_undisturbed (s : State) (b t : Nat) (d : BitVec 512) (pages : List (Nat × Target)) (first stop : Nat)
    (src : List (Byte × Bool) × List (Byte × Bool)) : Undisturbed s (s.tilePut b t d pages first stop src).2 := by
  unfold State.tilePut
  dsimp only
  split <;> simp

@[simp] theorem State.moveStore_undisturbed (s : State) (b t : Nat) (a : Acc) : Undisturbed s (s.moveStore b t a) := by
  unfold State.moveStore
  split
  next _ e d first stop _ =>
    extract_lets x c fin
    have hf (u : State) : Undisturbed u (fin u) := by simp [fin]
    have hp := s.tilePut_undisturbed b t d a.pages first stop (x.storeSrc a e d)
    split
    · simpa using hf s
    · split
      next u hu => rw [hu] at hp; exact hp.trans (hf u)
      next p u hu => rw [hu] at hp; simpa using hp
  next => exact .rfl

@[simp] theorem State.flushStores_undisturbed (b n : Nat) (stuck : List Nat) (s : State) :
    Undisturbed s (State.flushStores b n stuck s) := by
  induction n generalizing stuck s with
  | zero => exact .rfl
  | succ n ih =>
    unfold State.flushStores
    split
    · exact .rfl
    · split
      · exact .rfl
      · exact (State.moveStore_undisturbed ..).trans (ih ..)

@[simp] theorem State.flush_undisturbed (s : State) (b : Nat) : Undisturbed s (s.flush b) := State.flushStores_undisturbed b _ [] s

@[simp] theorem State.moveOn_undisturbed (s : State) (r : Nat) : Undisturbed s (s.moveOn r) :=
  State.each_undisturbed _ _ _ (by simp)

/-! ### A port that dies (R224) -/

@[simp] theorem State.landHomed_undisturbed (s : State) (p : LineId → Bool) : Undisturbed s (s.landHomed p) :=
  State.each_undisturbed _ _ _ (by simp)

@[simp] theorem State.endDead_undisturbed (s : State) : Undisturbed s s.endDead := State.each_undisturbed _ _ _ (by simp)

@[simp] theorem State.drainDead_undisturbed (s : State) : Undisturbed s s.drainDead :=
  State.each_undisturbed _ _ _ fun _ r => (State.each_undisturbed _ _ _ (by simp)).trans (State.moveOn_undisturbed _ r)

@[simp] theorem State.endRequests_undisturbed (s : State) (r : Nat) (p : LineId → Bool) : Undisturbed s (s.endRequests r p) := by
  unfold State.endRequests
  extract_lets +onlyGivenNames gone c s1 s2 s3
  have h1 : Undisturbed s s1 := by simp [s1]
  have h2 : Undisturbed s s2 := h1.trans (State.each_undisturbed _ _ _ State.failReq_undisturbed)
  have h3 : Undisturbed s s3 := h2.trans (State.each_undisturbed _ _ _ (by simp))
  exact (h3.trans (s3.landHomed_undisturbed p)).trans (State.each_undisturbed _ _ _ (by simp))

@[simp] theorem State.dropPortLines_undisturbed (s : State) (mp : Nat) : Undisturbed s (s.dropPortLines mp) := by
  refine State.each_undisturbed _ _ _ fun t k => ?_
  split <;> simp

@[simp] theorem State.killPort_undisturbed (s : State) (mp cause : Nat) : Undisturbed s (s.killPort mp cause) := by
  simp [State.killPort]

/-! ### The host's snoops -/

@[simp] theorem State.answerHost_undisturbed (s : State) (r : Nat) (c : Instr) (hpa : Nat) : Undisturbed s (s.answerHost r c hpa) := by
  unfold State.answerHost
  dsimp only
  repeat' split
  all_goals simp

@[simp] theorem State.answerReady_undisturbed (s : State) (r : Nat) : Undisturbed s (s.answerReady r) := by
  have answered (t : State) (x : Txn) : Undisturbed t (match x.req with
      | .msg (.hostSnpinv a) => t.answerHost r (.hostSnpinv a) a.toNat
      | .msg (.hostSnpdata a) => t.answerHost r (.hostSnpdata a) a.toNat
      | .msg (.hostSnpcur a) => t.answerHost r (.hostSnpcur a) a.toNat
      | _ => t) := by
    split <;> simp
  exact .trans (by simp) (State.each_undisturbed _ _ _ answered)

@[simp] theorem State.hostSnoop_undisturbed (s : State) (c : Instr) (hpa : Nat) : Undisturbed s (s.hostSnoop c hpa) := by
  unfold State.hostSnoop
  extract_lets l k
  split
  · simp
  · extract_lets awaiting
    split
    · simp
    · split
      · simp
      · split <;> simp

/-! ### A lane's frames when a block is lost -/

@[simp] theorem State.laneRecord_undisturbed (s : State) (n : Nat) (f : LaneFrame) (status : Nat) (rel : W64) :
    Undisturbed s (s.laneRecord n f status rel) := by
  simp [State.laneRecord]

@[simp] theorem State.release_undisturbed (s : State) (n : Nat) (f : LaneFrame) (status : Nat) (side : Option Bool) :
    Undisturbed s (s.release n f status side) := by
  simp [State.release]

@[simp] theorem State.noAnswer_undisturbed (s : State) (n : Nat) (f : LaneFrame) (counted : Bool) :
    Undisturbed s (s.noAnswer n f counted) := by
  simp [State.noAnswer]

@[simp] theorem State.pairEvent_undisturbed (s : State) (n : Nat) (f : LaneFrame) : Undisturbed s (s.pairEvent n f) := .rfl

@[simp] theorem State.decide'_undisturbed (s : State) (n : Nat) (f : LaneFrame) (late : Bool) : Undisturbed s (s.decide' n f late) := by
  unfold State.decide'
  extract_lets x send
  have hsend (st : Nat) (side : Option Bool) : Undisturbed s (send st side) := by simp [send]
  split
  · simp
  · split
    · exact hsend _ _
    · split
      · split
        · exact hsend _ _
        · split
          · exact hsend _ _
          · exact (hsend _ _).trans (State.pairEvent_undisturbed _ n f)
      · exact hsend _ _

@[simp] theorem State.settleFrame_undisturbed (s : State) (n : Nat) (seq : W64) : Undisturbed s (s.settleFrame n seq) := by
  unfold State.settleFrame
  split <;> simp

@[simp] theorem State.spoilRun_undisturbed (s : State) (n b : Nat) : Undisturbed s (s.spoilRun n b) :=
  State.each_undisturbed _ _ _ (by simp)

@[simp] theorem State.laneLosesBlock_undisturbed (s : State) (b : Nat) : Undisturbed s (s.laneLosesBlock b) :=
  State.each_undisturbed _ _ _ (by simp)

@[simp] theorem State.haltLanes_undisturbed (s : State) : Undisturbed s s.haltLanes := by
  unfold State.haltLanes
  extract_lets +onlyGivenNames s1
  have h1 : Undisturbed s s1 := State.each_undisturbed _ _ _ (by simp)
  simpa using h1

/-! ### A block's work that is lost (R117) -/

@[simp] theorem State.leaveStores_undisturbed (s : State) (b t : Nat) : Undisturbed s (s.leaveStores b t) := by
  refine (State.kick_undisturbed s b t).trans (State.each_undisturbed _ _ _ fun x a => ?_)
  split <;> simp

@[simp] theorem State.clearTask_undisturbed (s : State) (b : Nat) : Undisturbed s (s.clearTask b) := by
  unfold State.clearTask
  extract_lets +onlyGivenNames kern s0 c s1 own n s2 r s3 s4 s5
  have h0 : Undisturbed s s0 := State.each_undisturbed _ _ _ (by simp)
  have h3 : Undisturbed s s3 := by simpa [s3, s2, s1] using h0
  have h4 : Undisturbed s s4 := h3.trans (State.each_undisturbed _ _ _ (by simp))
  have h5 : Undisturbed s s5 := by
    unfold s5
    clear_value kern
    split
    · simpa using h4
    · exact h4
  clear_value s5
  simpa using h5

@[simp] theorem State.kernelsLose_undisturbed (s : State) (b : Nat) (ks : List (Nat × Nat)) : Undisturbed s (s.kernelsLose b ks) :=
  State.each_undisturbed _ _ _ (by simp)

@[simp] theorem State.dropBlockWork_undisturbed (s : State) (b : Nat) : Undisturbed s (s.dropBlockWork b).2 := by
  unfold State.dropBlockWork
  extract_lets +onlyGivenNames r kern accLost lines wcLost queued netLost asked outLost owners ks s1 s2 n s3 s4 s5 s6 x s7 que s8
  have h1 : Undisturbed s s1 := State.each_undisturbed _ _ _ (by simp)
  have h4 : Undisturbed s s4 := by simpa [s4, s3, s2] using h1
  have h5 : Undisturbed s s5 := by
    unfold s5
    clear_value kern
    split
    · exact h4
    · simpa using h4
  clear_value s5
  have h7 : Undisturbed s s7 := by simpa [s7, s6] using h5
  clear_value s7
  unfold s8
  split
  · simpa using h7
  · exact h7

@[simp] theorem State.silence_undisturbed (s : State) (b : Nat) : Undisturbed s (s.silence b) := by
  unfold State.silence
  extract_lets +onlyGivenNames c s1 s2 s3
  have h2 : Undisturbed s s2 := .trans (by simp [s1]) (State.each_undisturbed s1 _ _ (by simp))
  have h3 : Undisturbed s s3 := (h2.trans (State.each_undisturbed _ _ _ (by simp))).trans (State.dropReqs_undisturbed _ _)
  exact h3.trans (State.each_undisturbed _ _ _ fun t r => State.each_undisturbed _ _ _ (by simp))

/-! ### Ports, engines and a region that leave service (R411) -/

@[simp] theorem State.ifcDown_undisturbed (s : State) (i : Nat) : Undisturbed s (s.ifcDown i) := by
  simp [State.ifcDown]

@[simp] theorem State.portDown_undisturbed (s : State) (p : Nat) : Undisturbed s (s.portDown p) := by
  simp [State.portDown]

@[simp] theorem State.endMember_undisturbed (s : State) (r : Nat) (m : MemberColl) (st : Byte) (info : W64) :
    Undisturbed s (s.endMember r m st info) := by
  simp [State.endMember]

@[simp] theorem State.loseEngine_undisturbed (s : State) (r : Nat) : Undisturbed s (s.loseEngine r) :=
  (State.each_undisturbed s (s.ceng r).members _ fun t m => State.endMember_undisturbed t r m 11 0).trans .rfl

@[simp] theorem State.sheet_undisturbed (s : State) (u : DustUnit) : Undisturbed s (s.sheet u) := by
  unfold State.sheet
  split <;> exact .rfl

@[simp] theorem State.agentDies_undisturbed (s : State) (a : DeadAgent) : Undisturbed s (s.agentDies a) :=
  State.each_undisturbed _ _ _ (by simp)

@[simp] theorem State.reclaimBlock_undisturbed (s : State) (r b : Nat) : Undisturbed s (s.reclaimBlock r b) := by
  refine State.each_undisturbed _ _ _ fun t k => ?_
  split
  · exact .rfl
  · dsimp only
    split <;> simp

@[simp] theorem State.emptyRegionNow_undisturbed (s : State) (r : Nat) : Undisturbed s (s.emptyRegionNow r) :=
  State.each_undisturbed _ _ _ (by simp)

@[simp] theorem State.loseCache_undisturbed (s : State) (r : Nat) : Undisturbed s (s.loseCache r) := by
  unfold State.loseCache
  extract_lets +onlyGivenNames s1
  have h1 : Undisturbed s s1 := State.each_undisturbed _ _ _ fun t k => by split <;> simp
  simpa using h1

@[simp] theorem State.landServed_undisturbed (s : State) (r : Nat) (p : LineId → Bool) : Undisturbed s (s.landServed r p) := by
  refine (State.landHomed_undisturbed s p).trans (State.each_undisturbed _ _ _ fun t x => ?_)
  split
  · split <;> simp
  · exact .rfl

@[simp] theorem State.sendOn_undisturbed (s : State) (qs : List (HReq × LineId)) : Undisturbed s (s.sendOn qs) :=
  .trans (State.each_undisturbed _ _ _ fun t q => by split <;> simp) (State.each_undisturbed _ _ _ (by simp))

@[simp] theorem State.fenceCache_undisturbed (s : State) (r : Nat) (readable : Bool) : Undisturbed s (s.fenceCache r readable) := by
  unfold State.fenceCache
  extract_lets s1 s2 s3 c
  have h1 : Undisturbed s s1 := State.each_undisturbed _ _ _ (by simp)
  have h3 : Undisturbed s s3 := by simpa [s3, s2] using h1
  simpa using h3

/-- A fold over a state and a count leaves what each step leaves. -/
theorem foldl_undisturbed {α : Type} (l : List α) (f : Nat × State → α → Nat × State) (a : Nat × State)
    (h : ∀ a x, Undisturbed a.2 (f a x).2) : Undisturbed a.2 (l.foldl f a).2 :=
  ⟨foldl_keeps (fun a : Nat × State => a.2.controllers) f (fun a x => (h a x).1) l a,
   foldl_keeps (fun a : Nat × State => a.2.oclk) f (fun a x => (h a x).2) l a⟩

@[simp] theorem State.fenceRegion_undisturbed (s : State) (r : Nat) (readable byBlock : Bool) :
    Undisturbed s (s.fenceRegion r readable byBlock).2 := by
  unfold State.fenceRegion
  extract_lets +onlyGivenNames go a again s1 s2 s3 s4 f s5 s6
  have ha : Undisturbed s a.2 := foldl_undisturbed (blocksOf r) go (0, s) fun a b => by
    unfold go
    split
    · exact .rfl
    · simp
  have h1 : Undisturbed s s1 := by simpa [s1] using ha
  have h2 : Undisturbed s s2 := h1.trans (State.each_undisturbed _ _ _ (by simp))
  have h4 : Undisturbed s s4 := by simpa [s4, s3] using h2
  clear_value s4
  have h5 : Undisturbed s s5 := h4.trans .rfl
  clear_value s5
  have h6 : Undisturbed s s6 := by simpa [s6] using h5.trans (State.each_undisturbed _ _ _ (by simp))
  simpa using h6

@[simp] theorem State.loseStoresTo_undisturbed (s : State) (g : Nat) : Undisturbed s (s.loseStoresTo g).2 :=
  .trans (State.each_undisturbed _ _ _ (by simp)) (State.each_undisturbed _ _ _ (by simp))

end Sys2Proof.Machine
end

section
/-! PROOFS. A forced power-down: every domain that it takes ends off, or failed, and waits for power no more; the resets and the collector's
clock stay (17_power_clocks_startup.md R449, R452, R477). -/
namespace Sys2Proof.Machine

/-- The later state has the resets and the collector's clock of the earlier one. -/
abbrev SameResets (s t : State) : Prop := t.rst = s.rst ∧ t.oclk = s.oclk

theorem SameResets.trans {s t u : State} (h : SameResets s t) (h' : SameResets t u) : SameResets s u :=
  ⟨h'.1.trans h.1, h'.2.trans h.2⟩

theorem State.each_sameResets {α : Type} (s : State) (l : List α) (f : State → α → State) (h : ∀ t x, SameResets t (f t x)) :
    SameResets s (s.each l f) :=
  ⟨foldl_keeps State.rst f (fun t x => (h t x).1) l s, State.each_oclk s l f fun t x => (h t x).2⟩

theorem State.pwr_eq_of_controllers_eq {s t : State} (h : t.controllers = s.controllers) : t.pwr = s.pwr :=
  congrArg Controllers.pwr h

theorem State.rst_eq_of_controllers_eq {s t : State} (h : t.controllers = s.controllers) : t.rst = s.rst :=
  congrArg Controllers.rst h

theorem Undisturbed.sameResets {s t : State} (h : Undisturbed s t) : SameResets s t := ⟨State.rst_eq_of_controllers_eq h.1, h.2⟩

/-! ### One domain -/

/-- What a domain's units lose when its power goes: how many buffered sectors, and the state. -/
def State.unitsLost (s : State) (d : Nat) : Nat × State :=
  match domKind d with
  | .compute _ _ => (domBlocks d).foldl (fun (a : Nat × State) b =>
      if a.2.blockDust b then a
      else
        let w := a.2.dropBlockWork b
        let t := w.2.each (List.range 5) (fun u r => u.reclaimBlock r b)
        (a.1 + w.1, (t.setBlk b { t.blk b with state := .off }).silence b)) (0, s)
  | .mesh r => if s.regionDust r then (0, s) else s.fenceRegion r false false
  | .links g =>
    let w := s.loseStoresTo g
    (w.1, (w.2.killPort (2 * g) 8).killPort (2 * g + 1) 8)
  | .net r => (0, ((s.portDown (2 * r)).portDown (2 * r + 1)).loseEngine r)
  | .skim => (0, s.haltLanes)
  | .host => (0, { s with hpt := { s.hpt with linkUp := false } })
  | _ => (0, s)

theorem State.unitsLost_undisturbed (s : State) (d : Nat) : Undisturbed s (s.unitsLost d).2 := by
  unfold State.unitsLost
  split
  · refine foldl_undisturbed _ _ (0, s) fun a b => ?_
    split
    · exact .rfl
    · have hr (u : State) : Undisturbed u (u.each (List.range 5) (fun v r => v.reclaimBlock r b)) := State.each_undisturbed _ _ _ (by simp)
      have h1 := (State.dropBlockWork_undisturbed a.2 b).trans (hr _)
      simpa using h1
  · split
    · exact .rfl
    · exact State.fenceRegion_undisturbed ..
  · simp
  · simp
  · simp
  · exact .rfl
  · exact .rfl

/-- The power controller after a domain is forced down, with so many buffered sectors lost. -/
def Power.forced (p : Power) (d cause lost : Nat) : Power :=
  let x := Tab.get Dom.init p.dom d
  if x.state = .off ∨ x.state = .failed then { p with waking := p.waking.filter (fun k => k != d) }
  else { p with
    waking := p.waking.filter (fun k => k != d), lostStores := satAdd p.lostStores lost,
    dom := Tab.set Dom.init p.dom d { x with state := if cause = 4 then .failed else .off, cause := BitVec.ofNat 4 cause, current := 0 } }

theorem State.forceOne_of_off (s : State) (d cause : Nat) (h : (s.dom d).state = .off ∨ (s.dom d).state = .failed) :
    s.forceOne d cause = { s with pwr := s.pwr.forced d cause (s.unitsLost d).1 } := by
  have hp : s.pwr.forced d cause (s.unitsLost d).1 = { s.pwr with waking := s.pwr.waking.filter (fun k => k != d) } := if_pos h
  rw [hp]
  exact if_pos h

theorem State.forceOne_of_on (s : State) (d cause : Nat) (h : ¬((s.dom d).state = .off ∨ (s.dom d).state = .failed)) :
    ∃ r, s.forceOne d cause = ({ (s.unitsLost d).2 with pwr := s.pwr.forced d cause (s.unitsLost d).1 } : State).offer r none := by
  have hp : s.pwr.forced d cause (s.unitsLost d).1 = _ := if_neg h
  rw [hp, ← State.pwr_eq_of_controllers_eq (s.unitsLost_undisturbed d).1]
  exact ⟨_, if_neg h⟩

theorem State.forceOne_pwr (s : State) (d cause : Nat) : (s.forceOne d cause).pwr = s.pwr.forced d cause (s.unitsLost d).1 := by
  by_cases h : (s.dom d).state = .off ∨ (s.dom d).state = .failed
  · rw [State.forceOne_of_off s d cause h]
  · obtain ⟨r, hr⟩ := State.forceOne_of_on s d cause h
    rw [hr, State.pwr_eq_of_controllers_eq (State.offer_controllers _ r none)]

theorem State.forceOne_sameResets (s : State) (d cause : Nat) : SameResets s (s.forceOne d cause) := by
  by_cases h : (s.dom d).state = .off ∨ (s.dom d).state = .failed
  · rw [State.forceOne_of_off s d cause h]
    exact ⟨rfl, rfl⟩
  · obtain ⟨r, hr⟩ := State.forceOne_of_on s d cause h
    have hu := (s.unitsLost_undisturbed d).sameResets
    rw [hr]
    exact ⟨(State.rst_eq_of_controllers_eq (State.offer_controllers _ r none)).trans hu.1, (State.offer_oclk _ r none).trans hu.2⟩

/-! ### A domain that is down stays down -/

/-- A domain is off, or has failed, and does not wait to be powered up. -/
def Power.down (p : Power) (k : Nat) : Prop :=
  ((Tab.get Dom.init p.dom k).state = .off ∨ (Tab.get Dom.init p.dom k).state = .failed) ∧ k ∉ p.waking

theorem Power.forced_down (p : Power) (d cause lost : Nat) : (p.forced d cause lost).down d := by
  unfold Power.forced
  dsimp only
  split
  next h => exact ⟨h, by simp⟩
  next h => refine ⟨?_, by simp⟩; rw [Tab.get_set_same]; split <;> simp

/-- Forcing a domain down brings no other up. -/
theorem Power.down.forced {p : Power} {k : Nat} (h : p.down k) (d cause lost : Nat) : (p.forced d cause lost).down k := by
  by_cases hk : k = d
  · exact hk ▸ p.forced_down k cause lost
  · obtain ⟨hoff, hw⟩ := h
    unfold Power.forced
    dsimp only
    split
    · exact ⟨hoff, by simp [hw]⟩
    · exact ⟨by rw [Tab.get_set_ne _ _ _ _ _ hk]; exact hoff, by simp [hw]⟩

/-- Only a domain that waits is powered up. -/
theorem State.kickWake_down {s : State} {k : Nat} (h : s.pwr.down k) : s.kickWake.pwr.down k := by
  obtain ⟨hoff, hw⟩ := h
  unfold State.kickWake
  split
  next => exact ⟨hoff, hw⟩
  next d l hd =>
    have hk : k ≠ d := fun hk => hw (by simp [hd, hk])
    exact ⟨by simpa [State.setDom, Tab.get_set_ne _ _ _ _ _ hk] using hoff, hw⟩

theorem State.kickWake_sameResets (s : State) : SameResets s s.kickWake := by
  unfold State.kickWake
  split <;> exact ⟨rfl, rfl⟩

theorem State.forceOne_down (s : State) (d cause : Nat) : (s.forceOne d cause).pwr.down d := by
  rw [State.forceOne_pwr]
  exact Power.forced_down ..

theorem State.down_forceOne {s : State} {k : Nat} (h : s.pwr.down k) (d cause : Nat) : (s.forceOne d cause).pwr.down k := by
  rw [State.forceOne_pwr]
  exact h.forced ..

/-! ### Folds over lists of domains -/

/-- What every step keeps, the whole keeps. -/
theorem State.each_of_keeps {α : Type} {P : State → Prop} {f : State → α → State} (hf : ∀ t x, P t → P (f t x)) (l : List α) {s : State}
    (h : P s) : P (s.each l f) := by
  induction l generalizing s with
  | nil => exact h
  | cons x l ih => exact ih (hf s x h)

/-- What the step of one entry of the list brings about, and every step keeps, holds in the end. -/
theorem State.each_of_mem {α : Type} {P : State → Prop} {f : State → α → State} {l : List α} {x : α} (hx : x ∈ l) (hfx : ∀ t, P (f t x))
    (hf : ∀ t y, P t → P (f t y)) (s : State) : P (s.each l f) := by
  induction l generalizing s with
  | nil => cases hx
  | cons y l ih =>
    rcases List.mem_cons.mp hx with rfl | hx
    · exact State.each_of_keeps hf l (hfx s)
    · exact ih hx (f s y)

/-! ### A domain and those that depend on it (R449) -/

/-- Whether forcing domain d down forces domain k down: k is d, depends on it, or depends on one that does. -/
def forces (d k : Nat) : Bool := k == d || (domKids d).any (fun j => k == j || (domKids j).any (fun i => k == i))

/-- A dependant is forced down after those that depend on it. -/
def State.forceKid (s : State) (k : Nat) : State := (s.each (domKids k) (fun u j => u.forceOne j 8)).forceOne k 8

theorem State.forceDown_eq (s : State) (d cause : Nat) :
    s.forceDown d cause = ((s.each (domKids d) State.forceKid).forceOne d cause).kickWake := rfl

theorem State.forceKid_sameResets (s : State) (k : Nat) : SameResets s (s.forceKid k) :=
  (State.each_sameResets _ _ _ fun t j => t.forceOne_sameResets j 8).trans (State.forceOne_sameResets _ k 8)

theorem State.forceDown_sameResets (s : State) (d cause : Nat) : SameResets s (s.forceDown d cause) :=
  ((State.each_sameResets _ _ _ State.forceKid_sameResets).trans (State.forceOne_sameResets _ d cause)).trans (State.kickWake_sameResets _)

theorem State.down_forceKid {s : State} {k : Nat} (h : s.pwr.down k) (j : Nat) : (s.forceKid j).pwr.down k :=
  State.down_forceOne (State.each_of_keeps (P := fun t => t.pwr.down k) (fun _ i ht => State.down_forceOne ht i 8) _ h) j 8

theorem State.forceKid_down {k j : Nat} (h : k = j ∨ k ∈ domKids j) (s : State) : (s.forceKid j).pwr.down k := by
  rcases h with rfl | h
  · exact State.forceOne_down ..
  · exact State.down_forceOne (State.each_of_mem (P := fun t => t.pwr.down k) h (fun t => t.forceOne_down k 8)
      (fun _ i ht => State.down_forceOne ht i 8) s) j 8

theorem State.down_forceDown {s : State} {k : Nat} (h : s.pwr.down k) (d cause : Nat) : (s.forceDown d cause).pwr.down k :=
  State.kickWake_down (State.down_forceOne (State.each_of_keeps (P := fun t => t.pwr.down k) (fun _ j ht => State.down_forceKid ht j) _ h)
    d cause)

theorem State.forceDown_down {d k : Nat} (h : forces d k = true) (s : State) (cause : Nat) : (s.forceDown d cause).pwr.down k := by
  rw [State.forceDown_eq]
  refine State.kickWake_down ?_
  by_cases hk : k = d
  · exact hk ▸ State.forceOne_down ..
  · obtain ⟨j, hj, hkj⟩ : ∃ j ∈ domKids d, k = j ∨ k ∈ domKids j := by simpa [forces, hk] using h
    exact State.down_forceOne (State.each_of_mem (P := fun t => t.pwr.down k) hj (State.forceKid_down hkj)
      (fun _ i ht => State.down_forceKid ht i) s) d cause

/-! ### Every domain but PD0 -/

/-- The domains that State.allDown forces down, with those that depend on them, are all but PD0. -/
theorem exists_forces (k : Nat) (h1 : 1 ≤ k) (h50 : k < 50) : ∃ d ∈ [1, 2, 10, 19, 28, 37, 46], forces d k = true := by
  have h : ∀ k < 50, 1 ≤ k → ∃ d ∈ [1, 2, 10, 19, 28, 37, 46], forces d k = true := by decide
  exact h k h50 h1

theorem State.allDown_sameResets (s : State) (cause : Nat) : SameResets s (s.allDown cause) :=
  State.each_sameResets _ _ _ fun t d => t.forceDown_sameResets d cause

theorem State.allDown_down (s : State) (cause k : Nat) (h1 : 1 ≤ k) (h50 : k < 50) : (s.allDown cause).pwr.down k := by
  obtain ⟨d, hd, hk⟩ := exists_forces k h1 h50
  exact State.each_of_mem (P := fun t => t.pwr.down k) hd (fun t => State.forceDown_down hk t cause)
    (fun _ j ht => State.down_forceDown ht j cause) s

end Sys2Proof.Machine
end

section
/-! PROOFS. Resets and forced events that meet (17_power_clocks_startup.md R477): what each command of a reset does while another runs, and
while the device is stopped. -/
namespace Sys2Proof.Machine

theorem State.each_rst {α : Type} (s : State) (l : List α) (f : State → α → State) (h : ∀ t x, (f t x).rst = t.rst) :
    (s.each l f).rst = s.rst := foldl_keeps State.rst f h l s

/-! ### The walk and the reset of the core leave the resets' own state -/

theorem State.reclaimHost_controllers (s : State) (r : Nat) : (s.reclaimHost r).controllers = s.controllers := by
  unfold State.reclaimHost
  extract_lets s1 c
  have h1 : s1.controllers = s.controllers := State.each_controllers _ _ _ fun t k => by split <;> simp
  simpa using h1

theorem State.resetWalk_rst (s : State) (conv : Bool) : (s.resetWalk conv).rst = s.rst := by
  refine State.each_rst _ _ _ fun t r => State.rst_eq_of_controllers_eq ?_
  split
  · rfl
  · split <;> simp [State.reclaimHost_controllers]

theorem State.cutWrite_rst (s : State) : s.cutWrite.rst = s.rst := by
  unfold State.cutWrite
  split
  · rfl
  · split <;> rfl

theorem State.coreBlocks_rst (s : State) (conv : Bool) : (s.coreBlocks conv).rst = s.rst := State.each_rst _ _ _ (by simp)

theorem State.coreCaches_rst (s : State) (conv : Bool) : (s.coreCaches conv).rst = s.rst :=
  (State.each_rst _ _ _ (by simp)).trans (State.each_rst _ _ _ (by simp))

theorem State.coreStacks_rst (s : State) (conv : Bool) : (s.coreStacks conv).rst = s.rst :=
  (State.each_rst _ _ _ (by simp)).trans ((State.each_rst _ _ _ (by simp)).trans (State.each_rst _ _ _ fun _ _ => rfl))

theorem State.coreEngines_rst (s : State) : s.coreEngines.rst = s.rst := rfl
theorem State.coreFaults_rst (s : State) (conv : Bool) : (s.coreFaults conv).rst = s.rst := rfl
theorem State.coreMail_rst (s : State) (conv : Bool) : (s.coreMail conv).rst = s.rst := rfl

theorem State.corePower_rst (s : State) (conv : Bool) : (s.corePower conv).rst = s.rst := by
  unfold State.corePower
  dsimp only
  split
  · exact State.each_rst _ _ _ (by simp)
  · rfl

/-- The reset of the core is not the reset's own end: its phase and the pins stay (R475, R476). -/
theorem State.resetCore_rst (s : State) (conv : Bool) : (s.resetCore conv).rst = s.rst := by
  unfold State.resetCore
  extract_lets +onlyGivenNames c f s0 s1 s2
  have h0 : s0.rst = s.rst := by
    unfold s0
    split <;> exact s.cutWrite_rst
  calc s2.rst
    _ = s1.rst := State.corePower_rst s1 conv
    _ = s0.rst := by
      rw [State.coreMail_rst, State.coreFaults_rst, State.coreEngines_rst, State.coreStacks_rst, State.coreCaches_rst, State.coreBlocks_rst]
    _ = s.rst := h0

/-! ### What a warm reset by command does before its trigger (R430) -/

theorem State.writeClean_controllers (s : State) (r : Nat) (l : LineId) : (s.writeClean r l).controllers = s.controllers := by
  unfold State.writeClean
  split <;> simp

theorem State.giveUp_controllers (s : State) (r : Nat) (l : LineId) : (s.giveUp r l).controllers = s.controllers := by
  unfold State.giveUp
  split <;> simp

theorem State.recallClean_controllers (s : State) (r : Nat) (l : LineId) : (s.recallClean r l).controllers = s.controllers := by
  unfold State.recallClean
  split
  · rfl
  · split
    · exact State.writeClean_controllers s r l
    · split <;> simp

theorem State.cleanRegion_controllers (s : State) (r : Nat) (pull : Bool) : (s.cleanRegion r pull).controllers = s.controllers := by
  refine State.each_controllers _ _ _ fun t k => ?_
  split
  · simp [State.giveUp_controllers, State.recallClean_controllers, State.writeClean_controllers]
  · rfl

theorem State.writeLife_rst (s : State) : s.writeLife.rst = s.rst := by
  unfold State.writeLife
  split
  · split <;> rfl
  · rfl

/-! ### A trigger that meets a reset, or a device that stands still -/

/-- A warm-reset trigger while a reset runs, or while the device is stopped, does nothing. -/
theorem State.warmTrigger_of_busy (s : State) (h : s.rst.stopped = true ∨ s.rst.phase ≠ .none) : s.warmTrigger = s := by
  apply if_pos
  simpa using h

/-- WARM_RESET_ABORT_DEADLINE where its trigger is ignored: the work that it ends and flushes is no part of the resets. -/
theorem exec_warmResetAbortDeadline_of_busy (s : State) (h : s.rst.stopped = true ∨ s.rst.phase ≠ .none) :
    ∃ t, exec .warmResetAbortDeadline s = .next t ∧ t.rst = s.rst := by
  refine ⟨_, rfl, ?_⟩
  split
  next g _ =>
    split
    · extract_lets s1 s2
      have h1 : s1.rst = s.rst := State.each_rst _ _ _ fun t e => State.rst_eq_of_controllers_eq (State.abortCmds_controllers t e.1 10)
      have h2 : s2.rst = s.rst := (State.each_rst _ _ _ fun t r => State.rst_eq_of_controllers_eq (by
        simp [State.cleanRegion_controllers])).trans h1
      have h3 : s2.writeLife.rst = s.rst := s2.writeLife_rst.trans h2
      rw [State.warmTrigger_of_busy _ (by rwa [h3])]
      exact h3
    · rfl
  next => rfl

theorem exec_warmRstPin_of_busy (s : State) (low : Nat) (hl : 50 ≤ low) (hp : s.rst.pd0Ready = true)
    (h : s.rst.stopped = true ∨ s.rst.phase ≠ .none) :
    exec (.warmRstPin low) s = .next { s with rst := { s.rst with warmLow := true } } := by
  show Host.Outcome.next _ = _
  rw [if_neg (by simp [hl, hp]), State.warmTrigger_of_busy s h]

theorem exec_warmResetRequestDelay_of_busy (s : State) (h : s.rst.stopped = true ∨ s.rst.phase ≠ .none) :
    exec .warmResetRequestDelay s = .next { s with mail := { s.mail with resetAsked := false } } := by
  refine congrArg Host.Outcome.next ?_
  split
  · exact State.warmTrigger_of_busy _ h
  next hn => simp only [Bool.not_eq_true] at hn; rw [← hn]

/-! ### The bullets of R477 -/

theorem State.powerOn_rst (s : State) (supply : Bool) : (s.powerOn supply).rst =
    { phase := .porLow, warmLow := s.rst.warmLow, perstHigh := s.rst.perstHigh, pwrgd := supply, pd0Ready := false, steps := 0, plls := 0,
      stopped := false } := State.each_rst _ _ _ (by simp)

theorem State.powerOn_coh (s : State) (supply : Bool) : (s.powerOn supply).coh = State.reset.coh := foldl_keeps State.coh _ (by simp) _ _

theorem State.powerOn_cells (s : State) (supply : Bool) : (s.powerOn supply).stk.mem.cells = [] :=
  foldl_keeps (fun t : State => t.stk.mem.cells) _ (by simp) _ _

theorem State.powerOn_sent (s : State) (supply : Bool) : (s.powerOn supply).sent = s.sent := foldl_keeps State.sent _ (by simp) _ _

/-- POR_N falls: there is no walk, so nothing is sent. -/
theorem exec_powerOnReset_ends (s : State) (supply : Bool) :
    ∃ t, exec (.powerOnReset supply) s = .next t ∧ t.rst.phase = .porLow ∧ t.rst.stopped = false ∧ t.coh = State.reset.coh ∧
      t.stk.mem.cells = [] ∧ t.sent = s.sent :=
  ⟨s.powerOn supply, rfl, by rw [State.powerOn_rst], by rw [State.powerOn_rst], s.powerOn_coh supply, s.powerOn_cells supply,
    s.powerOn_sent supply⟩

/-- PERST_N falls while a warm reset drains. -/
theorem exec_conventionalReset_of_drain (s : State) (hs : s.rst.stopped = false) (hp : s.rst.phase = .drain false) :
    exec .conventionalReset s = .next { s with rst := { s.rst with perstHigh := false, phase := .drain true } } := by
  show Host.Outcome.next _ = _
  simp [hs, hp]

/-- PERST_N falls while a warm reset is held at the walk's end. -/
theorem exec_conventionalReset_of_held (s : State) (hs : s.rst.stopped = false) (hp : s.rst.phase = .held false) :
    ∃ t, exec .conventionalReset s = .next t ∧ t.rst.phase = .held true := by
  refine ⟨_, rfl, ?_⟩
  simp [hs, hp]

/-- The walk ends while WARM_RST_N is low. -/
theorem exec_warmResetDrainDeadline_of_warmLow (s : State) (hs : s.rst.stopped = false) (hp : s.rst.phase = .drain false)
    (hw : s.rst.warmLow = true) : ∃ t, exec .warmResetDrainDeadline s = .next t ∧ t.rst.phase = .held false ∧ t.rst.warmLow = true := by
  refine ⟨_, rfl, ?_⟩
  simp [hs, hp, hw, State.resetCore_rst, State.resetWalk_rst]

/-- WARM_RST_N rises after the walk's end. -/
theorem exec_warmRstPinRelease_of_held (s : State) (hs : s.rst.stopped = false) (hp : s.rst.phase = .held false) :
    ∃ t, exec .warmRstPinRelease s = .next t ∧ t.rst.phase = .start ∧ t.rst.steps = 0 ∧ t.rst.warmLow = false := by
  refine ⟨_, rfl, ?_⟩
  simp [hs, hp, State.startCore]

/-- The supply is lost: the domains go off, and the device is stopped. -/
theorem exec_pwrgdLoss_of_good (s : State) (hg : s.rst.pwrgd = true) :
    exec .pwrgdLoss s = .next (let u := (s.allDown 6).report 11 114 4 0; { u with rst := { u.rst with pwrgd := false, stopped := true } }) :=
  congrArg Host.Outcome.next (if_neg (by simp [hg]))

/-- The loss of the supply is reported at the clock as it stood, and leaves every domain but PD0 down. -/
theorem exec_pwrgdLoss_stops (s : State) (hg : s.rst.pwrgd = true) :
    ∃ t, exec .pwrgdLoss s = .next t ∧ t.rst = { s.rst with pwrgd := false, stopped := true } ∧
      .fault { g := 11, u := 114, k := 4 } 2 s.flt.oclk 0 ∈ t.sent ∧ ∀ k, 1 ≤ k → k < 50 → t.pwr.down k := by
  obtain ⟨hrst, hoclk⟩ := s.allDown_sameResets 6
  have hdown := s.allDown_down 6
  rw [exec_pwrgdLoss_of_good s hg]
  generalize s.allDown 6 = u at hrst hoclk hdown ⊢
  refine ⟨_, rfl, ?_, ?_, hdown⟩
  · show { u.rst with pwrgd := false, stopped := true } = _
    rw [hrst]
  · show _ ∈ u.sent ++ [.fault { g := 11, u := 114, k := 4 } 2 u.oclk 0]
    rw [hoclk]
    exact List.mem_append_right _ (List.mem_singleton_self _)

/-! ### The device stands still -/

/-- A command leaves the phase of the resets and their step, and the device stopped. -/
def StandsStill (s : State) (c : Instr) : Prop :=
  ∃ t, exec c s = .next t ∧ t.rst.phase = s.rst.phase ∧ t.rst.steps = s.rst.steps ∧ t.rst.stopped = true

theorem standsStill_of_rst_eq {s t : State} {c : Instr} (hs : s.rst.stopped = true) (hx : exec c s = .next t) (h : t.rst = s.rst) :
    StandsStill s c := ⟨t, hx, by rw [h], by rw [h], by rw [h, hs]⟩

/-- No start and no reset but that of POR_N moves a stopped device. -/
theorem standsStill_of_stopped (s : State) (ok : Bool) (fuses : Fuses) (low : Nat) (hs : s.rst.stopped = true) (hp : s.rst.phase ≠ .porLow) :
    ∀ c ∈ [Instr.coreStart, .conventionalReset, .primerCheck ok, .domainSequenceStep, .warmRstPin low, .warmRstPinRelease,
      .warmResetDrainDeadline, .warmResetRequestDelay, .warmResetAbortDeadline, .pd0Start fuses], StandsStill s c := by
  have hpin : StandsStill s (.warmRstPin low) := by
    by_cases hl : low < 50 ∨ s.rst.pd0Ready = false
    · exact standsStill_of_rst_eq hs (congrArg Host.Outcome.next (if_pos hl)) rfl
    · obtain ⟨hl, hr⟩ : 50 ≤ low ∧ s.rst.pd0Ready = true := by simpa using hl
      exact ⟨_, exec_warmRstPin_of_busy s low hl hr (.inl hs), rfl, rfl, hs⟩
  have habort : StandsStill s .warmResetAbortDeadline := by
    obtain ⟨t, hx, ht⟩ := exec_warmResetAbortDeadline_of_busy s (.inl hs)
    exact standsStill_of_rst_eq hs hx ht
  simp only [List.forall_mem_cons]
  exact ⟨⟨_, congrArg Host.Outcome.next (if_pos hs), rfl, rfl, hs⟩,
    ⟨_, congrArg Host.Outcome.next (if_pos hs), rfl, rfl, hs⟩,
    standsStill_of_rst_eq hs (congrArg Host.Outcome.next (if_pos (by simp [hs]))) rfl,
    standsStill_of_rst_eq hs (congrArg Host.Outcome.next (if_pos (by simp [hs]))) rfl,
    hpin,
    ⟨_, congrArg Host.Outcome.next (if_pos hs), rfl, rfl, hs⟩,
    standsStill_of_rst_eq hs (congrArg Host.Outcome.next (if_pos hs)) rfl,
    standsStill_of_rst_eq hs (exec_warmResetRequestDelay_of_busy s (.inl hs)) rfl,
    habort,
    standsStill_of_rst_eq hs (congrArg Host.Outcome.next (if_pos (.inl hp))) rfl,
    by simp⟩

/-- Settles O60, one lemma for each bullet of R477. A trigger during a warm reset meets a phase other than none, and every domain but PD0
is one that the loss of the supply forces down. -/
theorem resetsThatMeet : Obligations.ResetsThatMeet := by
  intro s supply ok fuses low g r warm stays
  refine ⟨exec_powerOnReset_ends s supply,
    fun hs => ⟨exec_conventionalReset_of_drain s hs, exec_conventionalReset_of_held s hs⟩, fun hw => ?_,
    exec_warmResetDrainDeadline_of_warmLow s, exec_warmRstPinRelease_of_held s,
    fun hg => congrArg Host.Outcome.next (if_pos hg), fun hg => ?_, standsStill_of_stopped s ok fuses low⟩
  · have hbusy : s.rst.phase ≠ .none := by rcases hw with h | h <;> simp [r, h]
    refine ⟨fun hl hr => exec_warmRstPin_of_busy s low hl hr (.inr hbusy), exec_warmResetRequestDelay_of_busy s (.inr hbusy), fun _ _ => ?_⟩
    obtain ⟨t, hx, ht⟩ := exec_warmResetAbortDeadline_of_busy s (.inr hbusy)
    exact ⟨t, hx, by rw [ht], by rw [ht]⟩
  · obtain ⟨t, hx, hrst, hsent, hdown⟩ := exec_pwrgdLoss_stops s hg
    exact ⟨t, hx, hrst, hsent, fun k h1 h50 => (hdown k h1 h50).1⟩

end Sys2Proof.Machine
end
